-- ==== Sys2Proof/Word.lean ====
section
/-!
DEFINITION. The plainest types of the model: a byte, a count of time-base nanoseconds, and the sparse
canonical map that holds registers, tables and every other store known by a number.
-/
namespace Sys2Proof

/-- One byte of a frame, a table image or a message. -/
abbrev Byte := BitVec 8

/-- An instant of the time base in nanoseconds: `S * 10^9 + N` for the instant "S s + N ns" (R6). -/
abbrev Instant := Nat

/-- Nanoseconds in one second. -/
abbrev nsPerS : Nat := 1000000000

/-- A map from numbers, as a list with strictly rising keys. -/
abbrev KV (α : Type) := List (Nat × α)

/-- A map from a field's key to the field's value; a field at its reset value is not listed. -/
abbrev FMap := KV Nat

end Sys2Proof
end

