-- ==== Sys2Proof/Syntax.lean ====
section
/-!
DEFINITION. The commands of the block (spec/opcode_table.json) and the data they carry: what arrives on a port, from a
partner package, from a sensor or from host memory, decoded by its own standard where the spec gives no layout.
-/
namespace Sys2Proof.Machine

/-- Who makes a register access: host software over PCIe, or Warden firmware (R46). -/
inductive Requester where
  | host | firmware
  deriving DecidableEq, Repr

/-- The page-table entries that a walk reads, level 4 first; `none` is a table read that completed with an
error or with poisoned data (R340, R341).  Where the translation cache holds the page no entry is read. -/
structure Walk where
  entries : List (Option (BitVec 64))
  deriving DecidableEq, Repr

/-- How the host-memory accesses of one item go: the byte offset in the item of the access that is translated by a
fresh walk (the one that faults, where any does) and the entries that walk reads (R345). -/
structure Dma where
  offset : Nat
  walk : Walk
  deriving DecidableEq, Repr

/-- A PRP redundancy control trailer as received: sequence number and LanId (R78). -/
structure PrpTrailer where
  seq : BitVec 16
  lanA : Bool
  deriving DecidableEq, Repr

/-- One PMU block of a C37.118.2 data frame, in the raw values of the wire (16 or 32 bits wide as FORMAT gives). -/
structure C37Block where
  stat : BitVec 16
  phasors : List (BitVec 32 × BitVec 32)
  freq : BitVec 32
  rocof : BitVec 32
  analogs : List (BitVec 32)
  digitals : List (BitVec 16)
  deriving DecidableEq, Repr

/-- The C37.118.2 frame types (R97). -/
inductive C37Type where
  | data | cfg1 | cfg2 | cfg3 | header | command
  deriving DecidableEq, Repr

/-- What a CFG-2 or CFG-3 frame says of one PMU block (R112). -/
structure CfgBlock where
  idcode : BitVec 16
  format : BitVec 4
  nphasor : Nat
  nanalog : Nat
  ndigital : Nat
  /-- The scale records of the block's phasors and analog values: FACTOR (FP32) and SKIND. -/
  scales : List (BitVec 32 × Nat)
  deriving DecidableEq, Repr

/-- What a CFG-2 or CFG-3 frame says of its stream (R112). -/
structure CfgInfo where
  blocks : List CfgBlock
  fnom60 : Bool
  timeBase : Nat
  rate : Nat
  cfgcnt : Nat
  deriving DecidableEq, Repr

/-- A C37.118.2 frame, decoded by its own standard's layout. -/
structure C37 where
  typ : C37Type
  version : Nat
  idcode : BitVec 16
  soc : Nat
  frac : Nat
  tqFlags : BitVec 8
  chkOk : Bool
  framesize : Nat
  blocks : List C37Block
  cmd : BitVec 16
  cfg : Option CfgInfo
  /-- The 17-byte trailer of R100, when present: KEY_SEL and TAG. -/
  trailer : Option (BitVec 8 × Nat)
  /-- The frame's bytes from SYNC to CHK. -/
  bytes : List Byte
  deriving DecidableEq, Repr

/-- One ASDU of a sampled-value frame: smpCnt, smpSynch and the value and quality of each channel. -/
structure SvAsdu where
  smpCnt : Nat
  smpSynch : Nat
  values : List (BitVec 32 × BitVec 32)
  deriving DecidableEq, Repr

/-- A sampled-value frame (R103). -/
structure SvFrame where
  appid : BitVec 16
  noAsdu : Nat
  svId : List Byte
  confRev : BitVec 32
  simulated : Bool
  asdus : List SvAsdu
  deriving DecidableEq, Repr

/-- One member of a GOOSE dataset (R105). -/
inductive GooseMember where
  | boolean (b : Bool)
  | dbpos (v : BitVec 2)
  | quality (q : BitVec 13)
  | other
  deriving DecidableEq, Repr

/-- A GOOSE PDU (R105, R106); `t` is the UTC time of the t field in nanoseconds, none when absent or undecodable. -/
structure GoosePdu where
  appid : BitVec 16
  gocbRef : List Byte
  confRev : BitVec 32
  simulated : Bool
  ndsCom : Bool
  stNum : BitVec 32
  sqNum : BitVec 32
  talMs : Nat
  t : Option Nat
  members : List GooseMember
  deriving DecidableEq, Repr

/-- What the dataset of a 90-5 sampled-value ASDU holds (R102); `none` is another member order or type. -/
structure SpduData where
  phasors : List (BitVec 32 × BitVec 32)
  freq : BitVec 32
  rocof : BitVec 32
  analogs : List (BitVec 32)
  digitals : List (BitVec 16)
  /-- The quality that follows each member, in their order. -/
  quals : List (BitVec 13)
  deriving DecidableEq, Repr

/-- The APDU of an SPDU: a sampled-value ASDU with its refrTm (UTC ns), datSet and confRev, or a GOOSE PDU. -/
inductive SpduApdu where
  | sv (refrTm : Option Nat) (leapFlags : BitVec 8) (datSet : List Byte) (confRev : BitVec 32) (simulated : Bool)
      (data : Option SpduData)
  | goose (g : GoosePdu)
  deriving DecidableEq, Repr

/-- An IEC 61850-90-5 session PDU (R101). -/
structure Spdu where
  sessionId : BitVec 8
  spduNumber : Nat
  appid : BitVec 16
  nApdus : Nat
  encrypted : Bool
  /-- Signature algorithm: 0 none, 1 HMAC-SHA256-128, 2 AES-GMAC-128. -/
  sigAlg : Nat
  keyId : BitVec 32
  tag : Nat
  apdu : SpduApdu
  bytes : List Byte
  deriving DecidableEq, Repr

/-- The kinds of PTP message (R57). -/
inductive PtpKind where
  | sync | delayReq | pdelayReq | pdelayResp | followUp | delayResp | pdelayRespFollowUp | announce | signaling | management
  /-- A messageType that IEEE 1588 reserves. -/
  | reserved (num : BitVec 4)
  deriving DecidableEq, Repr

/-- A PTP message as the device reads it; `offset` is what the servo measures from a Sync with its uncorrected ingress time-stamp, in
nanoseconds. -/
structure PtpMsg where
  kind : PtpKind
  domain : Nat
  supported : Bool
  tags : Nat
  seqId : BitVec 16
  gm : BitVec 64
  offset : Int
  utcOffset : BitVec 16
  utcValid : Bool
  leap61 : Bool
  leap59 : Bool
  /-- networkTimeInaccuracy of the IEEE_C37_238 TLV, when present. -/
  inaccuracy : Option Nat
  /-- The ALTERNATE_TIME_OFFSET_INDICATOR TLV, when present. -/
  altOffset : Option (List Byte)
  deriving DecidableEq, Repr

/-- What a received frame carries above its link header, decoded by its own standard. -/
inductive Body where
  | raw
  | c37 (f : C37)
  | spdu (p : Spdu)
  | sv (f : SvFrame)
  | goose (g : GoosePdu)
  | ptp (m : PtpMsg)
  | prpSupervision
  /-- A TCP segment of a KIND 2 connection: sequence and acknowledgement numbers, payload, and the decoded forms of the C37.118.2
  frames whose last byte is in it. -/
  | tcp (seq ack : BitVec 32) (payload : List Byte) (frames : List C37)
  deriving DecidableEq, Repr

/-- The network and transport headers of an IP frame, as R95 reads them. -/
structure IpHdr where
  v6 : Bool
  src : BitVec 128
  dst : BitVec 128
  multicast : Bool
  fragment : Bool
  extHeader : Bool
  tcp : Bool
  srcPort : Nat
  dstPort : Nat
  csumOk : Bool
  csumZero : Bool
  deriving DecidableEq, Repr

/-- A frame as it completes on a port's line: its length from destination address to frame check sequence
inclusive, the state of that sequence, its header fields, its bytes from the destination address on, and what it
carries.  The first transmitted byte of an address is in bits [7:0]. -/
structure Frame where
  len : Nat
  fcsOk : Bool
  /-- PCS code or block errors from the end of the frame before to its own end. -/
  pcsErrs : Nat
  /-- Nanoseconds from its message timestamp point (R58) to its last bit. -/
  age : Nat
  dst : BitVec 48
  src : BitVec 48
  vlanTags : Nat
  ethType : BitVec 16
  prp : Option PrpTrailer
  ip : Option IpHdr
  body : Body
  bytes : List Byte
  deriving DecidableEq, Repr

/-- A table image as TABLE_LOAD reads it (R25, R88): the header's fields, its reserved bytes 16 to 59 and CRC, and the
records that follow, each as one little-endian number. -/
structure TableImage where
  magic : BitVec 32
  version : BitVec 16
  recSize : BitVec 16
  first : BitVec 32
  count : BitVec 32
  reserved : BitVec 352
  crc : BitVec 32
  records : List Nat
  deriving DecidableEq, Repr

/-- An IRIG-B frame as decoded (R62): time since the leading edge of its reference marker in ns, parity, day of the year from 1, second
of the day, and the IEEE 1344 bits: year of the century, leap second pending and its sign, time offset in half hours, and time quality. -/
structure IrigFrame where
  age : Nat
  parityOk : Bool
  day : Nat
  second : Nat
  year : Nat
  leapPending : Bool
  leapDelete : Bool
  zone : Int
  quality : BitVec 4
  deriving DecidableEq, Repr

/-- A table record: the VERSION of the image that last wrote it (R485) and its bytes as one little-endian number. -/
structure Rec where
  ver : Nat
  val : Nat
  deriving DecidableEq, Repr

/-- One copy of the staged configuration (R24): every ST field and every table record.  A field or record at its
reset value is not listed.  Records are known by `table code * 2^20 + index`. -/
structure Cfg where
  regs : FMap
  tabs : KV Rec
  deriving DecidableEq, Repr

/-- A record of a slice (R150): flags, age and values. -/
structure SRec where
  present : Bool
  held : Bool
  decim : Bool
  new : Bool
  quenched : Bool
  excluded : Bool
  event : Bool
  age : Nat
  quality : Nat
  freq : BitVec 32
  rocof : BitVec 32
  phasors : List (BitVec 32 × BitVec 32)
  analogs : List (BitVec 32)
  digitals : List Nat
  deriving DecidableEq, Repr

/-- A released slice revision (R149): the header's fields and one record for each entry enabled in its epoch, rising. -/
structure Revision where
  instant : Instant
  k : Nat
  rev : Nat
  epoch : Nat
  fs : Nat
  material : Bool
  complete : Bool
  deadline : Bool
  step : Bool
  final : Bool
  retiring : Bool
  gap : Bool
  /-- A team slice (R376), whose MAGIC differs. -/
  team : Bool
  expected : Nat
  length : Nat
  release : Instant
  recs : KV SRec
  deriving DecidableEq, Repr

/-- A heartbeat (R361); instants are in nanoseconds, `stNums` and `outLast` hold what is not 0. -/
structure Heartbeat where
  unit : Nat
  state : Nat
  witOk : Bool
  timeMaster : Bool
  claim : Nat
  epoch : Nat
  seq : Nat
  ts : Nat
  /-- 0 none, 1 commit, 2 abort. -/
  decision : Nat
  target : Nat
  boundary : Nat
  peerSeq : Nat
  stNums : KV Nat
  outOn : Nat
  outLast : KV Nat
  deriving DecidableEq, Repr

/-- A digest message (R372). -/
structure DigestMsg where
  instant : Nat
  complete : Bool
  run : Bool
  epoch : Nat
  digest : Nat
  safeOut : Nat
  deriving DecidableEq, Repr

/-- What the Active transfers to a unit in SYNC (R371): configuration, shadow, epoch, claim, outputs that are on, and the
boundary it names. -/
structure ResyncImage where
  act : Cfg
  shd : Cfg
  epoch : Nat
  claim : Nat
  outOn : Nat
  boundary : Nat
  deriving DecidableEq, Repr

/-- The header fields of a firmware image (R435), what the standards' functions give for it (whether its signature verifies, and the
SHA-256 of its bytes 256 to IMG_LEN - 1 and of all its bytes), and the number of bytes received. -/
structure Image where
  magic : BitVec 32
  fmt : BitVec 16
  hdrLen : BitVec 16
  fwVer : BitVec 32
  part : BitVec 32
  imgLen : BitVec 32
  cfgVer : BitVec 16
  cfgMin : BitVec 16
  secVer : BitVec 16
  keyIdx : BitVec 8
  /-- Header bytes 27 to 31 and 128 to 255, which are reserved. -/
  reserved : List Byte
  bodyHash : BitVec 256
  /-- SIG verifies under the public key of KEY_IDX over the SHA-256 of bytes 0 to 63. -/
  sigOk : Bool
  received : Nat
  bodySha : BitVec 256
  measurement : BitVec 256
  deriving DecidableEq, Repr

/-- A witness frame (R367), its TYPE apart: the UNIT_ID in it, CLAIM, SEQ, TAG and CRC, each multi-byte field as the
little-endian number of its bytes. -/
structure WitFrame where
  unit : Fin 16
  claim : BitVec 16
  seq : BitVec 16
  tag : BitVec 32
  crc : BitVec 16
  deriving DecidableEq, Repr

/-- A flit as a Hjel link receives it (R358). -/
structure Flit where
  vc : Fin 16
  /-- 0 first, 1 middle, 2 last, 3 only flit of a message; 4 acknowledgement and credit; 5 idle. -/
  typ : Fin 16
  seq : BitVec 8
  payload : List Byte
  crc : BitVec 32
  deriving DecidableEq, Repr

/-- The request block of DERIVE and IMPORT (R404). -/
structure KeyReq where
  alg : BitVec 8
  usage : BitVec 8
  flags : BitVec 16
  keyId : BitVec 32
  expNs : BitVec 32
  expS : BitVec 48
  reserved : BitVec 112
  context : List Byte
  wrapped : List Byte
  deriving DecidableEq, Repr

/-- What a recoverable error struck (R450). -/
inductive Struck where
  /-- 0x10: a slice revision read by publication, by a capture channel, or by an analysis. -/
  | published (kind : Fin 5)
  | captured (ch : Fin 8)
  | analysed (who : Fin 5)
  /-- 0x11: a cell of the oldest frame that waits behind a port. -/
  | frame (port : Fin 48)
  /-- 0x12: memory of the operation that an engine runs. -/
  | operation (e : Fin 64)
  /-- 0x13: the newest item in a capture buffer. -/
  | buffer (ch : Fin 8)
  /-- 0x14: the cached leaf that maps an address. -/
  | leaf (dva : BitVec 48)
  /-- 0x15: memory that holds no live data. -/
  | idle
  deriving DecidableEq, Repr

/-- The messages between packages (R38 to R40, R259, R359, R361, R371 to R377, R437, R440). -/
inductive Hjel where
  | heartbeat (h : Heartbeat)
  | digest (d : DigestMsg)
  | syncReq
  | resync (r : ResyncImage)
  | time (t : Nat)
  | prepare (target boundary : Nat) (digest : Option Nat)
  /-- The readiness answer with the enabled-entry bitmap and the shape of each enabled entry (R39, R377). -/
  | ready (ok : Bool) (bitmap : Nat) (shapes : List (Nat × Nat × Nat × Nat))
  | commit (boundary : Nat)
  | abort
  | confirm
  /-- A table image for the Belay's shadow: of the TABLE_LOAD with a TAG, or of firmware's own writes (R38, R112). -/
  | tableForward (tag : Option (BitVec 16)) (image : TableImage)
  | tableAck (tag : Option (BitVec 16))
  | stagedWrite (addr value : Nat)
  | onOff (o : Nat) (on : Bool)
  | revision (r : Revision)
  | pullRequest
  | image (i : Image)
  | activate (measurement : BitVec 256) (at_ : Nat)
  | activateAnswer (ready : Bool)
  deriving DecidableEq, Repr

/-- An 802.15.4 frame as an interface of the field sensor link receives it (R267 to R276). -/
structure FslFrame where
  /-- Nanoseconds from the FSLi_TSTB pulse to the frame's end. -/
  age : Nat
  /-- Nanoseconds since the MIC check began, step 5 of R275 (at most 40 us). -/
  began : Nat
  /-- Frame version 0b10, no IEs and a type and addressing form that R269 lists. -/
  supported : Bool
  /-- A data request command; else a data frame. -/
  request : Bool
  dstPan : BitVec 16
  /-- Destination short address, when present. -/
  dst : Option (BitVec 16)
  /-- Source address: short, or extended in transmitted byte order. -/
  src : BitVec 16 ⊕ BitVec 64
  ackRequest : Bool
  dsn : BitVec 8
  secured : Bool
  level : BitVec 3
  keyMode : BitVec 2
  keyIdx : BitVec 8
  counter : BitVec 32
  /-- The frame's bytes from the frame control field to the end of the part that goes in the clear. -/
  header : List Byte
  /-- The MAC payload as it is on the air, without the MIC. -/
  body : List Byte
  mic : List Byte
  deriving DecidableEq, Repr


/-- What an operation does on an internal queue (R304 to R308): a push of the cells of a packet, which may start it or end it; a pop
of one cell; both; or DROP_PKT. -/
inductive QueueAct where
  | push (q : Fin 2048) (cells : Nat) (first last : Bool)
  | pop (q : Fin 2048)
  /-- A push and a pop in the same cycle (R307). -/
  | both (q : Fin 2048) (cells : Nat) (first last : Bool)
  | dropPkt (q : Fin 2048)
  deriving DecidableEq, Repr

/-- The queue that an act is on. -/
def QueueAct.queue : QueueAct → Nat
  | .push q .. => q | .pop q => q | .both q .. => q | .dropPkt q => q

/-- A work item of a Warden pair (R303, R458): its priority, 0 the highest, and its identifier. -/
structure WardenItem where
  prio : Fin 4
  id : BitVec 32
  deriving DecidableEq, Repr

end Sys2Proof.Machine

namespace Sys2Proof
open Machine

/-- The commands of the block: one constructor for each row of spec/opcode_table.json, in its order. -/
inductive Instr where
  /-- NOP (R330).  Management command that does nothing and completes at once with OK. -/
  | nop (tag : BitVec 16)
  /-- TABLE_LOAD (R25).  Management command that reads a table image, runs its format checks and writes its records into the shadow copy. -/
  | tableLoad (tag : BitVec 16) (len : BitVec 32) (image : TableImage) (addr : BitVec 48) (dma : Dma)
  /-- CINCH (R329).  A CINCH is dequeued from the management ring; it is held until every earlier command has completed. -/
  | cinch (tag : BitVec 16) (target : BitVec 32) (timed : Bool) (effS : BitVec 48) (effNs : BitVec 32) (grace : BitVec 16)
  /-- CINCH_ACCEPT (R28).  A held or newly dequeued CINCH is checked for acceptance; on acceptance the shadow is sealed and validation starts. -/
  | cinchAccept
  /-- CINCH_VALIDATED (R31).  Firmware validation of the sealed shadow ends; the CINCH is refused, or the prepare phase or boundary choice follows. -/
  | cinchValidated
  /-- CINCH_APPLY (R33).  The application boundary is reached; every block switches to the new configuration and the epoch increments. -/
  | cinchApply
  /-- RETIRING_COPY_EXPIRY (R35).  The revision horizon of the previous epoch passes after a boundary, and the retiring copy is released. -/
  | retiringCopyExpiry
  /-- CINCH_PREPARE (R39).  A rope-team member receives a prepare message, seals and validates its shadow, and answers ready or refused. -/
  | cinchPrepare (target : BitVec 32) (boundary : Nat) (digest : Option Nat)
  /-- CINCH_READY_ANSWER (R39).  The coordinator receives a member's readiness answer and decides commit, abort, a refusal or a moved boundary. -/
  | cinchReadyAnswer (unit : Fin 16) (ready : Bool) (bitmap : Nat) (shapes : List (Nat × Nat × Nat × Nat))
  /-- CINCH_PREPARE_TIMEOUT (R39).  A member has not answered within 20 ms of the prepare message; the coordinator aborts and completes with DEGRADED. -/
  | cinchPrepareTimeout
  /-- CINCH_COMMIT (R40).  A member receives a commit decision and applies at the boundary, or at the next boundary after it has diverged. -/
  | cinchCommit (boundary : Nat)
  /-- CINCH_ABORT (R39).  A member receives an abort decision and unseals its shadow, clearing DIVERGED. -/
  | cinchAbort
  /-- CINCH_CONFIRM (R33).  The coordinator receives a member's confirmation of application and, after the last one, posts the completion. -/
  | cinchConfirm (unit : Fin 16)
  /-- CINCH_CONFIRM_TIMEOUT (R39).  5 ms pass after the boundary without every confirmation; the coordinator completes with DEGRADED. -/
  | cinchConfirmTimeout
  /-- TABLE_FORWARD (R38).  The Belay receives a TABLE_LOAD image forwarded by the Active, writes it into its shadow and acknowledges it. -/
  | tableForward (tag : Option (BitVec 16)) (image : TableImage)
  /-- TABLE_FORWARD_ACK (R38).  The Active receives the Belay's acknowledgement of a forwarded image and completes the TABLE_LOAD. -/
  | tableForwardAck (tag : Option (BitVec 16))
  /-- STAGED_WRITE_FORWARD (R38).  The Belay receives a staged write forwarded by the Active and writes it into its shadow. -/
  | stagedWriteForward (addr : BitVec 26) (value : BitVec 32)
  /-- QUENCH (R80).  Management command that quenches a stream-table entry, a port's unmatched class or a whole port at stage 4. -/
  | quench (tag : BitVec 16) (kind : BitVec 8) (target : BitVec 16)
  /-- QUENCH_RELEASE (R80).  Management command that releases a quench on an entry, an unmatched class or a whole port. -/
  | quenchRelease (tag : BitVec 16) (kind : BitVec 8) (target : BitVec 16)
  /-- SCHEDULE_FIRE (R248).  SCHEDULE command that schedules trigger 10 of a capture channel at an instant, under lateness and grace rules. -/
  | scheduleFire (tag : BitVec 16) (ch : Fin 8) (at_ : Nat) (grace : BitVec 16)
  /-- SCHEDULE_ARM (R331).  SCHEDULE command that schedules an ARM of a capture channel at an instant. -/
  | scheduleArm (tag : BitVec 16) (ch : Fin 8) (at_ : Nat) (grace : BitVec 16)
  /-- SCHEDULE_DISARM (R331).  SCHEDULE command that schedules a DISARM of a capture channel at an instant. -/
  | scheduleDisarm (tag : BitVec 16) (ch : Fin 8) (at_ : Nat) (grace : BitVec 16)
  /-- SCHEDULE_DUE (R36).  The instant of a pending SCHEDULE, or the next slice boundary when LATE, is reached; the action takes place and the command completes. -/
  | scheduleDue
  /-- KEY_OP_INFO (R403).  KEY_OP sub-operation that writes the slot record of a slot to host memory. -/
  | keyOpInfo (tag : BitVec 16) (slot : Fin 256) (len : BitVec 32) (addr : BitVec 48) (dma : Dma)
  /-- KEY_OP_DERIVE (R401).  KEY_OP sub-operation that derives a slot key from the root or a parent slot. -/
  | keyOpDerive (tag : BitVec 16) (slot : Fin 256) (parent : Fin 256) (len : BitVec 32) (addr : BitVec 48) (dma : Dma) (req : KeyReq) (took : Nat)
  /-- KEY_OP_IMPORT (R402).  KEY_OP sub-operation that unwraps a key into a slot under a parent key. -/
  | keyOpImport (tag : BitVec 16) (slot : Fin 256) (parent : Fin 256) (len : BitVec 32) (addr : BitVec 48) (dma : Dma) (req : KeyReq) (took : Nat)
  /-- KEY_OP_INVALIDATE (R405).  KEY_OP sub-operation that makes a slot and every slot below it INVALID. -/
  | keyOpInvalidate (tag : BitVec 16) (slot : Fin 256) (len : BitVec 32)
  /-- KEY_OP_ERASE (R403).  KEY_OP sub-operation that makes a slot EMPTY. -/
  | keyOpErase (tag : BitVec 16) (slot : Fin 256) (len : BitVec 32)
  /-- KEY_OP_ADVANCE (R400).  KEY_OP sub-operation that burns a life-cycle transition. -/
  | keyOpAdvance (tag : BitVec 16) (len : BitVec 32) (state : BitVec 8) (check : BitVec 8)
  /-- KEY_OP_PROVISION (R403).  KEY_OP sub-operation that unwraps and burns the owner root, zeroizes and enters PROVISIONED. -/
  | keyOpProvision (tag : BitVec 16) (len : BitVec 32) (addr : BitVec 48) (dma : Dma) (wrapped : List Byte)
  /-- KEY_OP_ZEROIZE (R408).  KEY_OP sub-operation that zeroizes the key store with reason SOFTWARE. -/
  | keyOpZeroize (tag : BitVec 16) (len : BitVec 32)
  /-- KEY_EXPIRY (R405).  A slot's expiry instant is reached, and the slot becomes INVALID. -/
  | keyExpiry (slot : Fin 256)
  /-- ATTEST_KEY_DERIVE (R406).  After a zeroize, firmware derives the attestation key again from the root; waiting ATTEST commands then complete. -/
  | attestKeyDerive
  /-- ATTEST (R406).  Management command that writes an attestation report bound to a challenge. -/
  | attest (tag : BitVec 16) (len : BitVec 32) (addr : BitVec 48) (challenge : List Byte) (dma : Dma)
  /-- TAMPER_TRIP (R407).  A tamper source trips; it is latched and the key store is zeroized. -/
  | tamperTrip (src : Fin 8) (unpowered : Bool) (edges : Nat)
  /-- DEBUG_REQUEST (R399).  A debug request arrives on the test access port; it is refused, or debug is enabled after a zeroize. -/
  | debugRequest (token : Option (BitVec 128))
  /-- UPDATE_STAGE_STAGE (R437).  UPDATE_STAGE sub-operation that reads an image from the host into a receive buffer for verification and staging. -/
  | updateStageStage (tag : BitVec 16) (len : BitVec 32) (addr : BitVec 48) (dma : Dma) (image : Image)
  /-- UPDATE_STAGE_PULL (R437).  UPDATE_STAGE sub-operation that fetches the running image of the partner or time master over Hjel. -/
  | updateStagePull (tag : BitVec 16)
  /-- PULL_REQUEST (R437).  A unit receives a pull request over Hjel and sends its running image on VC3. -/
  | pullRequest (unit : Fin 16)
  /-- IMAGE_VERIFIED (R438).  Verification of a received image ends; the slot write starts, or the source is refused. -/
  | imageVerified (done : List (Fin 16 × Option Image))
  /-- SLOT_WRITE_COMPLETE (R438).  The slot write and read-back end; the image is STAGED or the write fails with NOR_FAIL. -/
  | slotWriteComplete (equal : Bool)
  /-- UPDATE_STAGE_ACTIVATE_TEAM (R440).  UPDATE_STAGE sub-operation that schedules activation of the staged image in this unit and every partner or member. -/
  | updateStageActivateTeam (tag : BitVec 16) (len : BitVec 32) (addr : BitVec 48) (dma : Dma) (flags : BitVec 8) (at_ : Nat) (grace : BitVec 16)
  /-- UPDATE_STAGE_ACTIVATE_LOCAL (R440).  UPDATE_STAGE sub-operation that schedules activation of the staged image in this unit only. -/
  | updateStageActivateLocal (tag : BitVec 16) (len : BitVec 32) (addr : BitVec 48) (dma : Dma) (flags : BitVec 8) (at_ : Nat) (grace : BitVec 16)
  /-- ACTIVATE_TEAM_MESSAGE (R440).  A partner receives an activation schedule and answers ready or refused. -/
  | activateTeamMessage (unit : Fin 16) (measurement : BitVec 256) (at_ : Nat)
  /-- UPDATE_STAGE_ABANDON (R437).  UPDATE_STAGE sub-operation that drops a staged or scheduled image. -/
  | updateStageAbandon (tag : BitVec 16)
  /-- UPDATE_STAGE_SAVE_CFG (R437).  UPDATE_STAGE sub-operation that writes the active configuration into the store copy not in use. -/
  | updateStageSaveCfg (tag : BitVec 16)
  /-- ACTIVATION (R441).  The activation instant is reached; entry actions run, the directory is written and a system reset starts. -/
  | activation
  /-- TRIAL_COMMIT (R443).  Every trial condition is met; the trial image is committed. -/
  | trialCommit
  /-- TRIAL_TIMEOUT (R444).  The trial timer expires; the always-on domain resets and the device falls back. -/
  | trialTimeout
  /-- SLEEP (R422).  Management command that requests Bivouac entry after its checks. -/
  | sleep (tag : BitVec 16) (timed : Bool) (wakeS : BitVec 48) (wakeNs : BitVec 32) (grace : BitVec 16)
  /-- BIVOUAC_ENTRY (R423).  The entry boundary B is reached; the Stitcher stops and the outputs go quiet. -/
  | bivouacEntry
  /-- BIVOUAC_DRAIN_END (R423).  DRAIN_MS after B expires; undelivered items drop and the device powers down into Bivouac. -/
  | bivouacDrainEnd
  /-- WAKE_PIN (R427).  The selected edge on WAKE, after filtering, wakes the device. -/
  | wakePin (rising : Bool) (edges : Nat)
  /-- WAKE_PATTERN_MATCH (R427).  A frame matches an enabled wake pattern on a wake port in Bivouac and wakes the device. -/
  | wakePatternMatch (port : Fin 48) (pattern : Fin 8) (edges : Nat)
  /-- TIMED_WAKE (R427).  The projected time reaches the SLEEP wake time at a crystal edge. -/
  | timedWake (edges : Nat)
  /-- TB_ALM_WAKE (R427).  A TB alarm with ALM_EN set reaches its instant in Bivouac and wakes the device. -/
  | tbAlmWake (k : Fin 4) (edges : Nat)
  /-- RESUMPTION (R429).  The wake sequence ends; the Stitcher resumes and SLEEP completes, or a hash mismatch forces a system reset. -/
  | resumption (edges : Nat) (imageOk : Bool) (fail : BitVec 16)
  /-- AON_CALIBRATE (R425).  Every 10 s while LOCKED, firmware measures the crystal offset PPB. -/
  | aonCalibrate (ppb : BitVec 24)
  /-- CAIRN_POST (R454).  CAIRN sub-operation that posts a buffer list for the dump. -/
  | cairnPost (tag : BitVec 16) (len : BitVec 32) (addr : BitVec 48) (entries : List (BitVec 64 × BitVec 32 × BitVec 32)) (dma : Dma)
  /-- CAIRN_WITHDRAW (R454).  CAIRN sub-operation that removes the posted list. -/
  | cairnWithdraw (tag : BitVec 16)
  /-- CAIRN_FORCE (R454).  CAIRN sub-operation that raises fatal code 0x26. -/
  | cairnForce (tag : BitVec 16)
  /-- CAPTURE_ARM_ARM (R247).  CAPTURE_ARM action that takes an IDLE channel to HOLDOFF. -/
  | captureArmArm (tag : BitVec 16) (ch : Fin 8)
  /-- CAPTURE_ARM_DISARM (R247).  CAPTURE_ARM action that returns a channel to IDLE. -/
  | captureArmDisarm (tag : BitVec 16) (ch : Fin 8)
  /-- CAPTURE_ARM_FIRE (R247).  CAPTURE_ARM action that raises trigger 9 for a channel. -/
  | captureArmFire (tag : BitVec 16) (ch : Fin 8)
  /-- CAPTURE_ARM_ABORT (R247).  CAPTURE_ARM action that completes the record in progress at once with ABORTED. -/
  | captureArmAbort (tag : BitVec 16) (ch : Fin 8)
  /-- RESUME_RETRY (R348).  RESUME command or XLT_RESUME write that restarts a suspended channel at its faulting access. -/
  | resumeRetry (tag : Option (BitVec 16)) (chan : BitVec 16) (dma : Dma)
  /-- RESUME_SKIP (R348).  RESUME command or XLT_RESUME write that abandons the suspended item and continues the channel. -/
  | resumeSkip (tag : Option (BitVec 16)) (chan : BitVec 16)
  /-- REGISTER_WRITE (R5).  A write to a register that has no row of its own, acting by its access code. -/
  | registerWrite (who : Requester) (addr : BitVec 26) (value : BitVec 32)
  /-- SNAP_LATCH_READ (R42).  A read of a SNAP group's latch word in LOCAL mode latches the group. -/
  | snapLatchRead (addr : BitVec 26)
  /-- SNAP_TAKE (R42).  A write of TAKE latches every SNAP group and GLB_SNAP_TIME at one time-base tick. -/
  | snapTake (word : BitVec 32)
  /-- TB_INCR_WRITE (R45).  A write of TB_INCR's high word applies the 40-bit increment at the next tick, or is discarded. -/
  | tbIncrWrite (who : Requester) (high : BitVec 32)
  /-- TB_STEP_WRITE (R48).  A write of TB_STEP's high word steps the time base, or refuses a negative step while slicing. -/
  | tbStepWrite (who : Requester) (high : BitVec 32)
  /-- TB_ALM_ARM (R65).  A write of the TB alarm word holding EN = 1 arms the alarm. -/
  | tbAlmArm (k : Fin 4) (word : BitVec 32)
  /-- TB_ALM_FIRE (R65).  A TB alarm reaches its instant and fires. -/
  | tbAlmFire (k : Fin 4)
  /-- CMDF_TURN_OFF (R111).  ING_CMDF write that sends command 0x0001 to an entry's source. -/
  | cmdfTurnOff (entry : Fin 8192)
  /-- CMDF_TURN_ON (R111).  ING_CMDF write that sends command 0x0002 to an entry's source. -/
  | cmdfTurnOn (entry : Fin 8192)
  /-- CMDF_SEND_CFG2 (R111).  ING_CMDF write that sends command 0x0005 to an entry's source. -/
  | cmdfSendCfg2 (entry : Fin 8192)
  /-- CMDF_SEND_CFG3 (R111).  ING_CMDF write that sends command 0x0006 to an entry's source. -/
  | cmdfSendCfg3 (entry : Fin 8192)
  /-- CAP_CAL_START (R232).  A CAP_CAL write with START = 1 begins the trigger loopback measurement. -/
  | capCalStart (word : BitVec 32)
  /-- CAP_CAL_DONE (R232).  The 16 calibration pulses end; the results are written and event 135 is raised. -/
  | capCalDone
  /-- NUDGE_MMIO_ONE (R319).  A HIF_NUDGE_MMIO write with ONE 1 reads one doorbell word at once. -/
  | nudgeMmioOne (ring : Fin 64)
  /-- NUDGE_MMIO_ALL (R319).  A HIF_NUDGE_MMIO write with ONE 0 reads the whole doorbell block at once. -/
  | nudgeMmioAll
  /-- RING_ENABLE (R315).  A write setting HIF_RING_CFG EN to 1 resets the ring's head and tail. -/
  | ringEnable (ring : Fin 64) (value : BitVec 32)
  /-- RING_DISABLE (R316).  A write setting HIF_RING_CFG EN to 0 stops new fetching and discards suspended work. -/
  | ringDisable (ring : Fin 64) (value : BitVec 32)
  /-- XLT_INVALIDATE_RANGE (R343).  An XLT_INV write with ALL 0 issues an invalidation of a DVA range. -/
  | xltInvalidateRange (high : BitVec 32)
  /-- XLT_INVALIDATE_ALL (R343).  An XLT_INV write with ALL 1 issues an invalidation of every cached entry. -/
  | xltInvalidateAll (high : BitVec 32)
  /-- XLT_INV_COMPLETE (R343).  An invalidation's conditions are all met; DONE advances and event 245 is raised. -/
  | xltInvComplete
  /-- FRING_BASE_WRITE (R354).  A write of XLT_FRING_BASE sets the fault ring's head and tail to 0. -/
  | fringBaseWrite (word : Fin 2) (value : BitVec 32)
  /-- SAFE_FORCE_WRITE (R389).  A SAFE_FORCE write that advances or completes the proof-test sequence. -/
  | safeForceWrite (value : BitVec 32)
  /-- PWR_RST_WRITE (R415).  A PWR_RST write that advances or completes the system-reset sequence. -/
  | pwrRstWrite (value : BitVec 32)
  /-- BLOCK_RESTART (R420).  A PWR_BLK_RST write with GO = 1 restarts one unit. -/
  | blockRestart (word : BitVec 32)
  /-- BLOCK_RESTART_DONE (R420).  A block restart ends and the unit resumes under the active configuration. -/
  | blockRestartDone
  /-- ERR_INJ_SINGLE (R463).  An ERR_INJ write that injects one single-bit error at the next access to a memory class. -/
  | errInjSingle (mem : Fin 8)
  /-- ERR_INJ_DOUBLE (R463).  An ERR_INJ write that injects one double-bit error at the next access to a memory class. -/
  | errInjDouble (mem : Fin 8)
  /-- WRD_STAT_READ (R311).  A read of SCHED_WRD_STAT returns MAX_ITEM_US and clears it. -/
  | wrdStatRead
  /-- PAIR_ENABLE (R362).  Setting PAIR_CTL.ENABLE with MODE 1 moves the unit from OFF to START. -/
  | pairEnable (word : BitVec 32)
  /-- PAIR_DISABLE (R362).  Clearing ENABLE moves the unit to OFF from a permitted state. -/
  | pairDisable (word : BitVec 32)
  /-- POWER_ON_RESET (R414).  PORST_N low for 1 µs or more starts a power-on reset. -/
  | powerOnReset (ramLost : Bool)
  /-- BROWN_OUT (R468).  A monitored rail stays below its brown-out level for 2 µs, and a power-on reset follows. -/
  | brownOut (ramLost : Bool)
  /-- RESET_RELEASE (R416).  A reset is released and the boot ROM reads fuses and starts the key store. -/
  | resetRelease
  /-- LOAD_COMPLETE (R416).  DRAM training and image loading end; Warden firmware starts, or NO_IMAGE is entered. -/
  | loadComplete
  /-- MICROCODE_LOADED (R418).  Engine microcode is loaded and checked in every engine. -/
  | microcodeLoaded (fail : BitVec 64)
  /-- SELFTEST_COMPLETE (R387).  The start-up self-test ends; PHASE becomes READY or QUARANTINE. -/
  | selftestComplete (fail : BitVec 16)
  /-- FLR (R313).  A PCIe function level reset restarts HIF and XLT. -/
  | flr
  /-- BUS_MASTER_DISABLE (R313).  Bus Master Enable is cleared and the device issues no requests. -/
  | busMasterDisable
  /-- PERST (R477).  PERST_N low takes the PCIe link down and restarts HIF and XLT. -/
  | perst
  /-- PCIE_LINK_DOWN (R450).  The PCIe link goes down and DMA stops. -/
  | pcieLinkDown
  /-- PCIE_LINK_UP (R450).  The PCIe link comes up again and the device acts as for a function level reset. -/
  | pcieLinkUp
  /-- PCIE_ERROR_COMPLETION (R451).  A device read of host memory completes with an error, and its channel suspends. -/
  | pcieErrorCompletion (chan : Fin 65)
  /-- FRAME_RECEIVE (R72).  A frame completes on a port and passes acceptance, time-stamp, PRP, classification, quench, policing and cell allocation. -/
  | frameReceive (port : Fin 48) (frame : Frame)
  /-- PRP_ENTRY_AGE (R78).  A duplicate-discard entry reaches AGE_MS and is removed. -/
  | prpEntryAge (harness : Fin 25)
  /-- PRP_SUPERVISION (R79).  Every 2 s, firmware sends a PRP supervision frame on the Harness. -/
  | prpSupervision (harness : Fin 25)
  /-- LINK_UP (R87).  A port's link comes up after training. -/
  | linkUp (port : Fin 48) (speed : Fin 6) (anDone : Bool)
  /-- LINK_DOWN (R82).  A port's link goes down; frames reaching queue heads are then discarded. -/
  | linkDown (port : Fin 48)
  /-- FRAME_TRANSMIT (R81).  The transmitter starts the head frame of the highest non-empty queue, in step across a Harness. -/
  | frameTransmit (port : Fin 48)
  /-- TX_DESCRIPTOR (R326).  A transmit-ring descriptor is fetched and checked, and its frame or downlink is queued. -/
  | txDescriptor (ring : Fin 64) (bytes : List Byte) (ptp : Option (PtpKind × BitVec 16)) (dma : Dma)
  /-- TX_CELLS_FREED (R82).  Cells free for a transmit queue, and a descriptor left waiting on the ring proceeds. -/
  | txCellsFreed (ring : Fin 64) (bytes : List Byte) (ptp : Option (PtpKind × BitVec 16)) (dma : Dma)
  /-- ING_PARSE (R93).  ING dequeues a frame, chooses the configuration that reads it and recognises its format. -/
  | ingParse
  /-- C37118_DATA_FRAME (R97).  ING consumes a C37.118.2 data frame: authentication, order, time and quality checks, conversion and hand-on. -/
  | c37118DataFrame
  /-- IEC_90_5_SPDU (R101).  ING consumes an IEC 61850-90-5 SPDU carrying sampled values or GOOSE. -/
  | iec905Spdu
  /-- SV_FRAME (R103).  ING consumes a sampled-value frame and hands each ASDU to PHE and raw history. -/
  | svFrame
  /-- GOOSE_FRAME (R105).  ING consumes a GOOSE status frame and tracks stNum and sqNum. -/
  | gooseFrame
  /-- GOOSE_TTL_EXPIRY (R106).  No GOOSE frame is accepted within timeAllowedToLive; the last values are handed on INVALID. -/
  | gooseTtlExpiry (entry : Fin 8192)
  /-- CFG_FRAME (R112).  A CFG-2 or CFG-3 frame arrives; it is copied to its ring and firmware may stage configuration from it. -/
  | cfgFrame
  /-- C37118_CMD_FRAME (R259).  A received C37.118.2 command frame addresses an output stream and turns it off or on, or is copied to the host. -/
  | c37118CmdFrame
  /-- TCP_SEGMENT (R96).  A segment arrives on a KIND 2 connection; in-order payload is framed, out-of-order segments are discarded. -/
  | tcpSegment
  /-- TCP_ESTABLISHED (R96).  A KIND 2 connection becomes established and firmware sends the start commands. -/
  | tcpEstablished (entry : Fin 8192) (next : BitVec 32)
  /-- TCP_RETRY (R96).  The retry wait after a lost connection expires and firmware opens the connection again. -/
  | tcpRetry (entry : Fin 8192)
  /-- RX_RING_DELIVER (R84).  A frame directed to a receive ring is written into buffers, whole or truncated, or dropped. -/
  | rxRingDeliver (ring : Fin 64) (dma : Dma)
  /-- PTP_MESSAGE (R57).  A PTP message is received on a port with a PTP role and processed. -/
  | ptpMessage (port : Fin 48) (msg : PtpMsg) (bytes : List Byte)
  /-- PTP_SEND (R60).  A PTP message interval expires and firmware sends Sync, Announce or Pdelay messages. -/
  | ptpSend (port : Fin 48) (kind : PtpKind)
  /-- PPS_IN_EDGE (R63).  A rising edge on PPS_IN is time-stamped. -/
  | ppsInEdge
  /-- PPS_OUT_PULSE (R63).  An instant with N = 0 is reached and PPS_OUT rises when its mode allows. -/
  | ppsOutPulse
  /-- PPS_OUT_END (R63).  The PPS_OUT pulse width expires and the pin goes low. -/
  | ppsOutEnd
  /-- IRIGB_FRAME (R62).  An IRIG-B frame is decoded on IRIGB_IN. -/
  | irigbFrame (frame : IrigFrame)
  /-- REF10M_LOSS (R64).  REF10M_IN is lost for 10 µs and the PLL returns to REFCLK. -/
  | ref10mLoss
  /-- REF_QUALIFY (R51).  A time reference qualifies; STATE moves to ACQUIRING. -/
  | refQualify
  /-- REF_LOSS (R51).  The active reference is lost or switched; STATE moves to HOLDOVER or FREE. -/
  | refLoss
  /-- HW_LOSS_DETECT (R51).  The hardware loss detector fires for PPS_IN or IRIG-B and STATE moves to HOLDOVER. -/
  | hwLossDetect
  /-- TB_LOCK (R51).  16 consecutive offset measurements within ±1 µs move STATE to LOCKED. -/
  | tbLock
  /-- HOLDOVER_SECOND (R53).  Each second in HOLDOVER, HOLD_PPB is added to TB_ERR. -/
  | holdoverSecond
  /-- LEAP_APPLY (R50).  The leap-second instant is reached; OFFSET changes and LSO is set. -/
  | leapApply
  /-- LSO_EXPIRY (R50).  86,400 s after a leap, LSO clears. -/
  | lsoExpiry
  /-- TB_PLAUS_CHECK (R66).  The AON check counter finds the time base implausible and reports the fault. -/
  | tbPlausCheck (advancePerTick : Nat)
  /-- PHE_SAMPLE (R123).  An ASDU reaches PHE; when it completes a window, that output's computation starts. -/
  | pheSample
  /-- PHE_WAIT_EXPIRY (R123).  WAIT_US after a window's last sample instant expires and the computation starts. -/
  | pheWaitExpiry (ch : Fin 1024)
  /-- PHE_OUTPUT (R119).  A phasor computation ends; results are compared under DUAL and emitted or withheld. -/
  | pheOutput (ch : Fin 1024) (agree : Bool)
  /-- SLICE_OPEN (R147).  The time base reaches a slice instant minus FUTURE_MS and the slice opens. -/
  | sliceOpen
  /-- MEASUREMENT_PLACE (R140).  A measurement reaches the Stitcher and is placed, gathered as late, or discarded. -/
  | measurementPlace
  /-- SLICE_DEADLINE (R137).  A slice's deadline is reached without every expected stream present. -/
  | sliceDeadline
  /-- REVISION_0_RELEASE (R138).  The release conditions of a slice hold and revision 0 is built and released. -/
  | revision0Release
  /-- REV_GATHER_EXPIRY (R144).  REV_GATHER_US after the first gathered arrival expires. -/
  | revGatherExpiry
  /-- REVISION_RELEASE (R144).  A later revision of a slice is released with its gathered arrivals. -/
  | revisionRelease
  /-- SLICE_HORIZON (R146).  A slice's horizon is reached and the slice closes. -/
  | sliceHorizon
  /-- STORE_STALL_CLEAR (R151).  Slice-store space frees and a stalled release proceeds. -/
  | storeStallClear
  /-- TOPOLOGY_LABEL (R162).  Hardware labelling of buses and islands for a revision ends and the labels go to ISL. -/
  | topologyLabel
  /-- LSE_ESTIMATE (R167).  The state estimate of a revision is computed, with its bad-data step, and its result is delivered. -/
  | lseEstimate
  /-- REFACTOR_COMPLETE (R170).  A refactorisation ends; the factor cuts over or fails, and a held trigger starts the next one. -/
  | refactorComplete
  /-- OSC_SAMPLE (R183).  The release of revision 0 at t + G_b lets a set compute the decimated sample of t. -/
  | oscSample
  /-- OSC_UPDATE (R184).  A set's identification update ends; modes, forced oscillations and mode alarms are evaluated and the result delivered. -/
  | oscUpdate (set : Fin 16)
  /-- OSC_REVISION (R189).  A material revision recomputes the samples it covers and a REVISED result is delivered. -/
  | oscRevision
  /-- RULE_EVAL (R209).  ISL evaluates alarm rules and island states on a revision it acts on. -/
  | ruleEval
  /-- RECLUSTER (R212).  Every tenth slice, coherency re-clustering starts after revision 0's release. -/
  | recluster
  /-- RECLUSTER_DONE (R212).  Re-clustering ends, and the new groups are set to apply. -/
  | reclusterDone
  /-- CONF_MISS (R214).  A TOPO_ONLY or COH_ONLY state lasts CONF_WIN slices and event 118 is raised. -/
  | confMiss
  /-- SAFETY_COMPARE (R14).  Both instances of a safety-attributed computation complete and their outputs are compared. -/
  | safetyCompare (agree : Bool)
  /-- SAFETY_DEADLINE_MISS (R14).  One instance of a safety-attributed graph misses its completion time. -/
  | safetyDeadlineMiss
  /-- GOOSE_REPEAT (R223).  A GOOSE alarm repeat interval expires and the next frame of the state is sent. -/
  | gooseRepeat (p : Fin 8)
  /-- ALM_READBACK_MISMATCH (R218).  An ALM_OUT pin reads back unequal to its driven level. -/
  | almReadbackMismatch (pin : Fin 16)
  /-- TRIG_IN_EDGE (R231).  An edge on TRIG_IN is accepted and time-stamped, and fires channels. -/
  | trigInEdge (n : Fin 8) (rising : Bool) (held : Nat)
  /-- XFIRE_EDGE (R234).  A rising edge on XFIRE arrives as trigger 8. -/
  | xfireEdge
  /-- XFIRE_PULSE_END (R234).  The 1 µs XFIRE pulse ends. -/
  | xfirePulseEnd
  /-- TRIG_OUT_PULSE_END (R253).  A TRIG_OUT pulse width expires. -/
  | trigOutPulseEnd (k : Fin 4)
  /-- XARM_CHANGE (R236).  XARM rises or falls and gates channels with XARM_EN. -/
  | xarmChange (level : Bool)
  /-- HOLDOFF_SATISFIED (R238).  The hold-off time and trigger count are met and the channel re-arms. -/
  | holdoffSatisfied (ch : Fin 8)
  /-- CAPTURE_COPY (R240).  A window item becomes copyable and is copied into the capture buffer. -/
  | captureCopy (ch : Fin 8)
  /-- CAPTURE_WINDOW_END (R240).  The time base passes a raw-source record's window end, and recording completes. -/
  | captureWindowEnd (ch : Fin 8)
  /-- CAPTURE_DRAIN (R246).  A completed record drains to its capture ring as buffers allow, and its completion is written. -/
  | captureDrain (ch : Fin 8) (dma : Dma)
  /-- OUTPUT_FRAME (R255).  A released revision selected by an output stream is framed and queued on transmit queue 6. -/
  | outputFrame
  /-- PUB_DELIVER (R260).  A publication item is written into ring buffers and announced, or waits or drops. -/
  | pubDeliver (ring : Fin 64) (dma : Dma)
  /-- BEACON (R270).  A beacon instant of a field sensor link interface is reached, and a beacon is sent or counted missed. -/
  | beacon (i : Fin 2)
  /-- FSL_FRAME_RECEIVE (R275).  An 802.15.4 frame is received and judged statelessly, acknowledged and delivered. -/
  | fslFrameReceive (i : Fin 2) (frame : FslFrame)
  /-- DOWNLINK_SEND (R278).  After an accepted data request, the oldest queued downlink is sent. -/
  | downlinkSend (i : Fin 2)
  /-- DOWNLINK_ACK_RECEIVE (R278).  A sensor's acknowledgement of a downlink arrives and the payload completes with OK. -/
  | downlinkAckReceive (i : Fin 2) (dsn : BitVec 8)
  /-- DOWNLINK_ACK_TIMEOUT (R278).  macAckWaitDuration expires without acknowledgement and the downlink is retried. -/
  | downlinkAckTimeout (i : Fin 2)
  /-- DOWNLINK_EXPIRY (R278).  A downlink queued for 30 s completes with DEGRADED. -/
  | downlinkExpiry (i : Fin 2)
  /-- SENSOR_SILENT (R280).  SILENT_N cycles of beacons pass without an accepted frame and the sensor becomes SILENT. -/
  | sensorSilent (sensor : Fin 1024)
  /-- TRANSCEIVER_RESET (R268).  The transceiver answers ALIVE 0 or holds IRQ_N low for 10 ms and is reset. -/
  | transceiverReset (i : Fin 2) (alive : Bool)
  /-- ENGINE_DISPATCH (R298).  An engine becomes free and takes an operation from the ready lists. -/
  | engineDispatch (e : Fin 64)
  /-- AFF_WAIT_EXPIRY (R298).  An operation has waited AFF_WAIT_NS for its busy affinity engine and becomes free to run elsewhere. -/
  | affWaitExpiry (c : Fin 16)
  /-- OP_COMPLETE (R288).  An engine completes an operation; its result enters the release stage and successors become ready. -/
  | opComplete (e : Fin 64) (acts : List QueueAct)
  /-- RELEASE_STAGE_FREE (R300).  A release-stage place frees, and a held or spilled result enters it. -/
  | releaseStageFree (c : Fin 16)
  /-- DELAY_TICK (R299).  A 10 µs delay-list tick moves due entries to their ready lists. -/
  | delayTick (c : Fin 16)
  /-- GRAPH_RUN_START (R293).  A revision release starts a run of a slice-driven graph, or a SKIPPED result. -/
  | graphRunStart
  /-- GRAPH_TIMED_START (R293).  A timed graph's period instant starts its run. -/
  | graphTimedStart (g : Fin 64)
  /-- WARDEN_ITEM_START (R303).  A Warden pair completes an item and starts the oldest ready item of the highest priority. -/
  | wardenItemStart (pair : Fin 2) (us : Nat) (made : List WardenItem)
  /-- WARDEN_ITEM_OVERRUN (R303).  A Warden item runs longer than its pair's bound. -/
  | wardenItemOverrun (pair : Fin 2) (us : Nat)
  /-- NUDGE_POLL (R319).  The nudge poll period expires and the nudge word is read. -/
  | nudgePoll (value : BitVec 64) (dma : Dma)
  /-- DOORBELL_READ (R317).  The doorbell block or word returns and changed words are acted on or found in error. -/
  | doorbellRead (words : List (BitVec 32)) (dma : Dma)
  /-- DESCRIPTOR_FETCH (R329).  A submission descriptor returns from host memory and is dequeued to its block. -/
  | descriptorFetch (ring : Fin 64) (desc : BitVec 256) (dma : Dma)
  /-- COMPLETION_WRITE (R321).  Completion-ring space frees and held completions and the progress word are written. -/
  | completionWrite (ring : Fin 64) (dma : Dma) (progress : Dma)
  /-- IRQ_COAL_TIMEOUT (R322).  COAL_US passes after the first unsignalled completion and the ring's vector is signalled. -/
  | irqCoalTimeout (ring : Fin 64)
  /-- EVENT_ENTRY_WRITE (R335).  A waiting event entry is written to its event ring. -/
  | eventEntryWrite (q : Fin 4) (dma : Dma)
  /-- HEARTBEAT_SEND (R361).  The 250 µs heartbeat period expires and a heartbeat is sent. -/
  | heartbeatSend
  /-- HEARTBEAT_RECEIVE (R361).  A heartbeat arrives from the partner or a member and drives the pair state machine. -/
  | heartbeatReceive (h : Heartbeat)
  /-- PARTNER_LOST (R361).  1,000 µs pass without a valid heartbeat and the partner is lost. -/
  | partnerLost (unit : Fin 16)
  /-- START_WAIT_EXPIRY (R362).  START_WAIT_MS passes in START without contact and the unit enters QUERY. -/
  | startWaitExpiry
  /-- WITNESS_POLL (R367).  A unit receives a POLL and answers QUERY or OK. -/
  | witnessPoll (frame : WitFrame)
  /-- WITNESS_GRANT (R362).  A unit receives a GRANT and enters ACTIVE with the granted claim. -/
  | witnessGrant (frame : WitFrame)
  /-- WITNESS_DENY (R362).  A unit receives a DENY and enters or stays in BELAY_HOLD. -/
  | witnessDeny (frame : WitFrame)
  /-- WITNESS_UNREACHABLE (R368).  2 ms pass without a valid witness frame and the unit enters HOLD. -/
  | witnessUnreachable
  /-- WITNESS_SLOT (R368).  A 250 µs witness slot expires and the witness addresses the next unit. -/
  | witnessSlot
  /-- WITNESS_ANSWER (R369).  The witness receives a unit's QUERY or OK answer. -/
  | witnessAnswer (query : Bool) (frame : WitFrame)
  /-- WITNESS_WINDOW_EXPIRY (R369).  The witness's 2 ms collection window ends and it decides. -/
  | witnessWindowExpiry
  /-- HOLD_MAX_EXPIRY (R365).  HOLD_MAX_MS in HOLD expires and the unit enters the safe state. -/
  | holdMaxExpiry
  /-- SYNC_REQ (R371).  The Active receives SYNC_REQ and sends its configuration and shadow with a boundary. -/
  | syncReq (unit : Fin 16)
  /-- RESYNC_IMAGE (R371).  A syncing unit receives the transferred configuration and validates it. -/
  | resyncImage (image : ResyncImage)
  /-- RESYNC_BOUNDARY (R371).  The resynchronisation boundary is reached and the unit takes the configuration and enters BELAY. -/
  | resyncBoundary
  /-- RESYNC_RETRY (R371).  10 s after a refused resynchronisation, SYNC_REQ is sent again. -/
  | resyncRetry
  /-- DIGEST (R372).  A digest message for revision 0 arrives and is compared with the unit's own. -/
  | digest (msg : DigestMsg)
  /-- DIGEST_TIMEOUT (R372).  10 s pass without a compared slice and event 201 is raised. -/
  | digestTimeout
  /-- ONOFF_FORWARD (R259).  A Belay receives a forwarded on/off change of an output stream. -/
  | onoffForward (o : Fin 64) (on : Bool)
  /-- TIME_MESSAGE_SEND (R373).  Every 1 ms, the time master sends a time message on VC1. -/
  | timeMessageSend
  /-- TIME_MESSAGE (R373).  A time message arrives and feeds the Hjel time reference. -/
  | timeMessage (unit : Fin 16) (offset : Int)
  /-- HJEL_DELAY_MEASURE (R373).  Every 125 ms, a link measures its delay by a two-way exchange. -/
  | hjelDelayMeasure (link : Fin 4) (delay : Nat)
  /-- HJEL_FLIT (R358).  A Hjel flit arrives; it is checked, replayed or assembled into a message and routed. -/
  | hjelFlit (link : Fin 4) (flit : Flit) (crossed : Nat)
  /-- HJEL_LINK_UP (R358).  A Hjel link completes training and learns its peer's UNIT_ID. -/
  | hjelLinkUp (link : Fin 4) (peer : Fin 16)
  /-- HJEL_LINK_DOWN (R358).  A Hjel link goes down after 8 replays or 10 µs without block lock. -/
  | hjelLinkDown (link : Fin 4) (noLock : Bool)
  /-- TEAM_REVISION (R376).  The time master receives a member's revision 0 and assembles the team slice when all have arrived. -/
  | teamRevision (unit : Fin 16) (rev : Revision)
  /-- TEAM_WAIT_EXPIRY (R376).  TEAM_WAIT_US after its own revision 0 expires and the time master assembles the team slice. -/
  | teamWaitExpiry
  /-- LOCKSTEP_MISMATCH (R383).  A Warden lockstep comparison fails. -/
  | lockstepMismatch (pair : Fin 2)
  /-- WATCHDOG_EXPIRY (R383).  The window watchdog expires or is serviced outside its window. -/
  | watchdogExpiry
  /-- CLOCK_FAULT (R383).  A clock monitor finds a PLL or clock lost or out of frequency. -/
  | clockFault
  /-- SUPPLY_FAULT (R468).  A monitored rail leaves nominal ±5 %. -/
  | supplyFault (rail : Fin 8)
  /-- TEMPERATURE_FAULT (R383).  The junction passes +110 °C for a warning or +115 °C for the safe state. -/
  | temperatureFault (tj : BitVec 16)
  /-- PERIODIC_SELFTEST (R388).  Every PTEST_S seconds, firmware runs the injection tests alongside live data. -/
  | periodicSelftest (fail : BitVec 16)
  /-- SCRUB (R383).  A scrub pass over memory finds and corrects latent errors. -/
  | scrub (found : List (Fin 6 × BitVec 64 × Bool))
  /-- CORRECTABLE_ERROR (R450).  A correctable error is detected, corrected and logged. -/
  | correctableError (code : Fin 4) (mem : BitVec 8) (unit : BitVec 16) (addr : BitVec 64)
  /-- RECOVERABLE_ERROR (R450).  A recoverable error is detected and the one affected item is abandoned. -/
  | recoverableError (struck : Struck) (mem : BitVec 8) (unit : BitVec 16) (addr : BitVec 64) (safety : Bool)
  /-- FATAL_ERROR (R453).  A fatal error is detected and the Cairn condition begins. -/
  | fatalError (code : Fin 6) (mem : BitVec 8) (unit : BitVec 16) (addr : BitVec 64)
  /-- CAIRN_DONE (R461).  The Cairn dump is sealed, and the device resets or halts. -/
  | cairnDone (faults : List (Nat × Dma))
  /-- CAIRN_TIMEOUT (R460).  The Cairn makes no progress for 10 ms or exceeds CAIRN_MS, and the always-on domain resets. -/
  | cairnTimeout
  /-- ALM_OUT_HALF_PERIOD (R217).  The half-period of an ALM_OUT wave expires at a TB tick and the pin toggles, starting the readback check. -/
  | almOutHalfPeriod (pin : Fin 16)
  /-- REF10M_RETURN (R64).  REF10M_IN returns after a loss and TB_STAT.FREF_LOST clears, while the PLL stays on REFCLK until a CINCH writes FREF. -/
  | ref10mReturn
  /-- BUS_MASTER_ENABLE (R313).  Bus Master Enable is set again and the device resumes issuing requests on stalled rings. -/
  | busMasterEnable
  /-- TCP_CONNECTION_LOSS (R96).  A KIND 2 connection is lost, its state becomes waiting to retry and the entry's measurements go missing from slices. -/
  | tcpConnectionLoss (entry : Fin 8192)
  /-- ANNOUNCE_RECEIPT_TIMEOUT (R57).  Announce receipt times out on the lower-numbered slave port of a PRP Harness and the device switches to the other port without leaving LOCKED. -/
  | announceReceiptTimeout
  /-- PHE_DUAL_TIMEOUT (R128).  One DUAL instance's result is missing 20 µs after the computation starts; no output is emitted, MISMATCH is counted and the fault is reported. -/
  | pheDualTimeout (ch : Fin 1024)
  /-- CFG_STORE_WRITTEN (R443).  A configuration store copy finishes writing and read-back in boot NOR, completing SAVE_CFG or setting CFG_MET of a trial. -/
  | cfgStoreWritten (equal : Bool)
  /-- ACTIVATE_TEAM_ANSWER (R440).  The unit that issued ACTIVATE_TEAM receives a partner's ready or refused answer and schedules or refuses the activation. -/
  | activateTeamAnswer (unit : Fin 16) (ready : Bool)
  /-- ACTIVATE_TEAM_TIMEOUT (R440).  A partner has not answered an ACTIVATE_TEAM within 20 ms and the command is refused with PARTNER_MISMATCH. -/
  | activateTeamTimeout
  /-- SLEEP_LATE_COMPLETION (R422).  For a SLEEP whose wake time is past within grace, the next slice boundary is reached and SLEEP completes with LATE and REASON 0 without entering Bivouac. -/
  | sleepLateCompletion
  deriving DecidableEq, Repr

end Sys2Proof
end

