-- ==== Sys2Proof/Decode.lean ====
section
/-!
DEFINITION. The command that a word spells.  The block decodes no instruction words: no row of spec/opcode_table.json gives bits,
so no word spells a command.  A command comes from outside with its operands (Syntax.lean).
-/
namespace Sys2Proof

/-- The command spelt by the `nbits` bits `w` of a row of the table: none, since no row has bits. -/
def decodeTableWord (_nbits _w : Nat) : Option Instr := none

end Sys2Proof
end

