-- ==== Sys2Proof/Machine/RegMap.lean ====
section
/-!
DEFINITION. The register map of BAR0 (R480 to R482), one definition per named field of every register
table of spec/00 to spec/22, with its place, width, access code (R5) and reset value, and the list of
register descriptors by which a word address is resolved.

A field is known by the bit address of its lowest bit in BAR0 (eight times the byte offset of the register
plus the field's lowest bit), so that two fields never share a key.
-/
namespace Sys2Proof.Machine

/-- The access codes of R5.  SNAP fields are read-only fields whose words are latched together (R42). -/
inductive Acc where
  | ro | rw | st | w1c | wo | snap
  deriving DecidableEq, Repr

/-- One named field of a register: its bit address, width, reset value and access code. -/
structure Fld where
  key : Nat
  width : Nat
  rst : Nat
  acc : Acc
  deriving DecidableEq, Repr

/-- A field inside a register descriptor: lowest bit, width, reset value and access code. -/
structure FldD where
  lo : Nat
  width : Nat
  rst : Nat
  acc : Acc
  deriving DecidableEq, Repr

/-- One register heading: base offset, words of 32 bits, array dimensions (stride, count), whether the
heading names a latch word (R42), and the named fields.  Bits of no named field are reserved and read 0 (R4). -/
structure RegD where
  base : Nat
  words : Nat
  dims : List (Nat × Nat)
  latch : Bool
  fields : List FldD
  deriving DecidableEq, Repr

namespace Reg

/-! GLB_ID (spec/00_scope.md). -/
def GLB_ID_PART : Fld := ⟨8 * (0x0) + 16, 16, 0x4864, .ro⟩
def GLB_ID_STEP_MAJOR : Fld := ⟨8 * (0x0) + 12, 4, 0xa, .ro⟩
def GLB_ID_STEP_MINOR : Fld := ⟨8 * (0x0) + 8, 4, 1, .ro⟩

/-! GLB_LCS (spec/02_consistency_epochs_and_cinch.md). -/
def GLB_LCS_QUARANTINE : Fld := ⟨8 * (0x4) + 9, 1, 0, .ro⟩
def GLB_LCS_DEBUG : Fld := ⟨8 * (0x4) + 8, 1, 0, .ro⟩
def GLB_LCS_STATE : Fld := ⟨8 * (0x4) + 0, 3, 0, .ro⟩

/-! GLB_EPOCH (spec/02_consistency_epochs_and_cinch.md). -/
def GLB_EPOCH_EPOCH : Fld := ⟨8 * (0x8) + 0, 32, 0, .ro⟩

/-! GLB_EPOCH_PEND (spec/02_consistency_epochs_and_cinch.md). -/
def GLB_EPOCH_PEND_TARGET : Fld := ⟨8 * (0xc) + 0, 32, 0, .ro⟩

/-! GLB_VIEW (spec/02_consistency_epochs_and_cinch.md). -/
def GLB_VIEW_STAGED : Fld := ⟨8 * (0x10) + 0, 1, 0, .rw⟩

/-! GLB_CINCH_STAT (spec/02_consistency_epochs_and_cinch.md). -/
def GLB_CINCH_STAT_REFUSE_CLASS : Fld := ⟨8 * (0x14) + 24, 8, 0, .ro⟩
def GLB_CINCH_STAT_REFUSE_BLOCK : Fld := ⟨8 * (0x14) + 16, 8, 0, .ro⟩
def GLB_CINCH_STAT_LAST_STATUS : Fld := ⟨8 * (0x14) + 8, 8, 0, .ro⟩
def GLB_CINCH_STAT_DIVERGED : Fld := ⟨8 * (0x14) + 3, 1, 0, .ro⟩
def GLB_CINCH_STAT_SEAL_WR : Fld := ⟨8 * (0x14) + 2, 1, 0, .w1c⟩
def GLB_CINCH_STAT_BELAY_WR : Fld := ⟨8 * (0x14) + 1, 1, 0, .w1c⟩
def GLB_CINCH_STAT_PENDING : Fld := ⟨8 * (0x14) + 0, 1, 0, .ro⟩

/-! GLB_CINCH_INDEX (spec/02_consistency_epochs_and_cinch.md). -/
def GLB_CINCH_INDEX_TABLE : Fld := ⟨8 * (0x18) + 20, 8, 0, .ro⟩
def GLB_CINCH_INDEX_MEMBER : Fld := ⟨8 * (0x18) + 16, 4, 0, .ro⟩
def GLB_CINCH_INDEX_INDEX : Fld := ⟨8 * (0x18) + 0, 16, 0, .ro⟩

/-! GLB_LAST_BOUNDARY (spec/02_consistency_epochs_and_cinch.md). -/
def GLB_LAST_BOUNDARY_S : Fld := ⟨8 * (0x20) + 32, 48, 0, .snap⟩
def GLB_LAST_BOUNDARY_NS : Fld := ⟨8 * (0x20) + 0, 30, 0, .snap⟩

/-! GLB_GRACE (spec/02_consistency_epochs_and_cinch.md). -/
def GLB_GRACE_GRACE_MS : Fld := ⟨8 * (0x30) + 0, 16, 0x3e8, .rw⟩

/-! GLB_SNAP_CTL (spec/02_consistency_epochs_and_cinch.md). -/
def GLB_SNAP_CTL_MODE : Fld := ⟨8 * (0x40) + 1, 1, 0, .rw⟩
def GLB_SNAP_CTL_TAKE : Fld := ⟨8 * (0x40) + 0, 1, 0, .wo⟩

/-! GLB_SNAP_TIME (spec/02_consistency_epochs_and_cinch.md). -/
def GLB_SNAP_TIME_S : Fld := ⟨8 * (0x48) + 32, 48, 0, .ro⟩
def GLB_SNAP_TIME_NS : Fld := ⟨8 * (0x48) + 0, 30, 0, .ro⟩

/-! TB_CTL (spec/03_time_base_and_synchronisation.md). -/
def TB_CTL_PPS_OUT_MODE : Fld := ⟨8 * (0x40000) + 2, 2, 0, .st⟩
def TB_CTL_FREF : Fld := ⟨8 * (0x40000) + 1, 1, 0, .st⟩
def TB_CTL_OWNER : Fld := ⟨8 * (0x40000) + 0, 1, 0, .rw⟩

/-! TB_STAT (spec/03_time_base_and_synchronisation.md). -/
def TB_STAT_PLAUS : Fld := ⟨8 * (0x40004) + 11, 1, 0, .w1c⟩
def TB_STAT_TSQ_OVF : Fld := ⟨8 * (0x40004) + 10, 1, 0, .w1c⟩
def TB_STAT_OWNER_WR : Fld := ⟨8 * (0x40004) + 9, 1, 0, .w1c⟩
def TB_STAT_INCR_RANGE : Fld := ⟨8 * (0x40004) + 8, 1, 0, .w1c⟩
def TB_STAT_STEP_REF : Fld := ⟨8 * (0x40004) + 7, 1, 0, .w1c⟩
def TB_STAT_ACTIVE_REF : Fld := ⟨8 * (0x40004) + 4, 3, 0, .ro⟩
def TB_STAT_FREF_LOST : Fld := ⟨8 * (0x40004) + 3, 1, 0, .ro⟩
def TB_STAT_STATE : Fld := ⟨8 * (0x40004) + 0, 3, 0, .ro⟩

/-! TB_INCR (spec/03_time_base_and_synchronisation.md). -/
def TB_INCR_NS : Fld := ⟨8 * (0x40008) + 32, 8, 2, .rw⟩
def TB_INCR_FRAC : Fld := ⟨8 * (0x40008) + 0, 32, 0, .rw⟩

/-! TB_NOW (spec/03_time_base_and_synchronisation.md). -/
def TB_NOW_S : Fld := ⟨8 * (0x40010) + 32, 48, 0, .snap⟩
def TB_NOW_NS : Fld := ⟨8 * (0x40010) + 0, 30, 0, .snap⟩

/-! TB_STEP (spec/03_time_base_and_synchronisation.md). -/
def TB_STEP_DELTA_NS : Fld := ⟨8 * (0x40020) + 0, 64, 0, .wo⟩

/-! TB_UTC (spec/03_time_base_and_synchronisation.md). -/
def TB_UTC_LSO : Fld := ⟨8 * (0x40028) + 18, 1, 0, .ro⟩
def TB_UTC_LEAP_PEND : Fld := ⟨8 * (0x40028) + 16, 2, 0, .rw⟩
def TB_UTC_OFFSET : Fld := ⟨8 * (0x40028) + 0, 16, 0, .rw⟩

/-! TB_ERR (spec/03_time_base_and_synchronisation.md). -/
def TB_ERR_ERR_NS : Fld := ⟨8 * (0x4002c) + 0, 32, 0xffffffff, .rw⟩

/-! TB_TQ (spec/03_time_base_and_synchronisation.md). -/
def TB_TQ_UNLOCK_S : Fld := ⟨8 * (0x40030) + 8, 24, 0xffffff, .ro⟩
def TB_TQ_CODE : Fld := ⟨8 * (0x40030) + 0, 4, 0xf, .ro⟩

/-! TB_REF (spec/03_time_base_and_synchronisation.md). -/
def TB_REF_HOLD_PPB : Fld := ⟨8 * (0x40034) + 16, 16, 0x3e8, .st⟩
def TB_REF_SEC : Fld := ⟨8 * (0x40034) + 3, 3, 0, .st⟩
def TB_REF_PRI : Fld := ⟨8 * (0x40034) + 0, 3, 0, .st⟩

/-! TB_PTP_CFG (spec/03_time_base_and_synchronisation.md). -/
def TB_PTP_CFG_OWN_INACC_NS : Fld := ⟨8 * (0x40038) + 24, 8, 0x32, .st⟩
def TB_PTP_CFG_PROFILE : Fld := ⟨8 * (0x40038) + 16, 2, 0, .st⟩
def TB_PTP_CFG_LOG_SYNC : Fld := ⟨8 * (0x40038) + 12, 4, 0, .st⟩
def TB_PTP_CFG_LOG_PDELAY : Fld := ⟨8 * (0x40038) + 8, 4, 0, .st⟩
def TB_PTP_CFG_DOMAIN : Fld := ⟨8 * (0x40038) + 0, 8, 0, .st⟩

/-! TB_IRIG (spec/03_time_base_and_synchronisation.md). -/
def TB_IRIG_IEEE1344 : Fld := ⟨8 * (0x4003c) + 0, 1, 1, .st⟩

/-! TB_PPS_OUT (spec/03_time_base_and_synchronisation.md). -/
def TB_PPS_OUT_WIDTH_US : Fld := ⟨8 * (0x40040) + 0, 20, 0x186a0, .st⟩

/-! TB_PPS_TS (spec/03_time_base_and_synchronisation.md). -/
def TB_PPS_TS_S : Fld := ⟨8 * (0x40048) + 32, 48, 0, .snap⟩
def TB_PPS_TS_NS : Fld := ⟨8 * (0x40048) + 0, 30, 0, .snap⟩

/-! TB_ALM[k] (spec/03_time_base_and_synchronisation.md). -/
def TB_ALM_PERIOD_NS (n : Nat) : Fld := ⟨8 * (0x40060 + 0x10 * n) + 96, 32, 0, .rw⟩
def TB_ALM_LATE (n : Nat) : Fld := ⟨8 * (0x40060 + 0x10 * n) + 81, 1, 0, .w1c⟩
def TB_ALM_EN (n : Nat) : Fld := ⟨8 * (0x40060 + 0x10 * n) + 80, 1, 0, .rw⟩
def TB_ALM_S (n : Nat) : Fld := ⟨8 * (0x40060 + 0x10 * n) + 32, 48, 0, .rw⟩
def TB_ALM_NS (n : Nat) : Fld := ⟨8 * (0x40060 + 0x10 * n) + 0, 30, 0, .rw⟩

/-! TB_PTP_PORT[n] (spec/03_time_base_and_synchronisation.md). -/
def TB_PTP_PORT_ASYM_NS (n : Nat) : Fld := ⟨8 * (0x40100 + 0x4 * n) + 16, 16, 0, .st⟩
def TB_PTP_PORT_TWO_STEP (n : Nat) : Fld := ⟨8 * (0x40100 + 0x4 * n) + 2, 1, 0, .st⟩
def TB_PTP_PORT_ROLE (n : Nat) : Fld := ⟨8 * (0x40100 + 0x4 * n) + 0, 2, 0, .st⟩

/-! TB_TSQ_LOST[n] (spec/03_time_base_and_synchronisation.md). -/
def TB_TSQ_LOST_COUNT (n : Nat) : Fld := ⟨8 * (0x40200 + 0x4 * n) + 0, 32, 0, .ro⟩

/-! PORT_CFG[n] (spec/04_ports_harnesses_and_mac.md). -/
def PORT_CFG_WAKE_TEST (n : Nat) : Fld := ⟨8 * (0x80000 + 0x1000 * n) + 31, 1, 0, .rw⟩
def PORT_CFG_MAX_FRAME (n : Nat) : Fld := ⟨8 * (0x80000 + 0x1000 * n) + 16, 14, 0x5f2, .st⟩
def PORT_CFG_HARN_ID (n : Nat) : Fld := ⟨8 * (0x80000 + 0x1000 * n) + 11, 5, 0, .st⟩
def PORT_CFG_HARN_KIND (n : Nat) : Fld := ⟨8 * (0x80000 + 0x1000 * n) + 9, 2, 0, .st⟩
def PORT_CFG_LAN_ID (n : Nat) : Fld := ⟨8 * (0x80000 + 0x1000 * n) + 8, 1, 0, .st⟩
def PORT_CFG_AN_EN (n : Nat) : Fld := ⟨8 * (0x80000 + 0x1000 * n) + 4, 1, 1, .st⟩
def PORT_CFG_MODE (n : Nat) : Fld := ⟨8 * (0x80000 + 0x1000 * n) + 0, 3, 0, .st⟩

/-! PORT_STAT[n] (spec/04_ports_harnesses_and_mac.md). -/
def PORT_STAT_SPEED (n : Nat) : Fld := ⟨8 * (0x80004 + 0x1000 * n) + 5, 3, 0, .ro⟩
def PORT_STAT_QUENCH_ALL (n : Nat) : Fld := ⟨8 * (0x80004 + 0x1000 * n) + 4, 1, 0, .ro⟩
def PORT_STAT_QUENCH_UNM (n : Nat) : Fld := ⟨8 * (0x80004 + 0x1000 * n) + 3, 1, 0, .ro⟩
def PORT_STAT_AN_DONE (n : Nat) : Fld := ⟨8 * (0x80004 + 0x1000 * n) + 2, 1, 0, .ro⟩
def PORT_STAT_PCS_LOCK (n : Nat) : Fld := ⟨8 * (0x80004 + 0x1000 * n) + 1, 1, 0, .ro⟩
def PORT_STAT_LINK (n : Nat) : Fld := ⟨8 * (0x80004 + 0x1000 * n) + 0, 1, 0, .ro⟩

/-! PORT_MAC[n] (spec/04_ports_harnesses_and_mac.md). -/
def PORT_MAC_MAC (n : Nat) : Fld := ⟨8 * (0x80008 + 0x1000 * n) + 0, 48, 0, .st⟩

/-! PORT_POL[n] (spec/04_ports_harnesses_and_mac.md). -/
def PORT_POL_BURST (n : Nat) : Fld := ⟨8 * (0x80010 + 0x1000 * n) + 24, 8, 0x40, .st⟩
def PORT_POL_RATE (n : Nat) : Fld := ⟨8 * (0x80010 + 0x1000 * n) + 0, 24, 0x2710, .st⟩

/-! PORT_RX_LIM[n] (spec/04_ports_harnesses_and_mac.md). -/
def PORT_RX_LIM_RX_LIMIT (n : Nat) : Fld := ⟨8 * (0x80014 + 0x1000 * n) + 0, 18, 0xc00, .st⟩

/-! PORT_TX_LIM[n] (spec/04_ports_harnesses_and_mac.md). -/
def PORT_TX_LIM_Q7_RES (n : Nat) : Fld := ⟨8 * (0x80018 + 0x1000 * n) + 16, 12, 0x40, .st⟩
def PORT_TX_LIM_TX_LIMIT (n : Nat) : Fld := ⟨8 * (0x80018 + 0x1000 * n) + 0, 16, 0x200, .st⟩

/-! PORT_PRP[n] (spec/04_ports_harnesses_and_mac.md). -/
def PORT_PRP_AGE_MS (n : Nat) : Fld := ⟨8 * (0x8001c + 0x1000 * n) + 0, 16, 0x190, .st⟩

/-! PORT_TS[n] (spec/04_ports_harnesses_and_mac.md). -/
def PORT_TS_TX_LAT_NS (n : Nat) : Fld := ⟨8 * (0x80020 + 0x1000 * n) + 16, 16, 0, .st⟩
def PORT_TS_RX_LAT_NS (n : Nat) : Fld := ⟨8 * (0x80020 + 0x1000 * n) + 0, 16, 0, .st⟩

/-! PORT_EVT_EN[n] (spec/04_ports_harnesses_and_mac.md). -/
def PORT_EVT_EN_EN (n : Nat) : Fld := ⟨8 * (0x80030 + 0x1000 * n) + 0, 6, 0, .rw⟩

/-! PORT_EVT[n] (spec/04_ports_harnesses_and_mac.md). -/
def PORT_EVT_WAKE (n : Nat) : Fld := ⟨8 * (0x80034 + 0x1000 * n) + 5, 1, 0, .w1c⟩
def PORT_EVT_NOCELL (n : Nat) : Fld := ⟨8 * (0x80034 + 0x1000 * n) + 4, 1, 0, .w1c⟩
def PORT_EVT_TRUNC (n : Nat) : Fld := ⟨8 * (0x80034 + 0x1000 * n) + 3, 1, 0, .w1c⟩
def PORT_EVT_PRP_EVICT (n : Nat) : Fld := ⟨8 * (0x80034 + 0x1000 * n) + 2, 1, 0, .w1c⟩
def PORT_EVT_HALF (n : Nat) : Fld := ⟨8 * (0x80034 + 0x1000 * n) + 1, 1, 0, .w1c⟩
def PORT_EVT_LINK (n : Nat) : Fld := ⟨8 * (0x80034 + 0x1000 * n) + 0, 1, 0, .w1c⟩

/-! PORT_HALF[n] (spec/04_ports_harnesses_and_mac.md). -/
def PORT_HALF_HALF (n : Nat) : Fld := ⟨8 * (0x80038 + 0x1000 * n) + 0, 29, 0, .w1c⟩

/-! PORT_CNT[n][i] (spec/04_ports_harnesses_and_mac.md). -/
def PORT_CNT_COUNT (n : Nat) (k : Nat) : Fld := ⟨8 * (0x80100 + 0x1000 * n + 0x4 * k) + 0, 32, 0, .snap⟩

/-! PORT_WAKE[n][k] (spec/04_ports_harnesses_and_mac.md). -/
def PORT_WAKE_EN (n : Nat) (k : Nat) : Fld := ⟨8 * (0x80800 + 0x1000 * n + 0x20 * k) + 159, 1, 0, .st⟩
def PORT_WAKE_CHECK (n : Nat) (k : Nat) : Fld := ⟨8 * (0x80800 + 0x1000 * n + 0x20 * k) + 128, 16, 0, .st⟩
def PORT_WAKE_MASK (n : Nat) (k : Nat) : Fld := ⟨8 * (0x80800 + 0x1000 * n + 0x20 * k) + 0, 128, 0, .st⟩

/-! ING_CTL (spec/05_stream_ingest.md). -/
def ING_CTL_FUTURE_MS : Fld := ⟨8 * (0xc0000) + 16, 16, 0x3e8, .st⟩
def ING_CTL_GRID_TOL_US : Fld := ⟨8 * (0xc0000) + 4, 12, 0x64, .st⟩
def ING_CTL_FW_STAGE : Fld := ⟨8 * (0xc0000) + 0, 1, 1, .st⟩

/-! ING_RING (spec/05_stream_ingest.md). -/
def ING_RING_CFG_RING : Fld := ⟨8 * (0xc0004) + 24, 6, 0, .st⟩
def ING_RING_UNM_RING : Fld := ⟨8 * (0xc0004) + 16, 6, 0, .st⟩
def ING_RING_HDR_RING : Fld := ⟨8 * (0xc0004) + 8, 6, 0, .st⟩
def ING_RING_HDR_EN : Fld := ⟨8 * (0xc0004) + 2, 1, 0, .st⟩
def ING_RING_UNM_EN : Fld := ⟨8 * (0xc0004) + 1, 1, 0, .st⟩
def ING_RING_CFG_EN : Fld := ⟨8 * (0xc0004) + 0, 1, 0, .st⟩

/-! ING_CMDF (spec/05_stream_ingest.md). -/
def ING_CMDF_CMD : Fld := ⟨8 * (0xc0008) + 16, 16, 0, .wo⟩
def ING_CMDF_ENTRY : Fld := ⟨8 * (0xc0008) + 0, 13, 0, .wo⟩

/-! ING_CMDF_STAT (spec/05_stream_ingest.md). -/
def ING_CMDF_STAT_BUSY : Fld := ⟨8 * (0xc000c) + 8, 1, 0, .ro⟩
def ING_CMDF_STAT_LAST_STATUS : Fld := ⟨8 * (0xc000c) + 0, 8, 0, .ro⟩

/-! ING_CFG_STAT (spec/05_stream_ingest.md). -/
def ING_CFG_STAT_ENTRY : Fld := ⟨8 * (0xc0010) + 16, 13, 0, .ro⟩
def ING_CFG_STAT_RESULT : Fld := ⟨8 * (0xc0010) + 0, 8, 0, .ro⟩

/-! ING_LIP4[n] (spec/05_stream_ingest.md). -/
def ING_LIP4_ADDR (n : Nat) : Fld := ⟨8 * (0xc0200 + 0x4 * n) + 0, 32, 0, .st⟩

/-! ING_LIP6[n] (spec/05_stream_ingest.md). -/
def ING_LIP6_ADDR (n : Nat) : Fld := ⟨8 * (0xc0400 + 0x10 * n) + 0, 128, 0, .st⟩

/-! ING_WIN_SEL (spec/05_stream_ingest.md). -/
def ING_WIN_SEL_AREA : Fld := ⟨8 * (0xc0020) + 16, 1, 0, .rw⟩
def ING_WIN_SEL_ENTRY : Fld := ⟨8 * (0xc0020) + 0, 13, 0, .rw⟩

/-! ING_WIN_DATA[w] (spec/05_stream_ingest.md). -/
def ING_WIN_DATA_DATA (n : Nat) : Fld := ⟨8 * (0xc0100 + 0x4 * n) + 0, 32, 0, .ro⟩

/-! ING_EVT (spec/05_stream_ingest.md). -/
def ING_EVT_CAUSE : Fld := ⟨8 * (0xc0030) + 0, 10, 0, .w1c⟩

/-! ING_EVT_ENTRY[k] (spec/05_stream_ingest.md). -/
def ING_EVT_ENTRY_ENTRY (n : Nat) : Fld := ⟨8 * (0xc0040 + 0x4 * n) + 0, 13, 0, .ro⟩

/-! ING_HALF (spec/05_stream_ingest.md). -/
def ING_HALF_HALF : Fld := ⟨8 * (0xc0070) + 0, 18, 0, .w1c⟩

/-! ING_CNT[i] (spec/05_stream_ingest.md). -/
def ING_CNT_COUNT (n : Nat) : Fld := ⟨8 * (0xc0080 + 0x4 * n) + 0, 32, 0, .snap⟩

/-! PHE_CTL (spec/06_phasor_estimation.md). -/
def PHE_CTL_WAIT_US : Fld := ⟨8 * (0x100000) + 16, 16, 0x7d0, .st⟩
def PHE_CTL_DUAL : Fld := ⟨8 * (0x100000) + 8, 1, 1, .st⟩
def PHE_CTL_NCLU : Fld := ⟨8 * (0x100000) + 0, 3, 0, .st⟩

/-! PHE_STAT (spec/06_phasor_estimation.md). -/
def PHE_STAT_EMITTING : Fld := ⟨8 * (0x100004) + 16, 11, 0, .ro⟩
def PHE_STAT_ENABLED : Fld := ⟨8 * (0x100004) + 0, 11, 0, .ro⟩

/-! PHE_LOAD (spec/06_phasor_estimation.md). -/
def PHE_LOAD_CAPACITY : Fld := ⟨8 * (0x100008) + 16, 16, 0, .ro⟩
def PHE_LOAD_LOAD : Fld := ⟨8 * (0x100008) + 0, 16, 0, .ro⟩

/-! PHE_WIN_SEL (spec/06_phasor_estimation.md). -/
def PHE_WIN_SEL_AREA : Fld := ⟨8 * (0x10000c) + 16, 1, 0, .rw⟩
def PHE_WIN_SEL_CHAN : Fld := ⟨8 * (0x10000c) + 0, 10, 0, .rw⟩

/-! PHE_EVT (spec/06_phasor_estimation.md). -/
def PHE_EVT_CAUSE : Fld := ⟨8 * (0x100010) + 0, 4, 0, .w1c⟩

/-! PHE_EVT_CHAN[k] (spec/06_phasor_estimation.md). -/
def PHE_EVT_CHAN_CHAN (n : Nat) : Fld := ⟨8 * (0x100020 + 0x4 * n) + 0, 10, 0, .ro⟩

/-! PHE_HALF (spec/06_phasor_estimation.md). -/
def PHE_HALF_HALF : Fld := ⟨8 * (0x100030) + 0, 7, 0, .w1c⟩

/-! PHE_CNT[i] (spec/06_phasor_estimation.md). -/
def PHE_CNT_COUNT (n : Nat) : Fld := ⟨8 * (0x100040 + 0x4 * n) + 0, 32, 0, .snap⟩

/-! PHE_WIN_DATA[w] (spec/06_phasor_estimation.md). -/
def PHE_WIN_DATA_DATA (n : Nat) : Fld := ⟨8 * (0x100100 + 0x4 * n) + 0, 32, 0, .ro⟩

/-! STCH_CTL (spec/07_stitcher_alignment.md). -/
def STCH_CTL_EN : Fld := ⟨8 * (0x110000) + 31, 1, 0, .st⟩
def STCH_CTL_RATE : Fld := ⟨8 * (0x110000) + 27, 4, 0, .st⟩
def STCH_CTL_HORIZON_MS : Fld := ⟨8 * (0x110000) + 12, 15, 0x7d0, .st⟩

/-! STCH_CTL2 (spec/07_stitcher_alignment.md). -/
def STCH_CTL2_MAT_MIN : Fld := ⟨8 * (0x110004) + 24, 8, 0, .st⟩
def STCH_CTL2_REV_GATHER_US : Fld := ⟨8 * (0x110004) + 0, 17, 0x1f4, .st⟩

/-! STCH_STORE (spec/07_stitcher_alignment.md). -/
def STCH_STORE_SIZE_64M : Fld := ⟨8 * (0x110008) + 0, 9, 0xa0, .st⟩

/-! STCH_CLASS[k] (spec/07_stitcher_alignment.md). -/
def STCH_CLASS_ABSENT_N (n : Nat) : Fld := ⟨8 * (0x110010 + 0x4 * n) + 24, 8, 0, .st⟩
def STCH_CLASS_MAT (n : Nat) : Fld := ⟨8 * (0x110010 + 0x4 * n) + 23, 1, 1, .st⟩
def STCH_CLASS_WAIT_US (n : Nat) : Fld := ⟨8 * (0x110010 + 0x4 * n) + 0, 21, 0x61a8, .st⟩

/-! STCH_STAT (spec/07_stitcher_alignment.md). -/
def STCH_STAT_PRODUCING : Fld := ⟨8 * (0x110030) + 31, 1, 0, .ro⟩
def STCH_STAT_ENABLED : Fld := ⟨8 * (0x110030) + 0, 14, 0, .ro⟩

/-! STCH_STORE_STAT (spec/07_stitcher_alignment.md). -/
def STCH_STORE_STAT_DEPTH_MS : Fld := ⟨8 * (0x110034) + 0, 32, 0, .ro⟩

/-! STCH_LAST_REL (spec/07_stitcher_alignment.md). -/
def STCH_LAST_REL_S : Fld := ⟨8 * (0x110040) + 32, 48, 0, .snap⟩
def STCH_LAST_REL_NS : Fld := ⟨8 * (0x110040) + 0, 30, 0, .snap⟩

/-! STCH_EVT (spec/07_stitcher_alignment.md). -/
def STCH_EVT_CAUSE : Fld := ⟨8 * (0x110050) + 0, 10, 0, .w1c⟩

/-! STCH_HALF (spec/07_stitcher_alignment.md). -/
def STCH_HALF_HALF : Fld := ⟨8 * (0x110054) + 0, 13, 0, .w1c⟩

/-! STCH_STREAM_SEL (spec/07_stitcher_alignment.md). -/
def STCH_STREAM_SEL_ENTRY : Fld := ⟨8 * (0x110058) + 0, 13, 0, .rw⟩

/-! STCH_STREAM_STAT (spec/07_stitcher_alignment.md). -/
def STCH_STREAM_STAT_EXCLUDED : Fld := ⟨8 * (0x11005c) + 31, 1, 0, .ro⟩
def STCH_STREAM_STAT_TREAT : Fld := ⟨8 * (0x11005c) + 29, 2, 0, .ro⟩
def STCH_STREAM_STAT_ENABLED : Fld := ⟨8 * (0x11005c) + 28, 1, 0, .ro⟩
def STCH_STREAM_STAT_OFFSET : Fld := ⟨8 * (0x11005c) + 0, 22, 0, .ro⟩

/-! STCH_STREAM_ABS (spec/07_stitcher_alignment.md). -/
def STCH_STREAM_ABS_ABSENT : Fld := ⟨8 * (0x110060) + 0, 16, 0, .ro⟩

/-! STCH_EVT_ENTRY[k] (spec/07_stitcher_alignment.md). -/
def STCH_EVT_ENTRY_ENTRY (n : Nat) : Fld := ⟨8 * (0x110064 + 0x4 * n) + 0, 13, 0, .ro⟩

/-! STCH_CNT[i] (spec/07_stitcher_alignment.md). -/
def STCH_CNT_COUNT (n : Nat) : Fld := ⟨8 * (0x110100 + 0x4 * n) + 0, 32, 0, .snap⟩

/-! LSE_CTL (spec/08_topology_and_state_estimation.md). -/
def LSE_CTL_EN : Fld := ⟨8 * (0x120000) + 31, 1, 0, .st⟩
def LSE_CTL_BR_OUT : Fld := ⟨8 * (0x120000) + 30, 1, 0, .st⟩
def LSE_CTL_USE_TEST : Fld := ⟨8 * (0x120000) + 29, 1, 0, .st⟩
def LSE_CTL_BD_EN : Fld := ⟨8 * (0x120000) + 28, 1, 1, .st⟩
def LSE_CTL_BD_MAX : Fld := ⟨8 * (0x120000) + 16, 5, 4, .st⟩
def LSE_CTL_MISS_LR : Fld := ⟨8 * (0x120000) + 8, 6, 0x20, .st⟩

/-! LSE_CTL2 (spec/08_topology_and_state_estimation.md). -/
def LSE_CTL2_PERSIST_N : Fld := ⟨8 * (0x120004) + 16, 16, 0x78, .st⟩
def LSE_CTL2_BD_THRESH : Fld := ⟨8 * (0x120004) + 0, 16, 0x190, .st⟩

/-! LSE_STAT (spec/08_topology_and_state_estimation.md). -/
def LSE_STAT_REFACTOR_BUSY : Fld := ⟨8 * (0x120008) + 31, 1, 0, .ro⟩
def LSE_STAT_PENDING : Fld := ⟨8 * (0x120008) + 30, 1, 0, .ro⟩
def LSE_STAT_FACTORS : Fld := ⟨8 * (0x120008) + 28, 2, 0, .ro⟩
def LSE_STAT_NBUS : Fld := ⟨8 * (0x120008) + 14, 14, 0, .ro⟩
def LSE_STAT_NUNOBS : Fld := ⟨8 * (0x120008) + 0, 14, 0, .ro⟩

/-! LSE_TOPO (spec/08_topology_and_state_estimation.md). -/
def LSE_TOPO_NISL : Fld := ⟨8 * (0x12000c) + 18, 14, 0, .ro⟩
def LSE_TOPO_NUNC : Fld := ⟨8 * (0x12000c) + 0, 17, 0, .ro⟩

/-! LSE_FACTOR (spec/08_topology_and_state_estimation.md). -/
def LSE_FACTOR_FACTOR_ID : Fld := ⟨8 * (0x120010) + 0, 32, 0, .ro⟩

/-! LSE_FACTOR_BYTES (spec/08_topology_and_state_estimation.md). -/
def LSE_FACTOR_BYTES_BYTES : Fld := ⟨8 * (0x120014) + 0, 32, 0, .ro⟩

/-! LSE_LAST_REFAC (spec/08_topology_and_state_estimation.md). -/
def LSE_LAST_REFAC_DURATION_US : Fld := ⟨8 * (0x120018) + 0, 32, 0, .ro⟩

/-! LSE_SW_SEL (spec/08_topology_and_state_estimation.md). -/
def LSE_SW_SEL_SW : Fld := ⟨8 * (0x120020) + 0, 16, 0, .rw⟩

/-! LSE_SW_STAT (spec/08_topology_and_state_estimation.md). -/
def LSE_SW_STAT_UNCERTAIN : Fld := ⟨8 * (0x120024) + 31, 1, 0, .ro⟩
def LSE_SW_STAT_CLOSED : Fld := ⟨8 * (0x120024) + 30, 1, 0, .ro⟩
def LSE_SW_STAT_UNC_SLICES : Fld := ⟨8 * (0x120024) + 0, 16, 0, .ro⟩

/-! LSE_EVT (spec/08_topology_and_state_estimation.md). -/
def LSE_EVT_CAUSE : Fld := ⟨8 * (0x120030) + 0, 8, 0, .w1c⟩

/-! LSE_EVT_IDX[k] (spec/08_topology_and_state_estimation.md). -/
def LSE_EVT_IDX_INDEX (n : Nat) : Fld := ⟨8 * (0x120040 + 0x4 * n) + 0, 16, 0, .ro⟩

/-! LSE_HALF (spec/08_topology_and_state_estimation.md). -/
def LSE_HALF_HALF : Fld := ⟨8 * (0x120060) + 0, 10, 0, .w1c⟩

/-! LSE_CNT[i] (spec/08_topology_and_state_estimation.md). -/
def LSE_CNT_COUNT (n : Nat) : Fld := ⟨8 * (0x120080 + 0x4 * n) + 0, 32, 0, .snap⟩

/-! OSC_CTL (spec/09_mode_tracking.md). -/
def OSC_CTL_EN : Fld := ⟨8 * (0x130000) + 31, 1, 0, .st⟩
def OSC_CTL_MISS_RUN : Fld := ⟨8 * (0x130000) + 0, 16, 0x18, .st⟩

/-! OSC_STAT (spec/09_mode_tracking.md). -/
def OSC_STAT_WARMUP : Fld := ⟨8 * (0x130004) + 16, 16, 0, .ro⟩
def OSC_STAT_RUNNING : Fld := ⟨8 * (0x130004) + 0, 16, 0, .ro⟩

/-! OSC_FO (spec/09_mode_tracking.md). -/
def OSC_FO_ACTIVE : Fld := ⟨8 * (0x130008) + 0, 16, 0, .ro⟩

/-! OSC_ALM (spec/09_mode_tracking.md). -/
def OSC_ALM_ACTIVE : Fld := ⟨8 * (0x130010) + 0, 64, 0, .ro⟩

/-! OSC_EVT (spec/09_mode_tracking.md). -/
def OSC_EVT_CAUSE : Fld := ⟨8 * (0x130020) + 0, 8, 0, .w1c⟩

/-! OSC_EVT_IDX[k] (spec/09_mode_tracking.md). -/
def OSC_EVT_IDX_SET (n : Nat) : Fld := ⟨8 * (0x130030 + 0x4 * n) + 16, 4, 0, .ro⟩
def OSC_EVT_IDX_INDEX (n : Nat) : Fld := ⟨8 * (0x130030 + 0x4 * n) + 0, 16, 0, .ro⟩

/-! OSC_HALF (spec/09_mode_tracking.md). -/
def OSC_HALF_HALF : Fld := ⟨8 * (0x130060) + 0, 8, 0, .w1c⟩

/-! OSC_CNT[i] (spec/09_mode_tracking.md). -/
def OSC_CNT_COUNT (n : Nat) : Fld := ⟨8 * (0x130080 + 0x4 * n) + 0, 32, 0, .snap⟩

/-! OSC_SET_A[s] (spec/09_mode_tracking.md). -/
def OSC_SET_A_EN (n : Nat) : Fld := ⟨8 * (0x130100 + 0x10 * n) + 31, 1, 0, .st⟩
def OSC_SET_A_SHAPE_EN (n : Nat) : Fld := ⟨8 * (0x130100 + 0x10 * n) + 30, 1, 0, .st⟩
def OSC_SET_A_BAND (n : Nat) : Fld := ⟨8 * (0x130100 + 0x10 * n) + 28, 2, 1, .st⟩
def OSC_SET_A_NMODE (n : Nat) : Fld := ⟨8 * (0x130100 + 0x10 * n) + 16, 5, 8, .st⟩
def OSC_SET_A_ORDER_I (n : Nat) : Fld := ⟨8 * (0x130100 + 0x10 * n) + 0, 7, 0x10, .st⟩

/-! OSC_SET_B[s] (spec/09_mode_tracking.md). -/
def OSC_SET_B_WIN_S (n : Nat) : Fld := ⟨8 * (0x130104 + 0x10 * n) + 16, 16, 0x258, .st⟩
def OSC_SET_B_FO_WIN_S (n : Nat) : Fld := ⟨8 * (0x130104 + 0x10 * n) + 0, 16, 0x3c, .st⟩

/-! OSC_SET_C[s] (spec/09_mode_tracking.md). -/
def OSC_SET_C_FO_RATIO_DB (n : Nat) : Fld := ⟨8 * (0x130108 + 0x10 * n) + 24, 8, 0xf, .st⟩
def OSC_SET_C_FO_MIN (n : Nat) : Fld := ⟨8 * (0x130108 + 0x10 * n) + 16, 8, 4, .st⟩
def OSC_SET_C_FO_N (n : Nat) : Fld := ⟨8 * (0x130108 + 0x10 * n) + 8, 8, 3, .st⟩
def OSC_SET_C_DEF_WIN_S (n : Nat) : Fld := ⟨8 * (0x130108 + 0x10 * n) + 0, 8, 8, .st⟩

/-! OSC_SET_STAT[s] (spec/09_mode_tracking.md). -/
def OSC_SET_STAT_NMODE_REP (n : Nat) : Fld := ⟨8 * (0x13010c + 0x10 * n) + 24, 8, 0, .ro⟩
def OSC_SET_STAT_NFO (n : Nat) : Fld := ⟨8 * (0x13010c + 0x10 * n) + 21, 3, 0, .ro⟩
def OSC_SET_STAT_WARMUP (n : Nat) : Fld := ⟨8 * (0x13010c + 0x10 * n) + 20, 1, 0, .ro⟩
def OSC_SET_STAT_NO_REF (n : Nat) : Fld := ⟨8 * (0x13010c + 0x10 * n) + 19, 1, 0, .ro⟩
def OSC_SET_STAT_NLIVE (n : Nat) : Fld := ⟨8 * (0x13010c + 0x10 * n) + 10, 9, 0, .ro⟩

/-! ISL_CTL (spec/10_islanding_and_alarms.md). -/
def ISL_CTL_EN : Fld := ⟨8 * (0x140000) + 31, 1, 0, .st⟩
def ISL_CTL_TOPO_EN : Fld := ⟨8 * (0x140000) + 30, 1, 0, .st⟩
def ISL_CTL_COH_EN : Fld := ⟨8 * (0x140000) + 29, 1, 0, .st⟩
def ISL_CTL_USE_TEST : Fld := ⟨8 * (0x140000) + 28, 1, 0, .st⟩
def ISL_CTL_TAL_MARGIN_MS : Fld := ⟨8 * (0x140000) + 0, 8, 2, .st⟩

/-! ISL_TOPO (spec/10_islanding_and_alarms.md). -/
def ISL_TOPO_MIN_NODES : Fld := ⟨8 * (0x140004) + 16, 16, 1, .st⟩
def ISL_TOPO_MAIN_NODE : Fld := ⟨8 * (0x140004) + 0, 14, 0, .st⟩

/-! ISL_COH_A (spec/10_islanding_and_alarms.md). -/
def ISL_COH_A_CLU_WIN : Fld := ⟨8 * (0x140008) + 21, 11, 0x3c, .st⟩
def ISL_COH_A_REF_SIG : Fld := ⟨8 * (0x140008) + 11, 10, 0, .st⟩
def ISL_COH_A_MIN_SIG : Fld := ⟨8 * (0x140008) + 1, 10, 3, .st⟩

/-! ISL_COH_B (spec/10_islanding_and_alarms.md). -/
def ISL_COH_B_DF_COH : Fld := ⟨8 * (0x14000c) + 16, 16, 0xc8, .st⟩
def ISL_COH_B_DF_ISL : Fld := ⟨8 * (0x14000c) + 0, 16, 0x3e8, .st⟩

/-! ISL_COH_C (spec/10_islanding_and_alarms.md). -/
def ISL_COH_C_DRIFT_ISL : Fld := ⟨8 * (0x140010) + 16, 16, 0x7d0, .st⟩
def ISL_COH_C_N_ISL : Fld := ⟨8 * (0x140010) + 8, 8, 6, .st⟩

/-! ISL_STAT (spec/10_islanding_and_alarms.md). -/
def ISL_STAT_NTOPO : Fld := ⟨8 * (0x140014) + 24, 8, 0, .ro⟩
def ISL_STAT_NCOH : Fld := ⟨8 * (0x140014) + 16, 8, 0, .ro⟩
def ISL_STAT_NCONF : Fld := ⟨8 * (0x140014) + 8, 8, 0, .ro⟩
def ISL_STAT_NGROUP : Fld := ⟨8 * (0x140014) + 0, 8, 0, .ro⟩

/-! ISL_PIN_STAT (spec/10_islanding_and_alarms.md). -/
def ISL_PIN_STAT_ALARM : Fld := ⟨8 * (0x140018) + 16, 16, 0, .ro⟩
def ISL_PIN_STAT_DRIVE : Fld := ⟨8 * (0x140018) + 0, 16, 0, .ro⟩

/-! ISL_EVT (spec/10_islanding_and_alarms.md). -/
def ISL_EVT_CAUSE : Fld := ⟨8 * (0x14001c) + 0, 12, 0, .w1c⟩

/-! ISL_COH_D (spec/10_islanding_and_alarms.md). -/
def ISL_COH_D_CONF_WIN : Fld := ⟨8 * (0x140020) + 0, 16, 0x78, .st⟩

/-! ISL_OUT_STATE[w] (spec/10_islanding_and_alarms.md). -/
def ISL_OUT_STATE_ASSERTED (n : Nat) : Fld := ⟨8 * (0x140040 + 0x4 * n) + 0, 32, 0, .ro⟩

/-! ISL_EVT_IDX[k] (spec/10_islanding_and_alarms.md). -/
def ISL_EVT_IDX_INDEX (n : Nat) : Fld := ⟨8 * (0x140060 + 0x4 * n) + 0, 16, 0, .ro⟩

/-! ISL_HALF (spec/10_islanding_and_alarms.md). -/
def ISL_HALF_HALF : Fld := ⟨8 * (0x140090) + 0, 11, 0, .w1c⟩

/-! ISL_CNT[i] (spec/10_islanding_and_alarms.md). -/
def ISL_CNT_COUNT (n : Nat) : Fld := ⟨8 * (0x1400a0 + 0x4 * n) + 0, 32, 0, .snap⟩

/-! ISL_PIN[j] (spec/10_islanding_and_alarms.md). -/
def ISL_PIN_EN (n : Nat) : Fld := ⟨8 * (0x140100 + 0x4 * n) + 31, 1, 0, .st⟩
def ISL_PIN_SAFETY (n : Nat) : Fld := ⟨8 * (0x140100 + 0x4 * n) + 30, 1, 0, .st⟩

/-! ISL_PUB_STAT[p] (spec/10_islanding_and_alarms.md). -/
def ISL_PUB_STAT_STNUM (n : Nat) : Fld := ⟨8 * (0x140140 + 0x4 * n) + 0, 32, 0, .ro⟩

/-! ISL_OUT[o] (spec/10_islanding_and_alarms.md). -/
def ISL_OUT_EN (n : Nat) : Fld := ⟨8 * (0x140400 + 0x4 * n) + 31, 1, 0, .st⟩
def ISL_OUT_SAFETY (n : Nat) : Fld := ⟨8 * (0x140400 + 0x4 * n) + 30, 1, 0, .st⟩
def ISL_OUT_PIN_EN (n : Nat) : Fld := ⟨8 * (0x140400 + 0x4 * n) + 29, 1, 0, .st⟩
def ISL_OUT_PIN (n : Nat) : Fld := ⟨8 * (0x140400 + 0x4 * n) + 16, 4, 0, .st⟩

/-! CAP_CTL (spec/11_capture_and_triggers.md). -/
def CAP_CTL_RES_MBS : Fld := ⟨8 * (0x150000) + 0, 16, 0, .st⟩

/-! CAP_X (spec/11_capture_and_triggers.md). -/
def CAP_X_XARM_MASTER : Fld := ⟨8 * (0x150004) + 31, 1, 0, .st⟩
def CAP_X_XARM_LEVEL : Fld := ⟨8 * (0x150004) + 30, 1, 0, .rw⟩
def CAP_X_XARM_IN : Fld := ⟨8 * (0x150004) + 29, 1, 0, .ro⟩
def CAP_X_XFIRE_IN : Fld := ⟨8 * (0x150004) + 28, 1, 0, .ro⟩
def CAP_X_XFIRE_DLY_NS : Fld := ⟨8 * (0x150004) + 0, 16, 0, .st⟩

/-! CAP_STAT (spec/11_capture_and_triggers.md). -/
def CAP_STAT_STATE : Fld := ⟨8 * (0x150008) + 0, 24, 0, .ro⟩

/-! CAP_RES_STAT (spec/11_capture_and_triggers.md). -/
def CAP_RES_STAT_USED_MBS : Fld := ⟨8 * (0x15000c) + 0, 16, 0, .ro⟩

/-! CAP_TIN[n] (spec/11_capture_and_triggers.md). -/
def CAP_TIN_EDGE (n : Nat) : Fld := ⟨8 * (0x150010 + 0x4 * n) + 30, 2, 0, .st⟩
def CAP_TIN_MIN_NS (n : Nat) : Fld := ⟨8 * (0x150010 + 0x4 * n) + 20, 10, 0, .st⟩
def CAP_TIN_CAL_NS (n : Nat) : Fld := ⟨8 * (0x150010 + 0x4 * n) + 0, 16, 0, .st⟩

/-! CAP_TIN_TS[n] (spec/11_capture_and_triggers.md). -/
def CAP_TIN_TS_S (n : Nat) : Fld := ⟨8 * (0x150040 + 0x10 * n) + 32, 48, 0, .snap⟩
def CAP_TIN_TS_NS (n : Nat) : Fld := ⟨8 * (0x150040 + 0x10 * n) + 0, 30, 0, .snap⟩

/-! CAP_TOUT[k] (spec/11_capture_and_triggers.md). -/
def CAP_TOUT_SRC (n : Nat) : Fld := ⟨8 * (0x1500c0 + 0x4 * n) + 30, 2, 0, .st⟩
def CAP_TOUT_CH (n : Nat) : Fld := ⟨8 * (0x1500c0 + 0x4 * n) + 27, 3, 0, .st⟩
def CAP_TOUT_WIDTH_US (n : Nat) : Fld := ⟨8 * (0x1500c0 + 0x4 * n) + 0, 20, 0xa, .st⟩

/-! CAP_CAL (spec/11_capture_and_triggers.md). -/
def CAP_CAL_START : Fld := ⟨8 * (0x1500d0) + 31, 1, 0, .wo⟩
def CAP_CAL_BUSY : Fld := ⟨8 * (0x1500d0) + 30, 1, 0, .ro⟩
def CAP_CAL_OUT : Fld := ⟨8 * (0x1500d0) + 24, 2, 0, .rw⟩
def CAP_CAL_IN_MASK : Fld := ⟨8 * (0x1500d0) + 16, 8, 0, .rw⟩

/-! CAP_CAL_RES[n] (spec/11_capture_and_triggers.md). -/
def CAP_CAL_RES_VALID (n : Nat) : Fld := ⟨8 * (0x1500e0 + 0x4 * n) + 31, 1, 0, .ro⟩
def CAP_CAL_RES_DELAY (n : Nat) : Fld := ⟨8 * (0x1500e0 + 0x4 * n) + 0, 24, 0, .ro⟩

/-! CAP_CH_STAT[c] (spec/11_capture_and_triggers.md). -/
def CAP_CH_STAT_FREE_MIB (n : Nat) : Fld := ⟨8 * (0x150100 + 0x10 * n) + 16, 16, 0, .ro⟩
def CAP_CH_STAT_PENDING (n : Nat) : Fld := ⟨8 * (0x150100 + 0x10 * n) + 8, 8, 0, .ro⟩

/-! CAP_CH_SEQ[c] (spec/11_capture_and_triggers.md). -/
def CAP_CH_SEQ_SEQ (n : Nat) : Fld := ⟨8 * (0x150104 + 0x10 * n) + 0, 32, 0, .ro⟩

/-! CAP_CH_MISS[c] (spec/11_capture_and_triggers.md). -/
def CAP_CH_MISS_MISSED (n : Nat) : Fld := ⟨8 * (0x150108 + 0x10 * n) + 0, 32, 0, .ro⟩

/-! CAP_EVT (spec/11_capture_and_triggers.md). -/
def CAP_EVT_CAUSE : Fld := ⟨8 * (0x150200) + 0, 11, 0, .w1c⟩

/-! CAP_EVT_CH[k] (spec/11_capture_and_triggers.md). -/
def CAP_EVT_CH_CH (n : Nat) : Fld := ⟨8 * (0x150210 + 0x4 * n) + 0, 3, 0, .ro⟩

/-! CAP_HALF (spec/11_capture_and_triggers.md). -/
def CAP_HALF_HALF : Fld := ⟨8 * (0x150240) + 0, 8, 0, .w1c⟩

/-! CAP_CNT[i] (spec/11_capture_and_triggers.md). -/
def CAP_CNT_COUNT (n : Nat) : Fld := ⟨8 * (0x150280 + 0x4 * n) + 0, 32, 0, .snap⟩

/-! PUB_CTL (spec/12_publication.md). -/
def PUB_CTL_CFGCHG_S : Fld := ⟨8 * (0x160000) + 8, 8, 0x3c, .st⟩
def PUB_CTL_BACKLOG : Fld := ⟨8 * (0x160000) + 0, 8, 0x10, .st⟩

/-! PUB_KIND[k] (spec/12_publication.md). -/
def PUB_KIND_EN (n : Nat) : Fld := ⟨8 * (0x160010 + 0x4 * n) + 31, 1, 0, .st⟩
def PUB_KIND_REV_MODE (n : Nat) : Fld := ⟨8 * (0x160010 + 0x4 * n) + 29, 2, 0, .st⟩
def PUB_KIND_RING (n : Nat) : Fld := ⟨8 * (0x160010 + 0x4 * n) + 16, 6, 0, .st⟩
def PUB_KIND_EVERY_N (n : Nat) : Fld := ⟨8 * (0x160010 + 0x4 * n) + 0, 16, 1, .st⟩

/-! PUB_OUT_ON (spec/12_publication.md). -/
def PUB_OUT_ON_ON : Fld := ⟨8 * (0x160030) + 0, 64, 0, .ro⟩

/-! PUB_HALF (spec/12_publication.md). -/
def PUB_HALF_HALF : Fld := ⟨8 * (0x160070) + 0, 6, 0, .w1c⟩

/-! PUB_CNT[i] (spec/12_publication.md). -/
def PUB_CNT_COUNT (n : Nat) : Fld := ⟨8 * (0x160080 + 0x4 * n) + 0, 32, 0, .snap⟩

/-! FSL_CTL[i] (spec/13_field_sensor_link.md). -/
def FSL_CTL_EN (n : Nat) : Fld := ⟨8 * (0x170000 + 0x100 * n) + 31, 1, 0, .st⟩
def FSL_CTL_PHY (n : Nat) : Fld := ⟨8 * (0x170000 + 0x100 * n) + 29, 2, 0, .st⟩
def FSL_CTL_CHANNEL (n : Nat) : Fld := ⟨8 * (0x170000 + 0x100 * n) + 16, 8, 0xb, .st⟩
def FSL_CTL_TX_PWR (n : Nat) : Fld := ⟨8 * (0x170000 + 0x100 * n) + 8, 8, 0, .st⟩
def FSL_CTL_FINAL_CAP (n : Nat) : Fld := ⟨8 * (0x170000 + 0x100 * n) + 4, 4, 8, .st⟩
def FSL_CTL_BO (n : Nat) : Fld := ⟨8 * (0x170000 + 0x100 * n) + 0, 4, 6, .st⟩

/-! FSL_ADDR[i] (spec/13_field_sensor_link.md). -/
def FSL_ADDR_PAN_ID (n : Nat) : Fld := ⟨8 * (0x170004 + 0x100 * n) + 16, 16, 0, .st⟩
def FSL_ADDR_SHORT (n : Nat) : Fld := ⟨8 * (0x170004 + 0x100 * n) + 0, 16, 0, .st⟩

/-! FSL_EXT[i] (spec/13_field_sensor_link.md). -/
def FSL_EXT_EXT (n : Nat) : Fld := ⟨8 * (0x170008 + 0x100 * n) + 0, 64, 0, .st⟩

/-! FSL_SLOT[i] (spec/13_field_sensor_link.md). -/
def FSL_SLOT_SLOT_US (n : Nat) : Fld := ⟨8 * (0x170010 + 0x100 * n) + 16, 16, 0xfa0, .st⟩
def FSL_SLOT_NSLOT (n : Nat) : Fld := ⟨8 * (0x170010 + 0x100 * n) + 0, 10, 0, .st⟩

/-! FSL_GUARD[i] (spec/13_field_sensor_link.md). -/
def FSL_GUARD_GUARD_BASE_US (n : Nat) : Fld := ⟨8 * (0x170014 + 0x100 * n) + 16, 16, 0x1f4, .st⟩
def FSL_GUARD_DRIFT_PPM (n : Nat) : Fld := ⟨8 * (0x170014 + 0x100 * n) + 8, 8, 0x28, .st⟩
def FSL_GUARD_RESYNC_N (n : Nat) : Fld := ⟨8 * (0x170014 + 0x100 * n) + 0, 8, 8, .st⟩

/-! FSL_SEC[i] (spec/13_field_sensor_link.md). -/
def FSL_SEC_KEY_IDX (n : Nat) : Fld := ⟨8 * (0x170018 + 0x100 * n) + 16, 8, 1, .st⟩
def FSL_SEC_BCN_LEVEL (n : Nat) : Fld := ⟨8 * (0x170018 + 0x100 * n) + 8, 3, 5, .st⟩
def FSL_SEC_KEY_SLOT (n : Nat) : Fld := ⟨8 * (0x170018 + 0x100 * n) + 0, 8, 0, .st⟩

/-! FSL_LAT[i] (spec/13_field_sensor_link.md). -/
def FSL_LAT_TX_LAT_NS (n : Nat) : Fld := ⟨8 * (0x17001c + 0x100 * n) + 16, 16, 0, .st⟩
def FSL_LAT_RX_LAT_NS (n : Nat) : Fld := ⟨8 * (0x17001c + 0x100 * n) + 0, 16, 0, .st⟩

/-! FSL_BASE[i] (spec/13_field_sensor_link.md). -/
def FSL_BASE_S (n : Nat) : Fld := ⟨8 * (0x170020 + 0x100 * n) + 32, 48, 0, .st⟩
def FSL_BASE_NS (n : Nat) : Fld := ⟨8 * (0x170020 + 0x100 * n) + 0, 30, 0, .st⟩

/-! FSL_STAT[i] (spec/13_field_sensor_link.md). -/
def FSL_STAT_NOKEY (n : Nat) : Fld := ⟨8 * (0x170030 + 0x100 * n) + 3, 1, 0, .ro⟩
def FSL_STAT_RESYNC (n : Nat) : Fld := ⟨8 * (0x170030 + 0x100 * n) + 2, 1, 0, .ro⟩
def FSL_STAT_BEACONING (n : Nat) : Fld := ⟨8 * (0x170030 + 0x100 * n) + 1, 1, 0, .ro⟩
def FSL_STAT_IF_UP (n : Nat) : Fld := ⟨8 * (0x170030 + 0x100 * n) + 0, 1, 0, .ro⟩

/-! FSL_SF[i] (spec/13_field_sensor_link.md). -/
def FSL_SF_SF_NUM (n : Nat) : Fld := ⟨8 * (0x170034 + 0x100 * n) + 0, 32, 0, .ro⟩

/-! FSL_EVT (spec/13_field_sensor_link.md). -/
def FSL_EVT_CAUSE : Fld := ⟨8 * (0x170400) + 0, 10, 0, .w1c⟩

/-! FSL_EVT_IDX[k] (spec/13_field_sensor_link.md). -/
def FSL_EVT_IDX_INDEX (n : Nat) : Fld := ⟨8 * (0x170410 + 0x4 * n) + 0, 10, 0, .ro⟩

/-! FSL_SEN_SEL (spec/13_field_sensor_link.md). -/
def FSL_SEN_SEL_SENSOR : Fld := ⟨8 * (0x170440) + 0, 10, 0, .rw⟩

/-! FSL_SEN_STAT (spec/13_field_sensor_link.md). -/
def FSL_SEN_STAT_STATE : Fld := ⟨8 * (0x170444) + 30, 2, 0, .ro⟩
def FSL_SEN_STAT_HEARD : Fld := ⟨8 * (0x170444) + 29, 1, 0, .ro⟩
def FSL_SEN_STAT_DL : Fld := ⟨8 * (0x170444) + 8, 3, 0, .ro⟩
def FSL_SEN_STAT_LAST_DSN : Fld := ⟨8 * (0x170444) + 0, 8, 0, .ro⟩

/-! FSL_SEN_CTR (spec/13_field_sensor_link.md). -/
def FSL_SEN_CTR_LAST_CTR : Fld := ⟨8 * (0x170448) + 0, 32, 0, .ro⟩

/-! FSL_HALF (spec/13_field_sensor_link.md). -/
def FSL_HALF_HALF : Fld := ⟨8 * (0x170460) + 0, 12, 0, .w1c⟩

/-! FSL_CNT[i] (spec/13_field_sensor_link.md). -/
def FSL_CNT_COUNT (n : Nat) : Fld := ⟨8 * (0x170480 + 0x4 * n) + 0, 32, 0, .snap⟩

/-! SCHED_CTL (spec/14_engines_scheduler_and_queues.md). -/
def SCHED_CTL_EN : Fld := ⟨8 * (0x180000) + 31, 1, 0, .st⟩
def SCHED_CTL_USE_TEST : Fld := ⟨8 * (0x180000) + 30, 1, 0, .st⟩
def SCHED_CTL_QTEST : Fld := ⟨8 * (0x180000) + 29, 1, 0, .rw⟩
def SCHED_CTL_AFF_WAIT_NS : Fld := ⟨8 * (0x180000) + 16, 10, 0xc8, .st⟩

/-! SCHED_STAT (spec/14_engines_scheduler_and_queues.md). -/
def SCHED_STAT_GRAPHS : Fld := ⟨8 * (0x180004) + 16, 7, 0, .ro⟩
def SCHED_STAT_ENGINES : Fld := ⟨8 * (0x180004) + 0, 7, 0, .ro⟩

/-! SCHED_BUDGET (spec/14_engines_scheduler_and_queues.md). -/
def SCHED_BUDGET_DEMAND_PM : Fld := ⟨8 * (0x180008) + 16, 16, 0, .ro⟩
def SCHED_BUDGET_BUILTIN_PM : Fld := ⟨8 * (0x180008) + 0, 16, 0, .ro⟩

/-! SCHED_ENG_BUSY (spec/14_engines_scheduler_and_queues.md). -/
def SCHED_ENG_BUSY_BUSY : Fld := ⟨8 * (0x180010) + 0, 64, 0, .snap⟩

/-! SCHED_CLU_LOAD[c] (spec/14_engines_scheduler_and_queues.md). -/
def SCHED_CLU_LOAD_READY (n : Nat) : Fld := ⟨8 * (0x180020 + 0x4 * n) + 16, 10, 0, .ro⟩
def SCHED_CLU_LOAD_LOAD_PM (n : Nat) : Fld := ⟨8 * (0x180020 + 0x4 * n) + 0, 16, 0, .ro⟩

/-! SCHED_GRAPH_SEL (spec/14_engines_scheduler_and_queues.md). -/
def SCHED_GRAPH_SEL_GRAPH : Fld := ⟨8 * (0x180060) + 0, 6, 0, .rw⟩

/-! SCHED_GRAPH_STAT (spec/14_engines_scheduler_and_queues.md). -/
def SCHED_GRAPH_STAT_CLU_A : Fld := ⟨8 * (0x180064) + 28, 4, 0, .ro⟩
def SCHED_GRAPH_STAT_CLU_B : Fld := ⟨8 * (0x180064) + 24, 4, 0, .ro⟩
def SCHED_GRAPH_STAT_SAFETY : Fld := ⟨8 * (0x180064) + 23, 1, 0, .ro⟩
def SCHED_GRAPH_STAT_PLACED : Fld := ⟨8 * (0x180064) + 22, 1, 0, .ro⟩
def SCHED_GRAPH_STAT_PENDING : Fld := ⟨8 * (0x180064) + 19, 3, 0, .ro⟩

/-! SCHED_GRAPH_TIME (spec/14_engines_scheduler_and_queues.md). -/
def SCHED_GRAPH_TIME_ELAPSED_NS : Fld := ⟨8 * (0x180068) + 0, 32, 0, .ro⟩

/-! SCHED_Q_SEL (spec/14_engines_scheduler_and_queues.md). -/
def SCHED_Q_SEL_QUEUE : Fld := ⟨8 * (0x180070) + 0, 11, 0, .rw⟩

/-! SCHED_Q_STAT (spec/14_engines_scheduler_and_queues.md). -/
def SCHED_Q_STAT_OVERFLOW : Fld := ⟨8 * (0x180074) + 31, 1, 0, .w1c⟩
def SCHED_Q_STAT_UNDERRUN : Fld := ⟨8 * (0x180074) + 30, 1, 0, .w1c⟩
def SCHED_Q_STAT_IDLE_ACT : Fld := ⟨8 * (0x180074) + 29, 1, 0, .ro⟩
def SCHED_Q_STAT_DUAL_CLOCK : Fld := ⟨8 * (0x180074) + 28, 1, 0, .ro⟩
def SCHED_Q_STAT_POOL : Fld := ⟨8 * (0x180074) + 23, 5, 0, .ro⟩
def SCHED_Q_STAT_DEPTH : Fld := ⟨8 * (0x180074) + 0, 18, 0, .ro⟩

/-! SCHED_Q_LIM (spec/14_engines_scheduler_and_queues.md). -/
def SCHED_Q_LIM_RES : Fld := ⟨8 * (0x180078) + 20, 12, 0, .ro⟩
def SCHED_Q_LIM_LIMIT : Fld := ⟨8 * (0x180078) + 0, 20, 0, .ro⟩

/-! SCHED_Q_CTL (spec/14_engines_scheduler_and_queues.md). -/
def SCHED_Q_CTL_IDLE_EN : Fld := ⟨8 * (0x18007c) + 0, 1, 0, .rw⟩

/-! SCHED_WRD_STAT (spec/14_engines_scheduler_and_queues.md). -/
def SCHED_WRD_STAT_MAX_ITEM_US : Fld := ⟨8 * (0x180080) + 16, 16, 0, .ro⟩
def SCHED_WRD_STAT_READY1 : Fld := ⟨8 * (0x180080) + 8, 8, 0, .ro⟩
def SCHED_WRD_STAT_READY0 : Fld := ⟨8 * (0x180080) + 0, 8, 0, .ro⟩

/-! SCHED_EVT (spec/14_engines_scheduler_and_queues.md). -/
def SCHED_EVT_CAUSE : Fld := ⟨8 * (0x180090) + 0, 11, 0, .w1c⟩

/-! SCHED_EVT_IDX[k] (spec/14_engines_scheduler_and_queues.md). -/
def SCHED_EVT_IDX_INDEX (n : Nat) : Fld := ⟨8 * (0x1800a0 + 0x4 * n) + 0, 11, 0, .ro⟩

/-! SCHED_HALF (spec/14_engines_scheduler_and_queues.md). -/
def SCHED_HALF_HALF : Fld := ⟨8 * (0x1800f0) + 0, 12, 0, .w1c⟩

/-! SCHED_CNT[i] (spec/14_engines_scheduler_and_queues.md). -/
def SCHED_CNT_COUNT (n : Nat) : Fld := ⟨8 * (0x180100 + 0x4 * n) + 0, 32, 0, .snap⟩

/-! HIF_CTL (spec/15_host_rings_and_doorbells.md). -/
def HIF_CTL_EN : Fld := ⟨8 * (0x10000) + 0, 1, 0, .rw⟩

/-! HIF_DB_BASE (spec/15_host_rings_and_doorbells.md). -/
def HIF_DB_BASE_ADDR : Fld := ⟨8 * (0x10008) + 8, 40, 0, .rw⟩

/-! HIF_PROG_BASE (spec/15_host_rings_and_doorbells.md). -/
def HIF_PROG_BASE_ADDR : Fld := ⟨8 * (0x10010) + 8, 40, 0, .rw⟩

/-! HIF_NUDGE_ADDR (spec/15_host_rings_and_doorbells.md). -/
def HIF_NUDGE_ADDR_ADDR : Fld := ⟨8 * (0x10018) + 3, 45, 0, .rw⟩

/-! HIF_NUDGE_CFG (spec/15_host_rings_and_doorbells.md). -/
def HIF_NUDGE_CFG_POLL_EN : Fld := ⟨8 * (0x10020) + 31, 1, 0, .rw⟩
def HIF_NUDGE_CFG_PERIOD : Fld := ⟨8 * (0x10020) + 0, 8, 2, .rw⟩

/-! HIF_NUDGE_MMIO (spec/15_host_rings_and_doorbells.md). -/
def HIF_NUDGE_MMIO_ONE : Fld := ⟨8 * (0x10024) + 31, 1, 0, .wo⟩
def HIF_NUDGE_MMIO_RING : Fld := ⟨8 * (0x10024) + 0, 6, 0, .wo⟩

/-! HIF_EVQ[q] (spec/15_host_rings_and_doorbells.md). -/
def HIF_EVQ_EN (n : Nat) : Fld := ⟨8 * (0x10030 + 0x4 * n) + 31, 1, 0, .rw⟩
def HIF_EVQ_RING (n : Nat) : Fld := ⟨8 * (0x10030 + 0x4 * n) + 0, 6, 0, .rw⟩

/-! HIF_EVT (spec/15_host_rings_and_doorbells.md). -/
def HIF_EVT_CAUSE : Fld := ⟨8 * (0x10040) + 0, 4, 0, .w1c⟩

/-! HIF_EVT_IDX[k] (spec/15_host_rings_and_doorbells.md). -/
def HIF_EVT_IDX_RING (n : Nat) : Fld := ⟨8 * (0x10050 + 0x4 * n) + 0, 6, 0, .ro⟩

/-! HIF_HALF (spec/15_host_rings_and_doorbells.md). -/
def HIF_HALF_HALF : Fld := ⟨8 * (0x10060) + 0, 10, 0, .w1c⟩

/-! HIF_CNT[i] (spec/15_host_rings_and_doorbells.md). -/
def HIF_CNT_COUNT (n : Nat) : Fld := ⟨8 * (0x10080 + 0x4 * n) + 0, 32, 0, .snap⟩

/-! HIF_EVT_ROUTE[s] (spec/15_host_rings_and_doorbells.md). -/
def HIF_EVT_ROUTE_EN (n : Nat) : Fld := ⟨8 * (0x10400 + 0x4 * n) + 31, 1, 0, .rw⟩
def HIF_EVT_ROUTE_EVQ (n : Nat) : Fld := ⟨8 * (0x10400 + 0x4 * n) + 0, 2, 0, .rw⟩

/-! HIF_RING_SQ[r] (spec/15_host_rings_and_doorbells.md). -/
def HIF_RING_SQ_ADDR (n : Nat) : Fld := ⟨8 * (0x11000 + 0x20 * n) + 6, 42, 0, .rw⟩

/-! HIF_RING_CQ[r] (spec/15_host_rings_and_doorbells.md). -/
def HIF_RING_CQ_ADDR (n : Nat) : Fld := ⟨8 * (0x11008 + 0x20 * n) + 6, 42, 0, .rw⟩

/-! HIF_RING_CFG[r] (spec/15_host_rings_and_doorbells.md). -/
def HIF_RING_CFG_EN (n : Nat) : Fld := ⟨8 * (0x11010 + 0x20 * n) + 31, 1, 0, .rw⟩
def HIF_RING_CFG_KIND (n : Nat) : Fld := ⟨8 * (0x11010 + 0x20 * n) + 28, 3, 0, .rw⟩
def HIF_RING_CFG_SQ_LOG2 (n : Nat) : Fld := ⟨8 * (0x11010 + 0x20 * n) + 24, 4, 4, .rw⟩
def HIF_RING_CFG_CQ_LOG2 (n : Nat) : Fld := ⟨8 * (0x11010 + 0x20 * n) + 20, 4, 4, .rw⟩
def HIF_RING_CFG_BUF_LOG2 (n : Nat) : Fld := ⟨8 * (0x11010 + 0x20 * n) + 15, 5, 0xc, .rw⟩

/-! HIF_RING_IRQ[r] (spec/15_host_rings_and_doorbells.md). -/
def HIF_RING_IRQ_IRQ_EN (n : Nat) : Fld := ⟨8 * (0x11014 + 0x20 * n) + 31, 1, 0, .rw⟩
def HIF_RING_IRQ_VEC (n : Nat) : Fld := ⟨8 * (0x11014 + 0x20 * n) + 24, 6, 0, .rw⟩
def HIF_RING_IRQ_COAL_N (n : Nat) : Fld := ⟨8 * (0x11014 + 0x20 * n) + 16, 8, 1, .rw⟩
def HIF_RING_IRQ_COAL_US (n : Nat) : Fld := ⟨8 * (0x11014 + 0x20 * n) + 0, 10, 0, .rw⟩

/-! HIF_RING_STAT[r] (spec/15_host_rings_and_doorbells.md). -/
def HIF_RING_STAT_SUSP (n : Nat) : Fld := ⟨8 * (0x11018 + 0x20 * n) + 31, 1, 0, .ro⟩
def HIF_RING_STAT_DB_ERR (n : Nat) : Fld := ⟨8 * (0x11018 + 0x20 * n) + 30, 1, 0, .w1c⟩
def HIF_RING_STAT_CFG_WR (n : Nat) : Fld := ⟨8 * (0x11018 + 0x20 * n) + 29, 1, 0, .w1c⟩
def HIF_RING_STAT_STALL (n : Nat) : Fld := ⟨8 * (0x11018 + 0x20 * n) + 28, 1, 0, .ro⟩
def HIF_RING_STAT_ACTIVE (n : Nat) : Fld := ⟨8 * (0x11018 + 0x20 * n) + 27, 1, 0, .ro⟩
def HIF_RING_STAT_BACKLOG (n : Nat) : Fld := ⟨8 * (0x11018 + 0x20 * n) + 16, 9, 0, .ro⟩
def HIF_RING_STAT_SQ_HEAD (n : Nat) : Fld := ⟨8 * (0x11018 + 0x20 * n) + 0, 16, 0, .ro⟩

/-! XLT_CTL (spec/16_translation_dma_and_faults.md). -/
def XLT_CTL_EN : Fld := ⟨8 * (0x20000) + 0, 1, 0, .rw⟩

/-! XLT_ROOT (spec/16_translation_dma_and_faults.md). -/
def XLT_ROOT_ADDR : Fld := ⟨8 * (0x20008) + 12, 40, 0, .rw⟩

/-! XLT_STAT (spec/16_translation_dma_and_faults.md). -/
def XLT_STAT_INV_BUSY : Fld := ⟨8 * (0x20010) + 3, 1, 0, .ro⟩
def XLT_STAT_FRING_FULL : Fld := ⟨8 * (0x20010) + 2, 1, 0, .w1c⟩
def XLT_STAT_ROOT_WR : Fld := ⟨8 * (0x20010) + 1, 1, 0, .w1c⟩
def XLT_STAT_CTL_SUSP : Fld := ⟨8 * (0x20010) + 0, 1, 0, .ro⟩

/-! XLT_FRING_BASE (spec/16_translation_dma_and_faults.md). -/
def XLT_FRING_BASE_ADDR : Fld := ⟨8 * (0x20018) + 12, 40, 0, .rw⟩
def XLT_FRING_BASE_LOG2 : Fld := ⟨8 * (0x20018) + 0, 4, 0, .rw⟩

/-! XLT_FRING_HEAD (spec/16_translation_dma_and_faults.md). -/
def XLT_FRING_HEAD_HEAD : Fld := ⟨8 * (0x20020) + 0, 16, 0, .rw⟩

/-! XLT_FRING_TAIL (spec/16_translation_dma_and_faults.md). -/
def XLT_FRING_TAIL_TAIL : Fld := ⟨8 * (0x20024) + 0, 16, 0, .ro⟩

/-! XLT_INV (spec/16_translation_dma_and_faults.md). -/
def XLT_INV_ALL : Fld := ⟨8 * (0x20028) + 63, 1, 0, .wo⟩
def XLT_INV_VA : Fld := ⟨8 * (0x20028) + 12, 36, 0, .wo⟩
def XLT_INV_SIZE_LOG2 : Fld := ⟨8 * (0x20028) + 0, 6, 0, .wo⟩

/-! XLT_INV_STAT (spec/16_translation_dma_and_faults.md). -/
def XLT_INV_STAT_DONE : Fld := ⟨8 * (0x20030) + 16, 16, 0, .ro⟩
def XLT_INV_STAT_ISSUED : Fld := ⟨8 * (0x20030) + 0, 16, 0, .ro⟩

/-! XLT_RESUME (spec/16_translation_dma_and_faults.md). -/
def XLT_RESUME_GO : Fld := ⟨8 * (0x20034) + 31, 1, 0, .wo⟩
def XLT_RESUME_RACTION : Fld := ⟨8 * (0x20034) + 8, 1, 0, .wo⟩
def XLT_RESUME_CHANNEL : Fld := ⟨8 * (0x20034) + 0, 7, 0, .wo⟩

/-! XLT_RESUME_STAT (spec/16_translation_dma_and_faults.md). -/
def XLT_RESUME_STAT_LAST_STATUS : Fld := ⟨8 * (0x20038) + 0, 8, 0, .ro⟩

/-! XLT_CH_SEL (spec/16_translation_dma_and_faults.md). -/
def XLT_CH_SEL_CHANNEL : Fld := ⟨8 * (0x20040) + 0, 7, 0, .rw⟩

/-! XLT_CH_STAT (spec/16_translation_dma_and_faults.md). -/
def XLT_CH_STAT_SUSP : Fld := ⟨8 * (0x20044) + 31, 1, 0, .ro⟩
def XLT_CH_STAT_CLASS : Fld := ⟨8 * (0x20044) + 28, 3, 0, .ro⟩
def XLT_CH_STAT_STREAM : Fld := ⟨8 * (0x20044) + 26, 2, 0, .ro⟩
def XLT_CH_STAT_WRITE : Fld := ⟨8 * (0x20044) + 25, 1, 0, .ro⟩
def XLT_CH_STAT_ITEM : Fld := ⟨8 * (0x20044) + 0, 16, 0, .ro⟩

/-! XLT_CH_VA (spec/16_translation_dma_and_faults.md). -/
def XLT_CH_VA_DVA : Fld := ⟨8 * (0x20048) + 0, 48, 0, .ro⟩

/-! XLT_EVT (spec/16_translation_dma_and_faults.md). -/
def XLT_EVT_CAUSE : Fld := ⟨8 * (0x20060) + 0, 4, 0, .w1c⟩

/-! XLT_HALF (spec/16_translation_dma_and_faults.md). -/
def XLT_HALF_HALF : Fld := ⟨8 * (0x20064) + 0, 6, 0, .w1c⟩

/-! XLT_CNT[i] (spec/16_translation_dma_and_faults.md). -/
def XLT_CNT_COUNT (n : Nat) : Fld := ⟨8 * (0x20080 + 0x4 * n) + 0, 32, 0, .snap⟩

/-! PAIR_CTL (spec/17_pairs_witness_and_rope_teams.md). -/
def PAIR_CTL_ENABLE : Fld := ⟨8 * (0x190000) + 31, 1, 0, .rw⟩
def PAIR_CTL_MODE : Fld := ⟨8 * (0x190000) + 28, 3, 0, .rw⟩
def PAIR_CTL_UNIT_ID : Fld := ⟨8 * (0x190000) + 24, 4, 1, .rw⟩
def PAIR_CTL_MASTER : Fld := ⟨8 * (0x190000) + 20, 4, 1, .rw⟩
def PAIR_CTL_TSLICE : Fld := ⟨8 * (0x190000) + 19, 1, 0, .rw⟩
def PAIR_CTL_START_WAIT_MS : Fld := ⟨8 * (0x190000) + 0, 16, 0x64, .rw⟩

/-! PAIR_STAT (spec/17_pairs_witness_and_rope_teams.md). -/
def PAIR_STAT_CLAIM : Fld := ⟨8 * (0x190004) + 16, 16, 0, .ro⟩
def PAIR_STAT_PARTNER : Fld := ⟨8 * (0x190004) + 12, 4, 0, .ro⟩
def PAIR_STAT_WIT_OK : Fld := ⟨8 * (0x190004) + 11, 1, 0, .ro⟩
def PAIR_STAT_PARTNER_OK : Fld := ⟨8 * (0x190004) + 10, 1, 0, .ro⟩
def PAIR_STAT_CFG_WR : Fld := ⟨8 * (0x190004) + 9, 1, 0, .w1c⟩
def PAIR_STAT_RESYNC_FAIL : Fld := ⟨8 * (0x190004) + 8, 1, 0, .w1c⟩
def PAIR_STAT_STATE : Fld := ⟨8 * (0x190004) + 0, 3, 0, .ro⟩

/-! PAIR_PARTNER (spec/17_pairs_witness_and_rope_teams.md). -/
def PAIR_PARTNER_CLAIM : Fld := ⟨8 * (0x190008) + 16, 16, 0, .ro⟩
def PAIR_PARTNER_AGE_US : Fld := ⟨8 * (0x190008) + 0, 16, 0xffff, .ro⟩

/-! PAIR_WIT (spec/17_pairs_witness_and_rope_teams.md). -/
def PAIR_WIT_HOLD_MAX_MS : Fld := ⟨8 * (0x190010) + 16, 16, 0x3e8, .rw⟩
def PAIR_WIT_WUNIT_B : Fld := ⟨8 * (0x190010) + 12, 4, 2, .rw⟩
def PAIR_WIT_WUNIT_A : Fld := ⟨8 * (0x190010) + 8, 4, 1, .rw⟩
def PAIR_WIT_KEY_SLOT : Fld := ⟨8 * (0x190010) + 0, 8, 0, .rw⟩

/-! PAIR_TEAM (spec/17_pairs_witness_and_rope_teams.md). -/
def PAIR_TEAM_TEAM_WAIT_US : Fld := ⟨8 * (0x190014) + 0, 21, 0x1388, .rw⟩

/-! PAIR_ROUTE (spec/17_pairs_witness_and_rope_teams.md). -/
def PAIR_ROUTE_ROUTE : Fld := ⟨8 * (0x190018) + 4, 60, 0, .rw⟩

/-! PAIR_LINK[l] (spec/17_pairs_witness_and_rope_teams.md). -/
def PAIR_LINK_EN (n : Nat) : Fld := ⟨8 * (0x190020 + 0x4 * n) + 31, 1, 0, .rw⟩
def PAIR_LINK_LSTATE (n : Nat) : Fld := ⟨8 * (0x190020 + 0x4 * n) + 29, 2, 0, .ro⟩
def PAIR_LINK_PEER (n : Nat) : Fld := ⟨8 * (0x190020 + 0x4 * n) + 24, 4, 0, .ro⟩

/-! PAIR_EVT (spec/17_pairs_witness_and_rope_teams.md). -/
def PAIR_EVT_CAUSE : Fld := ⟨8 * (0x190040) + 0, 16, 0, .w1c⟩

/-! PAIR_HALF (spec/17_pairs_witness_and_rope_teams.md). -/
def PAIR_HALF_HALF : Fld := ⟨8 * (0x190044) + 0, 11, 0, .w1c⟩

/-! PAIR_CNT[i] (spec/17_pairs_witness_and_rope_teams.md). -/
def PAIR_CNT_COUNT (n : Nat) : Fld := ⟨8 * (0x190080 + 0x4 * n) + 0, 32, 0, .snap⟩

/-! SAFE_CTL (spec/18_functional_safety.md). -/
def SAFE_CTL_PTEST_S : Fld := ⟨8 * (0x1a0000) + 0, 8, 0xa, .st⟩

/-! SAFE_STAT (spec/18_functional_safety.md). -/
def SAFE_STAT_SAFE : Fld := ⟨8 * (0x1a0004) + 31, 1, 0, .ro⟩
def SAFE_STAT_SELFTEST_OK : Fld := ⟨8 * (0x1a0004) + 30, 1, 0, .ro⟩
def SAFE_STAT_CAUSE : Fld := ⟨8 * (0x1a0004) + 16, 8, 0, .ro⟩
def SAFE_STAT_LAST_REPORT : Fld := ⟨8 * (0x1a0004) + 8, 8, 0, .ro⟩

/-! SAFE_ENTRY_TIME (spec/18_functional_safety.md). -/
def SAFE_ENTRY_TIME_S : Fld := ⟨8 * (0x1a0008) + 32, 48, 0, .snap⟩
def SAFE_ENTRY_TIME_NS : Fld := ⟨8 * (0x1a0008) + 0, 30, 0, .snap⟩

/-! SAFE_WDT_CFG (spec/18_functional_safety.md). -/
def SAFE_WDT_CFG_WIN_HI_US : Fld := ⟨8 * (0x1a0014) + 16, 16, 0x7d0, .st⟩
def SAFE_WDT_CFG_WIN_LO_US : Fld := ⟨8 * (0x1a0014) + 0, 16, 0x64, .st⟩

/-! SAFE_MON (spec/18_functional_safety.md). -/
def SAFE_MON_RAIL_FLT : Fld := ⟨8 * (0x1a0018) + 16, 8, 0, .ro⟩
def SAFE_MON_TJ_MAX : Fld := ⟨8 * (0x1a0018) + 0, 16, 0, .ro⟩

/-! SAFE_FORCE (spec/18_functional_safety.md). -/
def SAFE_FORCE_CODE : Fld := ⟨8 * (0x1a001c) + 0, 32, 0, .wo⟩

/-! SAFE_TEST_STAT (spec/18_functional_safety.md). -/
def SAFE_TEST_STAT_FAIL : Fld := ⟨8 * (0x1a0020) + 0, 16, 0, .ro⟩

/-! SAFE_EVT (spec/18_functional_safety.md). -/
def SAFE_EVT_CAUSE : Fld := ⟨8 * (0x1a0030) + 0, 16, 0, .w1c⟩

/-! SAFE_HALF (spec/18_functional_safety.md). -/
def SAFE_HALF_HALF : Fld := ⟨8 * (0x1a0034) + 0, 4, 0, .w1c⟩

/-! SAFE_CNT[i] (spec/18_functional_safety.md). -/
def SAFE_CNT_COUNT (n : Nat) : Fld := ⟨8 * (0x1a0040 + 0x4 * n) + 0, 32, 0, .snap⟩

/-! KEY_STAT (spec/19_keys_attestation_and_tamper.md). -/
def KEY_STAT_NVALID : Fld := ⟨8 * (0x1b0000) + 16, 9, 0, .ro⟩
def KEY_STAT_RAM_LOST : Fld := ⟨8 * (0x1b0000) + 7, 1, 1, .w1c⟩
def KEY_STAT_ZEROIZED : Fld := ⟨8 * (0x1b0000) + 6, 1, 0, .w1c⟩
def KEY_STAT_BUSY : Fld := ⟨8 * (0x1b0000) + 5, 1, 0, .ro⟩
def KEY_STAT_DBG_TOKEN_FAIL : Fld := ⟨8 * (0x1b0000) + 4, 1, 0, .w1c⟩
def KEY_STAT_ROOT : Fld := ⟨8 * (0x1b0000) + 0, 2, 0, .ro⟩

/-! KEY_DEVID (spec/19_keys_attestation_and_tamper.md). -/
def KEY_DEVID_DEVID : Fld := ⟨8 * (0x1b0008) + 0, 64, 0, .ro⟩

/-! KEY_DBG_NONCE (spec/19_keys_attestation_and_tamper.md). -/
def KEY_DBG_NONCE_NONCE : Fld := ⟨8 * (0x1b0010) + 0, 64, 0, .ro⟩

/-! KEY_TAMP_CFG (spec/19_keys_attestation_and_tamper.md). -/
def KEY_TAMP_CFG_FILT_US : Fld := ⟨8 * (0x1b0018) + 24, 8, 0xa, .st⟩
def KEY_TAMP_CFG_INT_EN : Fld := ⟨8 * (0x1b0018) + 16, 4, 0xf, .st⟩
def KEY_TAMP_CFG_POL : Fld := ⟨8 * (0x1b0018) + 4, 4, 0, .st⟩
def KEY_TAMP_CFG_EN : Fld := ⟨8 * (0x1b0018) + 0, 4, 0, .st⟩

/-! KEY_TAMPER (spec/19_keys_attestation_and_tamper.md). -/
def KEY_TAMPER_UNPOWERED : Fld := ⟨8 * (0x1b001c) + 31, 1, 0, .w1c⟩
def KEY_TAMPER_SRC : Fld := ⟨8 * (0x1b001c) + 0, 8, 0, .w1c⟩

/-! KEY_ZTIME (spec/19_keys_attestation_and_tamper.md). -/
def KEY_ZTIME_S : Fld := ⟨8 * (0x1b0020) + 32, 48, 0, .snap⟩
def KEY_ZTIME_NS : Fld := ⟨8 * (0x1b0020) + 0, 30, 0, .snap⟩

/-! KEY_ZINFO (spec/19_keys_attestation_and_tamper.md). -/
def KEY_ZINFO_REASON : Fld := ⟨8 * (0x1b002c) + 24, 8, 0, .ro⟩
def KEY_ZINFO_COUNT : Fld := ⟨8 * (0x1b002c) + 0, 16, 0, .ro⟩

/-! KEY_SLOT_SEL (spec/19_keys_attestation_and_tamper.md). -/
def KEY_SLOT_SEL_SLOT : Fld := ⟨8 * (0x1b0030) + 0, 8, 0, .rw⟩

/-! KEY_SLOT_DATA[w] (spec/19_keys_attestation_and_tamper.md). -/
def KEY_SLOT_DATA_DATA (n : Nat) : Fld := ⟨8 * (0x1b0040 + 0x4 * n) + 0, 32, 0, .ro⟩

/-! KEY_EVT (spec/19_keys_attestation_and_tamper.md). -/
def KEY_EVT_CAUSE : Fld := ⟨8 * (0x1b0060) + 0, 8, 0, .w1c⟩

/-! KEY_HALF (spec/19_keys_attestation_and_tamper.md). -/
def KEY_HALF_HALF : Fld := ⟨8 * (0x1b0064) + 0, 6, 0, .w1c⟩

/-! KEY_CNT[i] (spec/19_keys_attestation_and_tamper.md). -/
def KEY_CNT_COUNT (n : Nat) : Fld := ⟨8 * (0x1b0080 + 0x4 * n) + 0, 32, 0, .snap⟩

/-! PWR_STAT (spec/20_start_up_reset_and_bivouac.md). -/
def PWR_STAT_RST_CAUSE : Fld := ⟨8 * (0x1d0000) + 24, 4, 0, .ro⟩
def PWR_STAT_WAKE_LVL : Fld := ⟨8 * (0x1d0000) + 15, 1, 0, .ro⟩
def PWR_STAT_BOOT_SLOT : Fld := ⟨8 * (0x1d0000) + 12, 2, 0, .ro⟩
def PWR_STAT_PHASE : Fld := ⟨8 * (0x1d0000) + 0, 4, 1, .ro⟩

/-! PWR_RST (spec/20_start_up_reset_and_bivouac.md). -/
def PWR_RST_CODE : Fld := ⟨8 * (0x1d0004) + 0, 32, 0, .wo⟩

/-! PWR_BLK_RST (spec/20_start_up_reset_and_bivouac.md). -/
def PWR_BLK_RST_GO : Fld := ⟨8 * (0x1d0008) + 31, 1, 0, .wo⟩
def PWR_BLK_RST_UNIT : Fld := ⟨8 * (0x1d0008) + 0, 8, 0, .wo⟩

/-! PWR_BLK_STAT (spec/20_start_up_reset_and_bivouac.md). -/
def PWR_BLK_STAT_BUSY : Fld := ⟨8 * (0x1d000c) + 31, 1, 0, .ro⟩
def PWR_BLK_STAT_BUSY_WR : Fld := ⟨8 * (0x1d000c) + 30, 1, 0, .w1c⟩
def PWR_BLK_STAT_UNIT : Fld := ⟨8 * (0x1d000c) + 0, 8, 0, .ro⟩

/-! PWR_CFG (spec/20_start_up_reset_and_bivouac.md). -/
def PWR_CFG_WAIT_LOCK : Fld := ⟨8 * (0x1d0010) + 31, 1, 0, .st⟩
def PWR_CFG_DRAIN_MS : Fld := ⟨8 * (0x1d0010) + 16, 8, 0x14, .st⟩
def PWR_CFG_AON_PPB : Fld := ⟨8 * (0x1d0010) + 0, 16, 0x7d0, .st⟩

/-! PWR_WAKE_CFG (spec/20_start_up_reset_and_bivouac.md). -/
def PWR_WAKE_CFG_PIN_EN : Fld := ⟨8 * (0x1d0014) + 31, 1, 0, .st⟩
def PWR_WAKE_CFG_PIN_EDGE : Fld := ⟨8 * (0x1d0014) + 30, 1, 0, .st⟩
def PWR_WAKE_CFG_ALM_EN : Fld := ⟨8 * (0x1d0014) + 24, 4, 0, .st⟩

/-! PWR_WAKE_PORT (spec/20_start_up_reset_and_bivouac.md). -/
def PWR_WAKE_PORT_SEL : Fld := ⟨8 * (0x1d0018) + 0, 32, 0, .st⟩

/-! PWR_AON_CAL (spec/20_start_up_reset_and_bivouac.md). -/
def PWR_AON_CAL_VALID : Fld := ⟨8 * (0x1d001c) + 31, 1, 0, .ro⟩
def PWR_AON_CAL_PPB : Fld := ⟨8 * (0x1d001c) + 0, 24, 0, .ro⟩

/-! PWR_WAKE_INFO (spec/20_start_up_reset_and_bivouac.md). -/
def PWR_WAKE_INFO_REASON : Fld := ⟨8 * (0x1d0020) + 24, 8, 0, .ro⟩
def PWR_WAKE_INFO_CAUSES : Fld := ⟨8 * (0x1d0020) + 16, 8, 0, .ro⟩
def PWR_WAKE_INFO_PORT : Fld := ⟨8 * (0x1d0020) + 8, 6, 0, .ro⟩
def PWR_WAKE_INFO_PATTERN : Fld := ⟨8 * (0x1d0020) + 0, 3, 0, .ro⟩

/-! PWR_WAKE_TIME (spec/20_start_up_reset_and_bivouac.md). -/
def PWR_WAKE_TIME_S : Fld := ⟨8 * (0x1d0030) + 32, 48, 0, .snap⟩
def PWR_WAKE_TIME_NS : Fld := ⟨8 * (0x1d0030) + 0, 30, 0, .snap⟩

/-! PWR_ENTRY_TIME (spec/20_start_up_reset_and_bivouac.md). -/
def PWR_ENTRY_TIME_S : Fld := ⟨8 * (0x1d0040) + 32, 48, 0, .snap⟩
def PWR_ENTRY_TIME_NS : Fld := ⟨8 * (0x1d0040) + 0, 30, 0, .snap⟩

/-! UPD_STAT (spec/21_firmware_update.md). -/
def UPD_STAT_LAST_RESULT : Fld := ⟨8 * (0x1c0000) + 24, 8, 0, .ro⟩
def UPD_STAT_TRIAL_LEFT_S : Fld := ⟨8 * (0x1c0000) + 16, 8, 0, .ro⟩
def UPD_STAT_SOURCE : Fld := ⟨8 * (0x1c0000) + 12, 4, 0, .ro⟩
def UPD_STAT_ACTIVE_SLOT : Fld := ⟨8 * (0x1c0000) + 8, 1, 0, .ro⟩
def UPD_STAT_STATE : Fld := ⟨8 * (0x1c0000) + 0, 3, 0, .ro⟩

/-! UPD_TRIAL (spec/21_firmware_update.md). -/
def UPD_TRIAL_RUN_MET : Fld := ⟨8 * (0x1c0004) + 3, 1, 0, .ro⟩
def UPD_TRIAL_HOST_MET : Fld := ⟨8 * (0x1c0004) + 2, 1, 0, .ro⟩
def UPD_TRIAL_CFG_MET : Fld := ⟨8 * (0x1c0004) + 1, 1, 0, .ro⟩
def UPD_TRIAL_START_MET : Fld := ⟨8 * (0x1c0004) + 0, 1, 0, .ro⟩

/-! UPD_VER_RUN (spec/21_firmware_update.md). -/
def UPD_VER_RUN_FW_VER : Fld := ⟨8 * (0x1c0008) + 0, 32, 0, .ro⟩

/-! UPD_VER_STAGED (spec/21_firmware_update.md). -/
def UPD_VER_STAGED_FW_VER : Fld := ⟨8 * (0x1c000c) + 0, 32, 0, .ro⟩

/-! UPD_SEC (spec/21_firmware_update.md). -/
def UPD_SEC_KEY_REVOKED : Fld := ⟨8 * (0x1c0010) + 16, 4, 0, .ro⟩
def UPD_SEC_SEC_VER : Fld := ⟨8 * (0x1c0010) + 0, 16, 0, .ro⟩

/-! UPD_CFG_STORE (spec/21_firmware_update.md). -/
def UPD_CFG_STORE_STORE_VER : Fld := ⟨8 * (0x1c0014) + 16, 16, 0, .ro⟩
def UPD_CFG_STORE_COPY : Fld := ⟨8 * (0x1c0014) + 1, 1, 0, .ro⟩
def UPD_CFG_STORE_PRESENT : Fld := ⟨8 * (0x1c0014) + 0, 1, 0, .ro⟩

/-! UPD_ACT_TIME (spec/21_firmware_update.md). -/
def UPD_ACT_TIME_S : Fld := ⟨8 * (0x1c0020) + 32, 48, 0, .snap⟩
def UPD_ACT_TIME_NS : Fld := ⟨8 * (0x1c0020) + 0, 30, 0, .snap⟩

/-! UPD_EVT (spec/21_firmware_update.md). -/
def UPD_EVT_CAUSE : Fld := ⟨8 * (0x1c0040) + 0, 8, 0, .w1c⟩

/-! UPD_HALF (spec/21_firmware_update.md). -/
def UPD_HALF_HALF : Fld := ⟨8 * (0x1c0044) + 0, 4, 0, .w1c⟩

/-! UPD_CNT[i] (spec/21_firmware_update.md). -/
def UPD_CNT_COUNT (n : Nat) : Fld := ⟨8 * (0x1c0080 + 0x4 * n) + 0, 32, 0, .snap⟩

/-! ERR_CTL (spec/22_errors_and_the_cairn.md). -/
def ERR_CTL_HALT : Fld := ⟨8 * (0x1e0000) + 31, 1, 0, .rw⟩
def ERR_CTL_CAIRN_MS : Fld := ⟨8 * (0x1e0000) + 0, 16, 0x7d0, .rw⟩

/-! ERR_STAT (spec/22_errors_and_the_cairn.md). -/
def ERR_STAT_FATAL : Fld := ⟨8 * (0x1e0004) + 31, 1, 0, .ro⟩
def ERR_STAT_CAIRN : Fld := ⟨8 * (0x1e0004) + 30, 1, 0, .ro⟩
def ERR_STAT_POSTED : Fld := ⟨8 * (0x1e0004) + 29, 1, 0, .ro⟩
def ERR_STAT_INJ_REF : Fld := ⟨8 * (0x1e0004) + 28, 1, 0, .w1c⟩
def ERR_STAT_FATAL_CODE : Fld := ⟨8 * (0x1e0004) + 0, 8, 0, .ro⟩

/-! ERR_NEED (spec/22_errors_and_the_cairn.md). -/
def ERR_NEED_NEED_MIB : Fld := ⟨8 * (0x1e0008) + 0, 32, 0, .ro⟩

/-! ERR_HAVE (spec/22_errors_and_the_cairn.md). -/
def ERR_HAVE_HAVE_MIB : Fld := ⟨8 * (0x1e000c) + 0, 32, 0, .ro⟩

/-! ERR_LOG_SEL (spec/22_errors_and_the_cairn.md). -/
def ERR_LOG_SEL_REC : Fld := ⟨8 * (0x1e0010) + 0, 6, 0, .rw⟩

/-! ERR_LOG_HEAD (spec/22_errors_and_the_cairn.md). -/
def ERR_LOG_HEAD_WRITTEN : Fld := ⟨8 * (0x1e0014) + 0, 16, 0, .ro⟩

/-! ERR_LOG_DATA[w] (spec/22_errors_and_the_cairn.md). -/
def ERR_LOG_DATA_DATA (n : Nat) : Fld := ⟨8 * (0x1e0020 + 0x4 * n) + 0, 32, 0, .ro⟩

/-! ERR_INJ (spec/22_errors_and_the_cairn.md). -/
def ERR_INJ_GO : Fld := ⟨8 * (0x1e0040) + 31, 1, 0, .wo⟩
def ERR_INJ_MEM : Fld := ⟨8 * (0x1e0040) + 16, 3, 0, .wo⟩
def ERR_INJ_KIND : Fld := ⟨8 * (0x1e0040) + 0, 2, 0, .wo⟩

/-! ERR_EVT (spec/22_errors_and_the_cairn.md). -/
def ERR_EVT_CAUSE : Fld := ⟨8 * (0x1e0050) + 0, 8, 0, .w1c⟩

/-! ERR_HALF (spec/22_errors_and_the_cairn.md). -/
def ERR_HALF_HALF : Fld := ⟨8 * (0x1e0054) + 0, 5, 0, .w1c⟩

/-! ERR_CNT[i] (spec/22_errors_and_the_cairn.md). -/
def ERR_CNT_COUNT (n : Nat) : Fld := ⟨8 * (0x1e0080 + 0x4 * n) + 0, 32, 0, .snap⟩

end Reg

/-- The registers of spec/00_scope.md. -/
def regs00 : List RegD := [
  ⟨0x0, 1, [], false, [⟨16, 16, 0x4864, .ro⟩, ⟨12, 4, 0xa, .ro⟩, ⟨8, 4, 1, .ro⟩]⟩]

/-- The registers of spec/02_consistency_epochs_and_cinch.md. -/
def regs02 : List RegD := [
  ⟨0x4, 1, [], false, [⟨9, 1, 0, .ro⟩, ⟨8, 1, 0, .ro⟩, ⟨0, 3, 0, .ro⟩]⟩,
  ⟨0x8, 1, [], false, [⟨0, 32, 0, .ro⟩]⟩,
  ⟨0xc, 1, [], false, [⟨0, 32, 0, .ro⟩]⟩,
  ⟨0x10, 1, [], false, [⟨0, 1, 0, .rw⟩]⟩,
  ⟨0x14, 1, [], false, [⟨24, 8, 0, .ro⟩, ⟨16, 8, 0, .ro⟩, ⟨8, 8, 0, .ro⟩, ⟨3, 1, 0, .ro⟩, ⟨2, 1, 0, .w1c⟩, ⟨1, 1, 0, .w1c⟩, ⟨0, 1, 0, .ro⟩]⟩,
  ⟨0x18, 1, [], false, [⟨20, 8, 0, .ro⟩, ⟨16, 4, 0, .ro⟩, ⟨0, 16, 0, .ro⟩]⟩,
  ⟨0x20, 3, [], true, [⟨32, 48, 0, .snap⟩, ⟨0, 30, 0, .snap⟩]⟩,
  ⟨0x30, 1, [], false, [⟨0, 16, 0x3e8, .rw⟩]⟩,
  ⟨0x40, 1, [], false, [⟨1, 1, 0, .rw⟩, ⟨0, 1, 0, .wo⟩]⟩,
  ⟨0x48, 3, [], false, [⟨32, 48, 0, .ro⟩, ⟨0, 30, 0, .ro⟩]⟩]

/-- The registers of spec/03_time_base_and_synchronisation.md. -/
def regs03 : List RegD := [
  ⟨0x40000, 1, [], false, [⟨2, 2, 0, .st⟩, ⟨1, 1, 0, .st⟩, ⟨0, 1, 0, .rw⟩]⟩,
  ⟨0x40004, 1, [], false, [⟨11, 1, 0, .w1c⟩, ⟨10, 1, 0, .w1c⟩, ⟨9, 1, 0, .w1c⟩, ⟨8, 1, 0, .w1c⟩, ⟨7, 1, 0, .w1c⟩, ⟨4, 3, 0, .ro⟩, ⟨3, 1, 0, .ro⟩, ⟨0, 3, 0, .ro⟩]⟩,
  ⟨0x40008, 2, [], false, [⟨32, 8, 2, .rw⟩, ⟨0, 32, 0, .rw⟩]⟩,
  ⟨0x40010, 3, [], true, [⟨32, 48, 0, .snap⟩, ⟨0, 30, 0, .snap⟩]⟩,
  ⟨0x40020, 2, [], false, [⟨0, 64, 0, .wo⟩]⟩,
  ⟨0x40028, 1, [], false, [⟨18, 1, 0, .ro⟩, ⟨16, 2, 0, .rw⟩, ⟨0, 16, 0, .rw⟩]⟩,
  ⟨0x4002c, 1, [], false, [⟨0, 32, 0xffffffff, .rw⟩]⟩,
  ⟨0x40030, 1, [], false, [⟨8, 24, 0xffffff, .ro⟩, ⟨0, 4, 0xf, .ro⟩]⟩,
  ⟨0x40034, 1, [], false, [⟨16, 16, 0x3e8, .st⟩, ⟨3, 3, 0, .st⟩, ⟨0, 3, 0, .st⟩]⟩,
  ⟨0x40038, 1, [], false, [⟨24, 8, 0x32, .st⟩, ⟨16, 2, 0, .st⟩, ⟨12, 4, 0, .st⟩, ⟨8, 4, 0, .st⟩, ⟨0, 8, 0, .st⟩]⟩,
  ⟨0x4003c, 1, [], false, [⟨0, 1, 1, .st⟩]⟩,
  ⟨0x40040, 1, [], false, [⟨0, 20, 0x186a0, .st⟩]⟩,
  ⟨0x40048, 3, [], true, [⟨32, 48, 0, .snap⟩, ⟨0, 30, 0, .snap⟩]⟩,
  ⟨0x40060, 4, [(0x10, 4)], false, [⟨96, 32, 0, .rw⟩, ⟨81, 1, 0, .w1c⟩, ⟨80, 1, 0, .rw⟩, ⟨32, 48, 0, .rw⟩, ⟨0, 30, 0, .rw⟩]⟩,
  ⟨0x40100, 1, [(0x4, 48)], false, [⟨16, 16, 0, .st⟩, ⟨2, 1, 0, .st⟩, ⟨0, 2, 0, .st⟩]⟩,
  ⟨0x40200, 1, [(0x4, 48)], false, [⟨0, 32, 0, .ro⟩]⟩]

/-- The registers of spec/04_ports_harnesses_and_mac.md. -/
def regs04 : List RegD := [
  ⟨0x80000, 1, [(0x1000, 48)], false, [⟨31, 1, 0, .rw⟩, ⟨16, 14, 0x5f2, .st⟩, ⟨11, 5, 0, .st⟩, ⟨9, 2, 0, .st⟩, ⟨8, 1, 0, .st⟩, ⟨4, 1, 1, .st⟩, ⟨0, 3, 0, .st⟩]⟩,
  ⟨0x80004, 1, [(0x1000, 48)], false, [⟨5, 3, 0, .ro⟩, ⟨4, 1, 0, .ro⟩, ⟨3, 1, 0, .ro⟩, ⟨2, 1, 0, .ro⟩, ⟨1, 1, 0, .ro⟩, ⟨0, 1, 0, .ro⟩]⟩,
  ⟨0x80008, 2, [(0x1000, 48)], false, [⟨0, 48, 0, .st⟩]⟩,
  ⟨0x80010, 1, [(0x1000, 48)], false, [⟨24, 8, 0x40, .st⟩, ⟨0, 24, 0x2710, .st⟩]⟩,
  ⟨0x80014, 1, [(0x1000, 48)], false, [⟨0, 18, 0xc00, .st⟩]⟩,
  ⟨0x80018, 1, [(0x1000, 48)], false, [⟨16, 12, 0x40, .st⟩, ⟨0, 16, 0x200, .st⟩]⟩,
  ⟨0x8001c, 1, [(0x1000, 48)], false, [⟨0, 16, 0x190, .st⟩]⟩,
  ⟨0x80020, 1, [(0x1000, 48)], false, [⟨16, 16, 0, .st⟩, ⟨0, 16, 0, .st⟩]⟩,
  ⟨0x80030, 1, [(0x1000, 48)], false, [⟨0, 6, 0, .rw⟩]⟩,
  ⟨0x80034, 1, [(0x1000, 48)], false, [⟨5, 1, 0, .w1c⟩, ⟨4, 1, 0, .w1c⟩, ⟨3, 1, 0, .w1c⟩, ⟨2, 1, 0, .w1c⟩, ⟨1, 1, 0, .w1c⟩, ⟨0, 1, 0, .w1c⟩]⟩,
  ⟨0x80038, 1, [(0x1000, 48)], false, [⟨0, 29, 0, .w1c⟩]⟩,
  ⟨0x80100, 1, [(0x1000, 48), (0x4, 29)], false, [⟨0, 32, 0, .snap⟩]⟩,
  ⟨0x80800, 5, [(0x1000, 48), (0x20, 8)], false, [⟨159, 1, 0, .st⟩, ⟨128, 16, 0, .st⟩, ⟨0, 128, 0, .st⟩]⟩]

/-- The registers of spec/05_stream_ingest.md. -/
def regs05 : List RegD := [
  ⟨0xc0000, 1, [], false, [⟨16, 16, 0x3e8, .st⟩, ⟨4, 12, 0x64, .st⟩, ⟨0, 1, 1, .st⟩]⟩,
  ⟨0xc0004, 1, [], false, [⟨24, 6, 0, .st⟩, ⟨16, 6, 0, .st⟩, ⟨8, 6, 0, .st⟩, ⟨2, 1, 0, .st⟩, ⟨1, 1, 0, .st⟩, ⟨0, 1, 0, .st⟩]⟩,
  ⟨0xc0008, 1, [], false, [⟨16, 16, 0, .wo⟩, ⟨0, 13, 0, .wo⟩]⟩,
  ⟨0xc000c, 1, [], false, [⟨8, 1, 0, .ro⟩, ⟨0, 8, 0, .ro⟩]⟩,
  ⟨0xc0010, 1, [], false, [⟨16, 13, 0, .ro⟩, ⟨0, 8, 0, .ro⟩]⟩,
  ⟨0xc0200, 1, [(0x4, 48)], false, [⟨0, 32, 0, .st⟩]⟩,
  ⟨0xc0400, 4, [(0x10, 48)], false, [⟨0, 128, 0, .st⟩]⟩,
  ⟨0xc0020, 1, [], false, [⟨16, 1, 0, .rw⟩, ⟨0, 13, 0, .rw⟩]⟩,
  ⟨0xc0100, 1, [(0x4, 32)], false, [⟨0, 32, 0, .ro⟩]⟩,
  ⟨0xc0030, 1, [], false, [⟨0, 10, 0, .w1c⟩]⟩,
  ⟨0xc0040, 1, [(0x4, 10)], false, [⟨0, 13, 0, .ro⟩]⟩,
  ⟨0xc0070, 1, [], false, [⟨0, 18, 0, .w1c⟩]⟩,
  ⟨0xc0080, 1, [(0x4, 18)], false, [⟨0, 32, 0, .snap⟩]⟩]

/-- The registers of spec/06_phasor_estimation.md. -/
def regs06 : List RegD := [
  ⟨0x100000, 1, [], false, [⟨16, 16, 0x7d0, .st⟩, ⟨8, 1, 1, .st⟩, ⟨0, 3, 0, .st⟩]⟩,
  ⟨0x100004, 1, [], false, [⟨16, 11, 0, .ro⟩, ⟨0, 11, 0, .ro⟩]⟩,
  ⟨0x100008, 1, [], false, [⟨16, 16, 0, .ro⟩, ⟨0, 16, 0, .ro⟩]⟩,
  ⟨0x10000c, 1, [], false, [⟨16, 1, 0, .rw⟩, ⟨0, 10, 0, .rw⟩]⟩,
  ⟨0x100010, 1, [], false, [⟨0, 4, 0, .w1c⟩]⟩,
  ⟨0x100020, 1, [(0x4, 4)], false, [⟨0, 10, 0, .ro⟩]⟩,
  ⟨0x100030, 1, [], false, [⟨0, 7, 0, .w1c⟩]⟩,
  ⟨0x100040, 1, [(0x4, 7)], false, [⟨0, 32, 0, .snap⟩]⟩,
  ⟨0x100100, 1, [(0x4, 64)], false, [⟨0, 32, 0, .ro⟩]⟩]

/-- The registers of spec/07_stitcher_alignment.md. -/
def regs07 : List RegD := [
  ⟨0x110000, 1, [], false, [⟨31, 1, 0, .st⟩, ⟨27, 4, 0, .st⟩, ⟨12, 15, 0x7d0, .st⟩]⟩,
  ⟨0x110004, 1, [], false, [⟨24, 8, 0, .st⟩, ⟨0, 17, 0x1f4, .st⟩]⟩,
  ⟨0x110008, 1, [], false, [⟨0, 9, 0xa0, .st⟩]⟩,
  ⟨0x110010, 1, [(0x4, 8)], false, [⟨24, 8, 0, .st⟩, ⟨23, 1, 1, .st⟩, ⟨0, 21, 0x61a8, .st⟩]⟩,
  ⟨0x110030, 1, [], false, [⟨31, 1, 0, .ro⟩, ⟨0, 14, 0, .ro⟩]⟩,
  ⟨0x110034, 1, [], false, [⟨0, 32, 0, .ro⟩]⟩,
  ⟨0x110040, 3, [], true, [⟨32, 48, 0, .snap⟩, ⟨0, 30, 0, .snap⟩]⟩,
  ⟨0x110050, 1, [], false, [⟨0, 10, 0, .w1c⟩]⟩,
  ⟨0x110054, 1, [], false, [⟨0, 13, 0, .w1c⟩]⟩,
  ⟨0x110058, 1, [], false, [⟨0, 13, 0, .rw⟩]⟩,
  ⟨0x11005c, 1, [], false, [⟨31, 1, 0, .ro⟩, ⟨29, 2, 0, .ro⟩, ⟨28, 1, 0, .ro⟩, ⟨0, 22, 0, .ro⟩]⟩,
  ⟨0x110060, 1, [], false, [⟨0, 16, 0, .ro⟩]⟩,
  ⟨0x110064, 1, [(0x4, 10)], false, [⟨0, 13, 0, .ro⟩]⟩,
  ⟨0x110100, 1, [(0x4, 13)], false, [⟨0, 32, 0, .snap⟩]⟩]

/-- The registers of spec/08_topology_and_state_estimation.md. -/
def regs08 : List RegD := [
  ⟨0x120000, 1, [], false, [⟨31, 1, 0, .st⟩, ⟨30, 1, 0, .st⟩, ⟨29, 1, 0, .st⟩, ⟨28, 1, 1, .st⟩, ⟨16, 5, 4, .st⟩, ⟨8, 6, 0x20, .st⟩]⟩,
  ⟨0x120004, 1, [], false, [⟨16, 16, 0x78, .st⟩, ⟨0, 16, 0x190, .st⟩]⟩,
  ⟨0x120008, 1, [], false, [⟨31, 1, 0, .ro⟩, ⟨30, 1, 0, .ro⟩, ⟨28, 2, 0, .ro⟩, ⟨14, 14, 0, .ro⟩, ⟨0, 14, 0, .ro⟩]⟩,
  ⟨0x12000c, 1, [], false, [⟨18, 14, 0, .ro⟩, ⟨0, 17, 0, .ro⟩]⟩,
  ⟨0x120010, 1, [], false, [⟨0, 32, 0, .ro⟩]⟩,
  ⟨0x120014, 1, [], false, [⟨0, 32, 0, .ro⟩]⟩,
  ⟨0x120018, 1, [], false, [⟨0, 32, 0, .ro⟩]⟩,
  ⟨0x120020, 1, [], false, [⟨0, 16, 0, .rw⟩]⟩,
  ⟨0x120024, 1, [], false, [⟨31, 1, 0, .ro⟩, ⟨30, 1, 0, .ro⟩, ⟨0, 16, 0, .ro⟩]⟩,
  ⟨0x120030, 1, [], false, [⟨0, 8, 0, .w1c⟩]⟩,
  ⟨0x120040, 1, [(0x4, 8)], false, [⟨0, 16, 0, .ro⟩]⟩,
  ⟨0x120060, 1, [], false, [⟨0, 10, 0, .w1c⟩]⟩,
  ⟨0x120080, 1, [(0x4, 10)], false, [⟨0, 32, 0, .snap⟩]⟩]

/-- The registers of spec/09_mode_tracking.md. -/
def regs09 : List RegD := [
  ⟨0x130000, 1, [], false, [⟨31, 1, 0, .st⟩, ⟨0, 16, 0x18, .st⟩]⟩,
  ⟨0x130004, 1, [], false, [⟨16, 16, 0, .ro⟩, ⟨0, 16, 0, .ro⟩]⟩,
  ⟨0x130008, 1, [], false, [⟨0, 16, 0, .ro⟩]⟩,
  ⟨0x130010, 2, [], false, [⟨0, 64, 0, .ro⟩]⟩,
  ⟨0x130020, 1, [], false, [⟨0, 8, 0, .w1c⟩]⟩,
  ⟨0x130030, 1, [(0x4, 8)], false, [⟨16, 4, 0, .ro⟩, ⟨0, 16, 0, .ro⟩]⟩,
  ⟨0x130060, 1, [], false, [⟨0, 8, 0, .w1c⟩]⟩,
  ⟨0x130080, 1, [(0x4, 8)], false, [⟨0, 32, 0, .snap⟩]⟩,
  ⟨0x130100, 1, [(0x10, 16)], false, [⟨31, 1, 0, .st⟩, ⟨30, 1, 0, .st⟩, ⟨28, 2, 1, .st⟩, ⟨16, 5, 8, .st⟩, ⟨0, 7, 0x10, .st⟩]⟩,
  ⟨0x130104, 1, [(0x10, 16)], false, [⟨16, 16, 0x258, .st⟩, ⟨0, 16, 0x3c, .st⟩]⟩,
  ⟨0x130108, 1, [(0x10, 16)], false, [⟨24, 8, 0xf, .st⟩, ⟨16, 8, 4, .st⟩, ⟨8, 8, 3, .st⟩, ⟨0, 8, 8, .st⟩]⟩,
  ⟨0x13010c, 1, [(0x10, 16)], false, [⟨24, 8, 0, .ro⟩, ⟨21, 3, 0, .ro⟩, ⟨20, 1, 0, .ro⟩, ⟨19, 1, 0, .ro⟩, ⟨10, 9, 0, .ro⟩]⟩]

/-- The registers of spec/10_islanding_and_alarms.md. -/
def regs10 : List RegD := [
  ⟨0x140000, 1, [], false, [⟨31, 1, 0, .st⟩, ⟨30, 1, 0, .st⟩, ⟨29, 1, 0, .st⟩, ⟨28, 1, 0, .st⟩, ⟨0, 8, 2, .st⟩]⟩,
  ⟨0x140004, 1, [], false, [⟨16, 16, 1, .st⟩, ⟨0, 14, 0, .st⟩]⟩,
  ⟨0x140008, 1, [], false, [⟨21, 11, 0x3c, .st⟩, ⟨11, 10, 0, .st⟩, ⟨1, 10, 3, .st⟩]⟩,
  ⟨0x14000c, 1, [], false, [⟨16, 16, 0xc8, .st⟩, ⟨0, 16, 0x3e8, .st⟩]⟩,
  ⟨0x140010, 1, [], false, [⟨16, 16, 0x7d0, .st⟩, ⟨8, 8, 6, .st⟩]⟩,
  ⟨0x140014, 1, [], false, [⟨24, 8, 0, .ro⟩, ⟨16, 8, 0, .ro⟩, ⟨8, 8, 0, .ro⟩, ⟨0, 8, 0, .ro⟩]⟩,
  ⟨0x140018, 1, [], false, [⟨16, 16, 0, .ro⟩, ⟨0, 16, 0, .ro⟩]⟩,
  ⟨0x14001c, 1, [], false, [⟨0, 12, 0, .w1c⟩]⟩,
  ⟨0x140020, 1, [], false, [⟨0, 16, 0x78, .st⟩]⟩,
  ⟨0x140040, 1, [(0x4, 8)], false, [⟨0, 32, 0, .ro⟩]⟩,
  ⟨0x140060, 1, [(0x4, 12)], false, [⟨0, 16, 0, .ro⟩]⟩,
  ⟨0x140090, 1, [], false, [⟨0, 11, 0, .w1c⟩]⟩,
  ⟨0x1400a0, 1, [(0x4, 11)], false, [⟨0, 32, 0, .snap⟩]⟩,
  ⟨0x140100, 1, [(0x4, 16)], false, [⟨31, 1, 0, .st⟩, ⟨30, 1, 0, .st⟩]⟩,
  ⟨0x140140, 1, [(0x4, 8)], false, [⟨0, 32, 0, .ro⟩]⟩,
  ⟨0x140400, 1, [(0x4, 256)], false, [⟨31, 1, 0, .st⟩, ⟨30, 1, 0, .st⟩, ⟨29, 1, 0, .st⟩, ⟨16, 4, 0, .st⟩]⟩]

/-- The registers of spec/11_capture_and_triggers.md. -/
def regs11 : List RegD := [
  ⟨0x150000, 1, [], false, [⟨0, 16, 0, .st⟩]⟩,
  ⟨0x150004, 1, [], false, [⟨31, 1, 0, .st⟩, ⟨30, 1, 0, .rw⟩, ⟨29, 1, 0, .ro⟩, ⟨28, 1, 0, .ro⟩, ⟨0, 16, 0, .st⟩]⟩,
  ⟨0x150008, 1, [], false, [⟨0, 24, 0, .ro⟩]⟩,
  ⟨0x15000c, 1, [], false, [⟨0, 16, 0, .ro⟩]⟩,
  ⟨0x150010, 1, [(0x4, 8)], false, [⟨30, 2, 0, .st⟩, ⟨20, 10, 0, .st⟩, ⟨0, 16, 0, .st⟩]⟩,
  ⟨0x150040, 3, [(0x10, 8)], true, [⟨32, 48, 0, .snap⟩, ⟨0, 30, 0, .snap⟩]⟩,
  ⟨0x1500c0, 1, [(0x4, 4)], false, [⟨30, 2, 0, .st⟩, ⟨27, 3, 0, .st⟩, ⟨0, 20, 0xa, .st⟩]⟩,
  ⟨0x1500d0, 1, [], false, [⟨31, 1, 0, .wo⟩, ⟨30, 1, 0, .ro⟩, ⟨24, 2, 0, .rw⟩, ⟨16, 8, 0, .rw⟩]⟩,
  ⟨0x1500e0, 1, [(0x4, 8)], false, [⟨31, 1, 0, .ro⟩, ⟨0, 24, 0, .ro⟩]⟩,
  ⟨0x150100, 1, [(0x10, 8)], false, [⟨16, 16, 0, .ro⟩, ⟨8, 8, 0, .ro⟩]⟩,
  ⟨0x150104, 1, [(0x10, 8)], false, [⟨0, 32, 0, .ro⟩]⟩,
  ⟨0x150108, 1, [(0x10, 8)], false, [⟨0, 32, 0, .ro⟩]⟩,
  ⟨0x150200, 1, [], false, [⟨0, 11, 0, .w1c⟩]⟩,
  ⟨0x150210, 1, [(0x4, 11)], false, [⟨0, 3, 0, .ro⟩]⟩,
  ⟨0x150240, 1, [], false, [⟨0, 8, 0, .w1c⟩]⟩,
  ⟨0x150280, 1, [(0x4, 8)], false, [⟨0, 32, 0, .snap⟩]⟩]

/-- The registers of spec/12_publication.md. -/
def regs12 : List RegD := [
  ⟨0x160000, 1, [], false, [⟨8, 8, 0x3c, .st⟩, ⟨0, 8, 0x10, .st⟩]⟩,
  ⟨0x160010, 1, [(0x4, 5)], false, [⟨31, 1, 0, .st⟩, ⟨29, 2, 0, .st⟩, ⟨16, 6, 0, .st⟩, ⟨0, 16, 1, .st⟩]⟩,
  ⟨0x160030, 2, [], false, [⟨0, 64, 0, .ro⟩]⟩,
  ⟨0x160070, 1, [], false, [⟨0, 6, 0, .w1c⟩]⟩,
  ⟨0x160080, 1, [(0x4, 6)], false, [⟨0, 32, 0, .snap⟩]⟩]

/-- The registers of spec/13_field_sensor_link.md. -/
def regs13 : List RegD := [
  ⟨0x170000, 1, [(0x100, 2)], false, [⟨31, 1, 0, .st⟩, ⟨29, 2, 0, .st⟩, ⟨16, 8, 0xb, .st⟩, ⟨8, 8, 0, .st⟩, ⟨4, 4, 8, .st⟩, ⟨0, 4, 6, .st⟩]⟩,
  ⟨0x170004, 1, [(0x100, 2)], false, [⟨16, 16, 0, .st⟩, ⟨0, 16, 0, .st⟩]⟩,
  ⟨0x170008, 2, [(0x100, 2)], false, [⟨0, 64, 0, .st⟩]⟩,
  ⟨0x170010, 1, [(0x100, 2)], false, [⟨16, 16, 0xfa0, .st⟩, ⟨0, 10, 0, .st⟩]⟩,
  ⟨0x170014, 1, [(0x100, 2)], false, [⟨16, 16, 0x1f4, .st⟩, ⟨8, 8, 0x28, .st⟩, ⟨0, 8, 8, .st⟩]⟩,
  ⟨0x170018, 1, [(0x100, 2)], false, [⟨16, 8, 1, .st⟩, ⟨8, 3, 5, .st⟩, ⟨0, 8, 0, .st⟩]⟩,
  ⟨0x17001c, 1, [(0x100, 2)], false, [⟨16, 16, 0, .st⟩, ⟨0, 16, 0, .st⟩]⟩,
  ⟨0x170020, 3, [(0x100, 2)], false, [⟨32, 48, 0, .st⟩, ⟨0, 30, 0, .st⟩]⟩,
  ⟨0x170030, 1, [(0x100, 2)], false, [⟨3, 1, 0, .ro⟩, ⟨2, 1, 0, .ro⟩, ⟨1, 1, 0, .ro⟩, ⟨0, 1, 0, .ro⟩]⟩,
  ⟨0x170034, 1, [(0x100, 2)], false, [⟨0, 32, 0, .ro⟩]⟩,
  ⟨0x170400, 1, [], false, [⟨0, 10, 0, .w1c⟩]⟩,
  ⟨0x170410, 1, [(0x4, 10)], false, [⟨0, 10, 0, .ro⟩]⟩,
  ⟨0x170440, 1, [], false, [⟨0, 10, 0, .rw⟩]⟩,
  ⟨0x170444, 1, [], false, [⟨30, 2, 0, .ro⟩, ⟨29, 1, 0, .ro⟩, ⟨8, 3, 0, .ro⟩, ⟨0, 8, 0, .ro⟩]⟩,
  ⟨0x170448, 1, [], false, [⟨0, 32, 0, .ro⟩]⟩,
  ⟨0x170460, 1, [], false, [⟨0, 12, 0, .w1c⟩]⟩,
  ⟨0x170480, 1, [(0x4, 12)], false, [⟨0, 32, 0, .snap⟩]⟩]

/-- The registers of spec/14_engines_scheduler_and_queues.md. -/
def regs14 : List RegD := [
  ⟨0x180000, 1, [], false, [⟨31, 1, 0, .st⟩, ⟨30, 1, 0, .st⟩, ⟨29, 1, 0, .rw⟩, ⟨16, 10, 0xc8, .st⟩]⟩,
  ⟨0x180004, 1, [], false, [⟨16, 7, 0, .ro⟩, ⟨0, 7, 0, .ro⟩]⟩,
  ⟨0x180008, 1, [], false, [⟨16, 16, 0, .ro⟩, ⟨0, 16, 0, .ro⟩]⟩,
  ⟨0x180010, 2, [], true, [⟨0, 64, 0, .snap⟩]⟩,
  ⟨0x180020, 1, [(0x4, 16)], false, [⟨16, 10, 0, .ro⟩, ⟨0, 16, 0, .ro⟩]⟩,
  ⟨0x180060, 1, [], false, [⟨0, 6, 0, .rw⟩]⟩,
  ⟨0x180064, 1, [], false, [⟨28, 4, 0, .ro⟩, ⟨24, 4, 0, .ro⟩, ⟨23, 1, 0, .ro⟩, ⟨22, 1, 0, .ro⟩, ⟨19, 3, 0, .ro⟩]⟩,
  ⟨0x180068, 1, [], false, [⟨0, 32, 0, .ro⟩]⟩,
  ⟨0x180070, 1, [], false, [⟨0, 11, 0, .rw⟩]⟩,
  ⟨0x180074, 1, [], false, [⟨31, 1, 0, .w1c⟩, ⟨30, 1, 0, .w1c⟩, ⟨29, 1, 0, .ro⟩, ⟨28, 1, 0, .ro⟩, ⟨23, 5, 0, .ro⟩, ⟨0, 18, 0, .ro⟩]⟩,
  ⟨0x180078, 1, [], false, [⟨20, 12, 0, .ro⟩, ⟨0, 20, 0, .ro⟩]⟩,
  ⟨0x18007c, 1, [], false, [⟨0, 1, 0, .rw⟩]⟩,
  ⟨0x180080, 1, [], false, [⟨16, 16, 0, .ro⟩, ⟨8, 8, 0, .ro⟩, ⟨0, 8, 0, .ro⟩]⟩,
  ⟨0x180090, 1, [], false, [⟨0, 11, 0, .w1c⟩]⟩,
  ⟨0x1800a0, 1, [(0x4, 11)], false, [⟨0, 11, 0, .ro⟩]⟩,
  ⟨0x1800f0, 1, [], false, [⟨0, 12, 0, .w1c⟩]⟩,
  ⟨0x180100, 1, [(0x4, 12)], false, [⟨0, 32, 0, .snap⟩]⟩]

/-- The registers of spec/15_host_rings_and_doorbells.md. -/
def regs15 : List RegD := [
  ⟨0x10000, 1, [], false, [⟨0, 1, 0, .rw⟩]⟩,
  ⟨0x10008, 2, [], false, [⟨8, 40, 0, .rw⟩]⟩,
  ⟨0x10010, 2, [], false, [⟨8, 40, 0, .rw⟩]⟩,
  ⟨0x10018, 2, [], false, [⟨3, 45, 0, .rw⟩]⟩,
  ⟨0x10020, 1, [], false, [⟨31, 1, 0, .rw⟩, ⟨0, 8, 2, .rw⟩]⟩,
  ⟨0x10024, 1, [], false, [⟨31, 1, 0, .wo⟩, ⟨0, 6, 0, .wo⟩]⟩,
  ⟨0x10030, 1, [(0x4, 4)], false, [⟨31, 1, 0, .rw⟩, ⟨0, 6, 0, .rw⟩]⟩,
  ⟨0x10040, 1, [], false, [⟨0, 4, 0, .w1c⟩]⟩,
  ⟨0x10050, 1, [(0x4, 4)], false, [⟨0, 6, 0, .ro⟩]⟩,
  ⟨0x10060, 1, [], false, [⟨0, 10, 0, .w1c⟩]⟩,
  ⟨0x10080, 1, [(0x4, 10)], false, [⟨0, 32, 0, .snap⟩]⟩,
  ⟨0x10400, 1, [(0x4, 256)], false, [⟨31, 1, 0, .rw⟩, ⟨0, 2, 0, .rw⟩]⟩,
  ⟨0x11000, 2, [(0x20, 64)], false, [⟨6, 42, 0, .rw⟩]⟩,
  ⟨0x11008, 2, [(0x20, 64)], false, [⟨6, 42, 0, .rw⟩]⟩,
  ⟨0x11010, 1, [(0x20, 64)], false, [⟨31, 1, 0, .rw⟩, ⟨28, 3, 0, .rw⟩, ⟨24, 4, 4, .rw⟩, ⟨20, 4, 4, .rw⟩, ⟨15, 5, 0xc, .rw⟩]⟩,
  ⟨0x11014, 1, [(0x20, 64)], false, [⟨31, 1, 0, .rw⟩, ⟨24, 6, 0, .rw⟩, ⟨16, 8, 1, .rw⟩, ⟨0, 10, 0, .rw⟩]⟩,
  ⟨0x11018, 1, [(0x20, 64)], false, [⟨31, 1, 0, .ro⟩, ⟨30, 1, 0, .w1c⟩, ⟨29, 1, 0, .w1c⟩, ⟨28, 1, 0, .ro⟩, ⟨27, 1, 0, .ro⟩, ⟨16, 9, 0, .ro⟩, ⟨0, 16, 0, .ro⟩]⟩]

/-- The registers of spec/16_translation_dma_and_faults.md. -/
def regs16 : List RegD := [
  ⟨0x20000, 1, [], false, [⟨0, 1, 0, .rw⟩]⟩,
  ⟨0x20008, 2, [], false, [⟨12, 40, 0, .rw⟩]⟩,
  ⟨0x20010, 1, [], false, [⟨3, 1, 0, .ro⟩, ⟨2, 1, 0, .w1c⟩, ⟨1, 1, 0, .w1c⟩, ⟨0, 1, 0, .ro⟩]⟩,
  ⟨0x20018, 2, [], false, [⟨12, 40, 0, .rw⟩, ⟨0, 4, 0, .rw⟩]⟩,
  ⟨0x20020, 1, [], false, [⟨0, 16, 0, .rw⟩]⟩,
  ⟨0x20024, 1, [], false, [⟨0, 16, 0, .ro⟩]⟩,
  ⟨0x20028, 2, [], false, [⟨63, 1, 0, .wo⟩, ⟨12, 36, 0, .wo⟩, ⟨0, 6, 0, .wo⟩]⟩,
  ⟨0x20030, 1, [], false, [⟨16, 16, 0, .ro⟩, ⟨0, 16, 0, .ro⟩]⟩,
  ⟨0x20034, 1, [], false, [⟨31, 1, 0, .wo⟩, ⟨8, 1, 0, .wo⟩, ⟨0, 7, 0, .wo⟩]⟩,
  ⟨0x20038, 1, [], false, [⟨0, 8, 0, .ro⟩]⟩,
  ⟨0x20040, 1, [], false, [⟨0, 7, 0, .rw⟩]⟩,
  ⟨0x20044, 1, [], false, [⟨31, 1, 0, .ro⟩, ⟨28, 3, 0, .ro⟩, ⟨26, 2, 0, .ro⟩, ⟨25, 1, 0, .ro⟩, ⟨0, 16, 0, .ro⟩]⟩,
  ⟨0x20048, 2, [], false, [⟨0, 48, 0, .ro⟩]⟩,
  ⟨0x20060, 1, [], false, [⟨0, 4, 0, .w1c⟩]⟩,
  ⟨0x20064, 1, [], false, [⟨0, 6, 0, .w1c⟩]⟩,
  ⟨0x20080, 1, [(0x4, 6)], false, [⟨0, 32, 0, .snap⟩]⟩]

/-- The registers of spec/17_pairs_witness_and_rope_teams.md. -/
def regs17 : List RegD := [
  ⟨0x190000, 1, [], false, [⟨31, 1, 0, .rw⟩, ⟨28, 3, 0, .rw⟩, ⟨24, 4, 1, .rw⟩, ⟨20, 4, 1, .rw⟩, ⟨19, 1, 0, .rw⟩, ⟨0, 16, 0x64, .rw⟩]⟩,
  ⟨0x190004, 1, [], false, [⟨16, 16, 0, .ro⟩, ⟨12, 4, 0, .ro⟩, ⟨11, 1, 0, .ro⟩, ⟨10, 1, 0, .ro⟩, ⟨9, 1, 0, .w1c⟩, ⟨8, 1, 0, .w1c⟩, ⟨0, 3, 0, .ro⟩]⟩,
  ⟨0x190008, 1, [], false, [⟨16, 16, 0, .ro⟩, ⟨0, 16, 0xffff, .ro⟩]⟩,
  ⟨0x190010, 1, [], false, [⟨16, 16, 0x3e8, .rw⟩, ⟨12, 4, 2, .rw⟩, ⟨8, 4, 1, .rw⟩, ⟨0, 8, 0, .rw⟩]⟩,
  ⟨0x190014, 1, [], false, [⟨0, 21, 0x1388, .rw⟩]⟩,
  ⟨0x190018, 2, [], false, [⟨4, 60, 0, .rw⟩]⟩,
  ⟨0x190020, 1, [(0x4, 4)], false, [⟨31, 1, 0, .rw⟩, ⟨29, 2, 0, .ro⟩, ⟨24, 4, 0, .ro⟩]⟩,
  ⟨0x190040, 1, [], false, [⟨0, 16, 0, .w1c⟩]⟩,
  ⟨0x190044, 1, [], false, [⟨0, 11, 0, .w1c⟩]⟩,
  ⟨0x190080, 1, [(0x4, 11)], false, [⟨0, 32, 0, .snap⟩]⟩]

/-- The registers of spec/18_functional_safety.md. -/
def regs18 : List RegD := [
  ⟨0x1a0000, 1, [], false, [⟨0, 8, 0xa, .st⟩]⟩,
  ⟨0x1a0004, 1, [], false, [⟨31, 1, 0, .ro⟩, ⟨30, 1, 0, .ro⟩, ⟨16, 8, 0, .ro⟩, ⟨8, 8, 0, .ro⟩]⟩,
  ⟨0x1a0008, 3, [], true, [⟨32, 48, 0, .snap⟩, ⟨0, 30, 0, .snap⟩]⟩,
  ⟨0x1a0014, 1, [], false, [⟨16, 16, 0x7d0, .st⟩, ⟨0, 16, 0x64, .st⟩]⟩,
  ⟨0x1a0018, 1, [], false, [⟨16, 8, 0, .ro⟩, ⟨0, 16, 0, .ro⟩]⟩,
  ⟨0x1a001c, 1, [], false, [⟨0, 32, 0, .wo⟩]⟩,
  ⟨0x1a0020, 1, [], false, [⟨0, 16, 0, .ro⟩]⟩,
  ⟨0x1a0030, 1, [], false, [⟨0, 16, 0, .w1c⟩]⟩,
  ⟨0x1a0034, 1, [], false, [⟨0, 4, 0, .w1c⟩]⟩,
  ⟨0x1a0040, 1, [(0x4, 4)], false, [⟨0, 32, 0, .snap⟩]⟩]

/-- The registers of spec/19_keys_attestation_and_tamper.md. -/
def regs19 : List RegD := [
  ⟨0x1b0000, 1, [], false, [⟨16, 9, 0, .ro⟩, ⟨7, 1, 1, .w1c⟩, ⟨6, 1, 0, .w1c⟩, ⟨5, 1, 0, .ro⟩, ⟨4, 1, 0, .w1c⟩, ⟨0, 2, 0, .ro⟩]⟩,
  ⟨0x1b0008, 2, [], false, [⟨0, 64, 0, .ro⟩]⟩,
  ⟨0x1b0010, 2, [], false, [⟨0, 64, 0, .ro⟩]⟩,
  ⟨0x1b0018, 1, [], false, [⟨24, 8, 0xa, .st⟩, ⟨16, 4, 0xf, .st⟩, ⟨4, 4, 0, .st⟩, ⟨0, 4, 0, .st⟩]⟩,
  ⟨0x1b001c, 1, [], false, [⟨31, 1, 0, .w1c⟩, ⟨0, 8, 0, .w1c⟩]⟩,
  ⟨0x1b0020, 3, [], true, [⟨32, 48, 0, .snap⟩, ⟨0, 30, 0, .snap⟩]⟩,
  ⟨0x1b002c, 1, [], false, [⟨24, 8, 0, .ro⟩, ⟨0, 16, 0, .ro⟩]⟩,
  ⟨0x1b0030, 1, [], false, [⟨0, 8, 0, .rw⟩]⟩,
  ⟨0x1b0040, 1, [(0x4, 8)], false, [⟨0, 32, 0, .ro⟩]⟩,
  ⟨0x1b0060, 1, [], false, [⟨0, 8, 0, .w1c⟩]⟩,
  ⟨0x1b0064, 1, [], false, [⟨0, 6, 0, .w1c⟩]⟩,
  ⟨0x1b0080, 1, [(0x4, 6)], false, [⟨0, 32, 0, .snap⟩]⟩]

/-- The registers of spec/20_start_up_reset_and_bivouac.md. -/
def regs20 : List RegD := [
  ⟨0x1d0000, 1, [], false, [⟨24, 4, 0, .ro⟩, ⟨15, 1, 0, .ro⟩, ⟨12, 2, 0, .ro⟩, ⟨0, 4, 1, .ro⟩]⟩,
  ⟨0x1d0004, 1, [], false, [⟨0, 32, 0, .wo⟩]⟩,
  ⟨0x1d0008, 1, [], false, [⟨31, 1, 0, .wo⟩, ⟨0, 8, 0, .wo⟩]⟩,
  ⟨0x1d000c, 1, [], false, [⟨31, 1, 0, .ro⟩, ⟨30, 1, 0, .w1c⟩, ⟨0, 8, 0, .ro⟩]⟩,
  ⟨0x1d0010, 1, [], false, [⟨31, 1, 0, .st⟩, ⟨16, 8, 0x14, .st⟩, ⟨0, 16, 0x7d0, .st⟩]⟩,
  ⟨0x1d0014, 1, [], false, [⟨31, 1, 0, .st⟩, ⟨30, 1, 0, .st⟩, ⟨24, 4, 0, .st⟩]⟩,
  ⟨0x1d0018, 1, [], false, [⟨0, 32, 0, .st⟩]⟩,
  ⟨0x1d001c, 1, [], false, [⟨31, 1, 0, .ro⟩, ⟨0, 24, 0, .ro⟩]⟩,
  ⟨0x1d0020, 1, [], false, [⟨24, 8, 0, .ro⟩, ⟨16, 8, 0, .ro⟩, ⟨8, 6, 0, .ro⟩, ⟨0, 3, 0, .ro⟩]⟩,
  ⟨0x1d0030, 3, [], true, [⟨32, 48, 0, .snap⟩, ⟨0, 30, 0, .snap⟩]⟩,
  ⟨0x1d0040, 3, [], true, [⟨32, 48, 0, .snap⟩, ⟨0, 30, 0, .snap⟩]⟩]

/-- The registers of spec/21_firmware_update.md. -/
def regs21 : List RegD := [
  ⟨0x1c0000, 1, [], false, [⟨24, 8, 0, .ro⟩, ⟨16, 8, 0, .ro⟩, ⟨12, 4, 0, .ro⟩, ⟨8, 1, 0, .ro⟩, ⟨0, 3, 0, .ro⟩]⟩,
  ⟨0x1c0004, 1, [], false, [⟨3, 1, 0, .ro⟩, ⟨2, 1, 0, .ro⟩, ⟨1, 1, 0, .ro⟩, ⟨0, 1, 0, .ro⟩]⟩,
  ⟨0x1c0008, 1, [], false, [⟨0, 32, 0, .ro⟩]⟩,
  ⟨0x1c000c, 1, [], false, [⟨0, 32, 0, .ro⟩]⟩,
  ⟨0x1c0010, 1, [], false, [⟨16, 4, 0, .ro⟩, ⟨0, 16, 0, .ro⟩]⟩,
  ⟨0x1c0014, 1, [], false, [⟨16, 16, 0, .ro⟩, ⟨1, 1, 0, .ro⟩, ⟨0, 1, 0, .ro⟩]⟩,
  ⟨0x1c0020, 3, [], true, [⟨32, 48, 0, .snap⟩, ⟨0, 30, 0, .snap⟩]⟩,
  ⟨0x1c0040, 1, [], false, [⟨0, 8, 0, .w1c⟩]⟩,
  ⟨0x1c0044, 1, [], false, [⟨0, 4, 0, .w1c⟩]⟩,
  ⟨0x1c0080, 1, [(0x4, 4)], false, [⟨0, 32, 0, .snap⟩]⟩]

/-- The registers of spec/22_errors_and_the_cairn.md. -/
def regs22 : List RegD := [
  ⟨0x1e0000, 1, [], false, [⟨31, 1, 0, .rw⟩, ⟨0, 16, 0x7d0, .rw⟩]⟩,
  ⟨0x1e0004, 1, [], false, [⟨31, 1, 0, .ro⟩, ⟨30, 1, 0, .ro⟩, ⟨29, 1, 0, .ro⟩, ⟨28, 1, 0, .w1c⟩, ⟨0, 8, 0, .ro⟩]⟩,
  ⟨0x1e0008, 1, [], false, [⟨0, 32, 0, .ro⟩]⟩,
  ⟨0x1e000c, 1, [], false, [⟨0, 32, 0, .ro⟩]⟩,
  ⟨0x1e0010, 1, [], false, [⟨0, 6, 0, .rw⟩]⟩,
  ⟨0x1e0014, 1, [], false, [⟨0, 16, 0, .ro⟩]⟩,
  ⟨0x1e0020, 1, [(0x4, 8)], false, [⟨0, 32, 0, .ro⟩]⟩,
  ⟨0x1e0040, 1, [], false, [⟨31, 1, 0, .wo⟩, ⟨16, 3, 0, .wo⟩, ⟨0, 2, 0, .wo⟩]⟩,
  ⟨0x1e0050, 1, [], false, [⟨0, 8, 0, .w1c⟩]⟩,
  ⟨0x1e0054, 1, [], false, [⟨0, 5, 0, .w1c⟩]⟩,
  ⟨0x1e0080, 1, [(0x4, 5)], false, [⟨0, 32, 0, .snap⟩]⟩]

/-- Every register of the index (R480, R482). -/
def regTable : List RegD :=
  regs00 ++ regs02 ++ regs03 ++ regs04 ++ regs05 ++ regs06 ++ regs07 ++ regs08 ++ regs09 ++ regs10 ++ regs11 ++ regs12 ++ regs13 ++ regs14 ++ regs15 ++ regs16 ++ regs17 ++ regs18 ++ regs19 ++ regs20 ++ regs21 ++ regs22

/-- Byte offset of the array element of `d` that holds the word at `a`, if any. -/
def RegD.elemBase (d : RegD) (a : Nat) : Option Nat :=
  if a < d.base then none else
  match d.dims with
  | [] => if a - d.base < 4 * d.words then some d.base else none
  | [(s, n)] =>
    let o := a - d.base
    if o / s < n ∧ o % s < 4 * d.words then some (d.base + s * (o / s)) else none
  | (s, n) :: (t, m) :: _ =>
    let o := a - d.base
    let o2 := o % s
    if o / s < n ∧ o2 / t < m ∧ o2 % t < 4 * d.words then some (d.base + s * (o / s) + t * (o2 / t)) else none

/-- The descriptor and element base of the register that holds the word at `a`. -/
def findRegIn (a : Nat) : List RegD → Option (RegD × Nat)
  | [] => none
  | d :: ds =>
    match d.elemBase a with
    | some b => some (d, b)
    | none => findRegIn a ds

/-- The descriptor and element base of the register that holds the word at `a` (none: R482). -/
def findReg (a : Nat) : Option (RegD × Nat) := findRegIn a regTable

/-- A descriptor's field as the named field at element base `b`. -/
def FldD.at (f : FldD) (b : Nat) : Fld := ⟨8 * b + f.lo, f.width, f.rst, f.acc⟩

/-- The named fields of the register at `a`, with their keys. -/
def fieldsAt (a : Nat) : List Fld :=
  match findReg a with
  | some (d, b) => d.fields.map (fun f => f.at b)
  | none => []

end Sys2Proof.Machine
end

