-- ==== Sys2Proof/Machine/Blocks.lean ====
section
/-!
DEFINITION. The blocks' counters and event sources: which register counts, which HALF bit and source reports a
half range, and which cause bit an event source sets (the event and counter tables of spec/03 to spec/22).
-/
namespace Sys2Proof.Machine

/-- The blocks of BAR0 that hold counters with a HALF register of their own, PORT apart (R83). -/
inductive Blk where
  | ing | phe | stch | lse | osc | isl | cap | pub | fsl | sched | hif | xlt | pair | safe | key | upd | err
  deriving DecidableEq, Repr

/-- Counter i of a block. -/
def Blk.cnt (b : Blk) (i : Nat) : Fld :=
  match b with
  | .ing => Reg.ING_CNT_COUNT i
  | .phe => Reg.PHE_CNT_COUNT i
  | .stch => Reg.STCH_CNT_COUNT i
  | .lse => Reg.LSE_CNT_COUNT i
  | .osc => Reg.OSC_CNT_COUNT i
  | .isl => Reg.ISL_CNT_COUNT i
  | .cap => Reg.CAP_CNT_COUNT i
  | .pub => Reg.PUB_CNT_COUNT i
  | .fsl => Reg.FSL_CNT_COUNT i
  | .sched => Reg.SCHED_CNT_COUNT i
  | .hif => Reg.HIF_CNT_COUNT i
  | .xlt => Reg.XLT_CNT_COUNT i
  | .pair => Reg.PAIR_CNT_COUNT i
  | .safe => Reg.SAFE_CNT_COUNT i
  | .key => Reg.KEY_CNT_COUNT i
  | .upd => Reg.UPD_CNT_COUNT i
  | .err => Reg.ERR_CNT_COUNT i

/-- The HALF field of a block. -/
def Blk.half (b : Blk) : Fld :=
  match b with
  | .ing => Reg.ING_HALF_HALF
  | .phe => Reg.PHE_HALF_HALF
  | .stch => Reg.STCH_HALF_HALF
  | .lse => Reg.LSE_HALF_HALF
  | .osc => Reg.OSC_HALF_HALF
  | .isl => Reg.ISL_HALF_HALF
  | .cap => Reg.CAP_HALF_HALF
  | .pub => Reg.PUB_HALF_HALF
  | .fsl => Reg.FSL_HALF_HALF
  | .sched => Reg.SCHED_HALF_HALF
  | .hif => Reg.HIF_HALF_HALF
  | .xlt => Reg.XLT_HALF_HALF
  | .pair => Reg.PAIR_HALF_HALF
  | .safe => Reg.SAFE_HALF_HALF
  | .key => Reg.KEY_HALF_HALF
  | .upd => Reg.UPD_HALF_HALF
  | .err => Reg.ERR_HALF_HALF

/-- The source raised when a counter of the block passes half range. -/
def Blk.halfSource (b : Blk) : Nat :=
  match b with
  | .ing => 73
  | .phe => 127
  | .stch => 89
  | .lse => 103
  | .osc => 111
  | .isl => 123
  | .cap => 138
  | .pub => 243
  | .fsl => 153
  | .sched => 170
  | .hif => 243
  | .xlt => 247
  | .pair => 207
  | .safe => 223
  | .key => 231
  | .upd => 239
  | .err => 255

/-- The cause field and bit that an event source sets.  PORT sources set PORT_EVT, and TB sources have no cause
register. -/
def causeOf (src : Nat) : Option (Fld × Nat) :=
  if src < 64 then none
  else if src < 74 then some (Reg.ING_EVT_CAUSE, src - 64)
  else if src < 80 then none
  else if src < 90 then some (Reg.STCH_EVT_CAUSE, src - 80)
  else if src < 96 then none
  else if src < 104 then some (Reg.LSE_EVT_CAUSE, src - 96)
  else if src < 112 then some (Reg.OSC_EVT_CAUSE, src - 104)
  else if src < 124 then some (Reg.ISL_EVT_CAUSE, src - 112)
  else if src < 128 then some (Reg.PHE_EVT_CAUSE, src - 124)
  else if src < 139 then some (Reg.CAP_EVT_CAUSE, src - 128)
  else if src < 144 then none
  else if src < 154 then some (Reg.FSL_EVT_CAUSE, src - 144)
  else if src < 160 then none
  else if src < 171 then some (Reg.SCHED_EVT_CAUSE, src - 160)
  else if src < 192 then none
  else if src < 208 then some (Reg.PAIR_EVT_CAUSE, src - 192)
  else if src < 224 then some (Reg.SAFE_EVT_CAUSE, src - 208)
  else if src < 232 then some (Reg.KEY_EVT_CAUSE, src - 224)
  else if src < 240 then some (Reg.UPD_EVT_CAUSE, src - 232)
  else if src < 244 then some (Reg.HIF_EVT_CAUSE, src - 240)
  else if src < 248 then some (Reg.XLT_EVT_CAUSE, src - 244)
  else if src < 256 then some (Reg.ERR_EVT_CAUSE, src - 248)
  else none

/-- Cause bit k of PORT_EVT of port n: 0 LINK, 1 HALF, 2 PRP_EVICT, 3 TRUNC, 4 NOCELL, 5 WAKE (R87). -/
def portEvtBit (n k : Nat) : Fld := ⟨8 * (0x80034 + 0x1000 * n) + k, 1, 0, .w1c⟩

/-! Counter numbers, as the counter tables of the blocks' chapters give them. -/
namespace C

def PORT_RX_FRAMES : Nat := 0
def PORT_RX_OCTETS : Nat := 1
def PORT_RX_UCAST : Nat := 2
def PORT_RX_MCAST : Nat := 3
def PORT_RX_BCAST : Nat := 4
def PORT_RX_64 : Nat := 5
def PORT_RX_65_255 : Nat := 6
def PORT_RX_256_1518 : Nat := 7
def PORT_RX_1519_MAX : Nat := 8
def PORT_RX_FCS_ERR : Nat := 9
def PORT_RX_UNDERSIZE : Nat := 10
def PORT_RX_OVERSIZE : Nat := 11
def PORT_RX_PCS_ERR : Nat := 12
def PORT_RX_PAUSE : Nat := 13
def PORT_RX_DA_FILTERED : Nat := 14
def PORT_RX_PRP_DUP : Nat := 15
def PORT_RX_PRP_WRONG_LAN : Nat := 16
def PORT_RX_POLICED : Nat := 17
def PORT_RX_UNM_POLICED : Nat := 18
def PORT_RX_QUENCHED : Nat := 19
def PORT_RX_NOCELL : Nat := 20
def PORT_RX_TRUNC : Nat := 21
def PORT_RX_RING_NOBUF : Nat := 22
def PORT_TX_FRAMES : Nat := 23
def PORT_TX_OCTETS : Nat := 24
def PORT_TX_Q7 : Nat := 25
def PORT_TX_DROP : Nat := 26
def PORT_PRP_EVICT : Nat := 27
def PORT_WAKE_MATCH : Nat := 28
def ING_FRAMES : Nat := 0
def ING_PARSE_ERR : Nat := 1
def ING_IP_FRAG : Nat := 2
def ING_L4_CSUM : Nat := 3
def ING_NAME_MISMATCH : Nat := 4
def ING_WRONG_PORT : Nat := 5
def ING_AUTH_FAIL : Nat := 6
def ING_KEY_STALE : Nat := 7
def ING_REPLAY : Nat := 8
def ING_DUP : Nat := 9
def ING_OFF_GRID : Nat := 10
def ING_FUTURE : Nat := 11
def ING_TQ_FAULT : Nat := 12
def ING_FORMAT_MISMATCH : Nat := 13
def ING_CONFREV : Nat := 14
def ING_TCP_OOO : Nat := 15
def ING_ENCRYPTED : Nat := 16
def ING_NO_RING : Nat := 17
def PHE_SAMPLES : Nat := 0
def PHE_OUTPUTS : Nat := 1
def PHE_BRIDGED : Nat := 2
def PHE_NO_OUTPUT : Nat := 3
def PHE_LATE_SMP : Nat := 4
def PHE_MISMATCH : Nat := 5
def PHE_OUT_OF_RANGE : Nat := 6
def STCH_SLICES : Nat := 0
def STCH_COMPLETE : Nat := 1
def STCH_DEADLINE : Nat := 2
def STCH_REVISIONS : Nat := 3
def STCH_MATERIAL : Nat := 4
def STCH_LATE_ARR : Nat := 5
def STCH_BEYOND_HORIZON : Nat := 6
def STCH_REV_LIMIT : Nat := 7
def STCH_DUP_DISCARD : Nat := 8
def STCH_OFF_SLICE : Nat := 9
def STCH_DECIM_FALLBACK : Nat := 10
def STCH_STEP_RELEASE : Nat := 11
def STCH_STORE_STALL : Nat := 12
def LSE_RESULTS : Nat := 0
def LSE_NO_FACTOR : Nat := 1
def LSE_MISS_EXCESS : Nat := 2
def LSE_OBS_LOST : Nat := 3
def LSE_TOPO_CHANGES : Nat := 4
def LSE_REFACTORS : Nat := 5
def LSE_REFACTOR_FAIL : Nat := 6
def LSE_BAD_REMOVED : Nat := 7
def LSE_BD_UNRESOLVED : Nat := 8
def LSE_REEST_SKIPPED : Nat := 9
def OSC_UPDATES : Nat := 0
def OSC_REVISED : Nat := 1
def OSC_REV_OLD : Nat := 2
def OSC_SKIPPED : Nat := 3
def OSC_DROPS : Nat := 4
def OSC_FO_DECLARED : Nat := 5
def OSC_ALARMS_RAISED : Nat := 6
def OSC_HELD_VALUES : Nat := 7
def ISL_EVALS : Nat := 0
def ISL_RAISES : Nat := 1
def ISL_CLEARS : Nat := 2
def ISL_MISS_INPUT : Nat := 3
def ISL_REV_OLD : Nat := 4
def ISL_TOPO_DECL : Nat := 5
def ISL_COH_DECL : Nat := 6
def ISL_CONF_MISS : Nat := 7
def ISL_RECLUSTERS : Nat := 8
def ISL_GOOSE_FRAMES : Nat := 9
def ISL_GOOSE_DROP : Nat := 10
def CAP_FIRES : Nat := 0
def CAP_MERGED : Nat := 1
def CAP_MISSED : Nat := 2
def CAP_RECORDS : Nat := 3
def CAP_DRAINED : Nat := 4
def CAP_OVERFLOWS : Nat := 5
def CAP_TIN_EDGES : Nat := 6
def CAP_XFIRE_EDGES : Nat := 7
def PUB_OUT_FRAMES : Nat := 0
def PUB_OUT_DROPPED : Nat := 1
def PUB_CMD_REJECTED : Nat := 2
def PUB_ITEMS : Nat := 3
def PUB_DROPPED : Nat := 4
def PUB_CMD_RX : Nat := 5
def FSL_RX_FRAMES : Nat := 0
def FSL_ACCEPTED : Nat := 1
def FSL_SEC_FAIL : Nat := 2
def FSL_REPLAY : Nat := 3
def FSL_REPEAT : Nat := 4
def FSL_NO_SENSOR : Nat := 5
def FSL_FOREIGN : Nat := 6
def FSL_ACKS_SENT : Nat := 7
def FSL_DL_SENT : Nat := 8
def FSL_DL_DISCARDED : Nat := 9
def FSL_BCN_SENT : Nat := 10
def FSL_BCN_MISSED : Nat := 11
def SCHED_RUNS : Nat := 0
def SCHED_SKIPPED : Nat := 1
def SCHED_LATE_RUNS : Nat := 2
def SCHED_REV_OLD : Nat := 3
def SCHED_PREEMPTS : Nat := 4
def SCHED_AFF_HITS : Nat := 5
def SCHED_AFF_MISSES : Nat := 6
def SCHED_DELAY_FULL : Nat := 7
def SCHED_Q_OVERFLOW : Nat := 8
def SCHED_Q_UNDERRUN : Nat := 9
def SCHED_IDLE_READS : Nat := 10
def SCHED_PKT_DROPS : Nat := 11
def HIF_DESCRIPTORS : Nat := 0
def HIF_COMPLETIONS : Nat := 1
def HIF_POLLS : Nat := 2
def HIF_POLL_HITS : Nat := 3
def HIF_MMIO_NUDGES : Nat := 4
def HIF_CQ_WAITS : Nat := 5
def HIF_MISROUTED : Nat := 6
def HIF_EVT_COALESCED : Nat := 7
def HIF_DESC_INVALID : Nat := 8
def HIF_DB_ERRORS : Nat := 9
def XLT_WALKS : Nat := 0
def XLT_FAULTS : Nat := 1
def XLT_FRING_LOST : Nat := 2
def XLT_INVALIDATIONS : Nat := 3
def XLT_RESUMES : Nat := 4
def XLT_SKIPS : Nat := 5
def PAIR_HB_SENT : Nat := 0
def PAIR_HB_RECV : Nat := 1
def PAIR_HB_MISSED : Nat := 2
def PAIR_DIGEST_CMP : Nat := 3
def PAIR_DIGEST_MISMATCH : Nat := 4
def PAIR_DIGEST_SKIPPED : Nat := 5
def PAIR_WIT_FRAMES : Nat := 6
def PAIR_WIT_BAD : Nat := 7
def PAIR_LINK_RETRY : Nat := 8
def PAIR_SWITCHOVERS : Nat := 9
def PAIR_ROUTE_DISCARD : Nat := 10
def SAFE_DIAG_REPORTS : Nat := 0
def SAFE_ECC_SCRUB_PASSES : Nat := 1
def SAFE_PTESTS_RUN : Nat := 2
def SAFE_WDT_SERVICES : Nat := 3
def KEY_KEY_OPS : Nat := 0
def KEY_DERIVED : Nat := 1
def KEY_IMPORTED : Nat := 2
def KEY_INVALIDATED : Nat := 3
def KEY_STALE_OPS : Nat := 4
def KEY_ATTESTS : Nat := 5
def UPD_STAGED : Nat := 0
def UPD_REFUSED : Nat := 1
def UPD_COMMITS : Nat := 2
def UPD_FALLBACKS : Nat := 3
def ERR_CORRECTED : Nat := 0
def ERR_RECOVERED : Nat := 1
def ERR_PCIE_DATA : Nat := 2
def ERR_SCRUB_FIXED : Nat := 3
def ERR_LOG_LOST : Nat := 4
end C

end Sys2Proof.Machine
end

