-- ==== Sys2Proof/Config.lean ====
section
/-!
DEFINITION. What an implementation fixes and the values the spec leaves open.  A constant declared `opaque` has no
body: nothing can be proved of its value, and a claim about it holds for every value (notes/assumptions/10.md,
12 to 14, 18, 19, 45, 46, 52, 61 and 70).
-/
namespace Sys2Proof.Config

/-- Free values in the order in which the machine needs them: the n-th value that the spec leaves open. -/
opaque freeNat : Nat → Nat

/-- The manufacturing root in the fuses (R398). -/
opaque mfgRoot : Nat

/-- Time after which firmware sends an unacknowledged TCP segment again (R96), in nanoseconds. -/
opaque tcpRto : Nat

/-- The angle of a phasor that is 0 or has a part that is no number, for which the spec states none. -/
opaque noAngle : BitVec 32 → BitVec 32 → BitVec 32

/-- The number that an analysis takes for an FP32 pattern that is no finite number, for which the spec states none. -/
opaque realOf : BitVec 32 → Rat

/-- A field of a result record in a case for which the spec states no value: by field and record index. -/
opaque unstated : (field index : Nat) → Nat

/-! State estimation (R166): how the device orders and stores the factor L. -/

/-- The order of elimination of buses under the device's fill-reducing ordering, from the buses and the buses of every equation. -/
opaque lseOrder : (buses : List Nat) → (rows : List (List Nat)) → List Nat

/-- Bytes of L from the rows below the diagonal in each of its columns. -/
opaque lseBytes : (columns : List (List Nat)) → Nat

/-- Demand of the built-in analyses on a cluster in ns per second (R302), which firmware computes from the shadow: F_s, and
the numbers of enabled nodes, branches, measurements, signals and rules. -/
opaque builtinDemand : (fs nodes branches meas signals rules : Nat) → (cluster : Nat) → Nat

/-- Cell limit and reserved cells of an internal queue for which the spec gives none (R304). -/
opaque queueLimit : Nat → Nat × Nat

/-- Whether a queue crosses between two clocks (R305). -/
opaque queueDual : Nat → Bool

/-- How long a write pointer (`true`) or read pointer of a queue takes to reach the other domain, in its cycles: 3 at most (R305). -/
opaque queueCross : (queue pointer : Nat) → (write : Bool) → Nat

/-- The cell of its pool that holds a queue's cell of a running number (R304, R458). -/
opaque queueCell : (queue number : Nat) → Nat

/-- The clusters on the two dies on which firmware places a built-in analysis (R295), by its number in R297's list. -/
opaque builtinCluster : (analysis : Nat) → Nat × Nat

/-- General registers, program counter, status and traps of a Warden pair's master core (R458). -/
opaque wardenCore : (pair field : Nat) → Nat

/-- Operation code of a built-in analysis, by its number, and a vector register of an engine (R458). -/
opaque microStep : (analysis : Nat) → Nat
opaque engineReg : (engine lane : Nat) → Nat

/-- How long after its `n`-th service of the watchdog Warden firmware services it again, beyond WIN_LO_US, in ns, modulo the window
(R383). -/
opaque wdtService : (n : Nat) → Nat

/-! Mode tracking (spec/09): what is fixed in microcode, and how e is weighed. -/

/-- The band's low-pass over the values of the slices in its span, oldest first (R182). -/
opaque oscLowPass : (band fs : Nat) → List (BitVec 32) → BitVec 32

/-- The share e of Λ_1 that a pole carries (R184): Λ_1, its λ and its φ. -/
opaque oscShare : (lambda1 : List (List Rat)) → (pole : Rat × Rat) → (shape : List (Rat × Rat)) → Rat

end Sys2Proof.Config
end

