-- ==== Sys2Proof/Machine/State.lean ====
section
/-!
DEFINITION. The state of the block as plain data: every register field, both copies of the configuration, and what the
spec says each block keeps beside its registers; the outputs; reset; the stops.
-/
namespace Sys2Proof.Machine
open Sys2Proof

/-! ### Tables and configuration (chapter 2) -/

/-- The retiring copy of R35: the previous configuration and epoch, the boundary that ended it and the instant
until which it is held. -/
structure Retiring where
  cfg : Cfg
  epoch : Nat
  boundary : Instant
  expiry : Instant
  deriving DecidableEq, Repr

/-- How far a CINCH has come (R28 to R33, R39). -/
inductive CinchPhase where
  /-- Accepted; Warden firmware validates the sealed shadow (R31). -/
  | validating
  /-- Prepare sent; the coordinator waits for the members' answers (R39). -/
  | preparing
  /-- Validated, and ready wherever a member must be; the boundary is chosen (R32). -/
  | ready
  /-- Applied here; the coordinator waits for the members' confirmations (R33). -/
  | confirming
  deriving DecidableEq, Repr

/-- A CINCH in progress in this package, as coordinator. -/
structure Cinch where
  tag : Nat
  target : Nat
  eff : Option Instant
  grace : Nat
  accepted : Instant
  phase : CinchPhase
  boundary : Instant
  late : Bool
  /-- Unit IDs whose answer (preparing) or confirmation (confirming) is still missing. -/
  waiting : List Nat
  /-- Enabled-entry bitmaps returned by members so far, with their unit IDs (R39, R377). -/
  bitmaps : List (Nat × Nat)
  /-- The partner was lost, so the CINCH applies on the Active alone (R41). -/
  alone : Bool
  sentAt : Instant
  deriving DecidableEq, Repr

/-- What a member of a rope team holds of the coordinator's CINCH (R39, R40). -/
structure MemberCinch where
  target : Nat
  boundary : Instant
  /-- `none`: no decision yet; `some true`: commit; `some false`: abort. -/
  decision : Option Bool
  diverged : Bool
  deriving DecidableEq, Repr

/-- State of the configuration machinery (chapter 2). -/
structure GlbState where
  /-- The CINCH held, validating or pending in this package. -/
  cinch : Option Cinch
  /-- The shadow is sealed (R30). -/
  sealed : Bool
  member : Option MemberCinch
  /-- A TABLE_LOAD forwarded to the Belay and not yet acknowledged: tag, MAGIC and COUNT (R38). -/
  forwards : List (Nat × Nat × Nat)
  /-- The latched words of every SNAP group, by word address (R42). -/
  latches : FMap
  /-- Target and boundary of a CINCH that this coordinator aborted: its heartbeats repeat the abort until that boundary
  (R39). -/
  aborted : Option (Nat × Instant)
  /-- Configurations of epochs before the retiring one that a slice, a revision or a frame still refers to (R33). -/
  past : KV Cfg
  deriving DecidableEq, Repr

/-! ### Time base (chapter 3) -/

/-- What firmware has counted of each time reference since its latest loss (R51). -/
structure RefQual where
  ptpAnnounces : Nat
  ptpSyncs : Nat
  ptpGm : Option (BitVec 64)
  ptpLastAnnounce : Instant
  ptpLastSync : Instant
  irigGood : Nat
  /-- The TAI second of the last frame with correct parity and the instant of its reference marker. -/
  irigLast : Option (Int × Instant)
  irigBad : Nat
  /-- The time-quality bits last decoded (R62). -/
  irigTq : BitVec 4
  ppsEdges : Nat
  ppsLast : Option Instant
  hjelMsgs : Nat
  hjelLast : Instant
  deriving DecidableEq, Repr

/-- The time base and its references (chapter 3). -/
structure TbState where
  /-- The count: `S * 10^9 + N` (R44). -/
  ns : Instant
  /-- The fraction of a nanosecond, in 2^-32 ns. -/
  frac : Nat
  /-- The 40-bit increment in force, 8.32 format. -/
  incr : Nat
  /-- The low word of TB_INCR last written. -/
  incrLow : BitVec 32
  /-- An increment that applies at the next tick (R45). -/
  incrNext : Option Nat
  /-- The low word of TB_STEP last written. -/
  stepLow : BitVec 32
  refs : RefQual
  /-- STATE has once been LOCKED since reset (R51). -/
  everLocked : Bool
  /-- Consecutive offset measurements within 1 us (R51). -/
  lockCount : Nat
  /-- Instant at which STATE last left LOCKED, none before that (R53). -/
  leftLocked : Option Instant
  /-- Next instant at which HOLD_PPB is added in HOLDOVER (R53). -/
  holdNext : Instant
  /-- The single write of TB_INCR that R52 gives firmware on entry to HOLDOVER is still to come. -/
  holdWrite : Bool
  /-- End of the second in which LSO was set plus 86,400 s (R50). -/
  lsoUntil : Instant
  /-- The last leap was a deletion (leap direction of R49). -/
  leapDeleted : Bool
  /-- When LEAP_PEND was last set to a leap (R50). -/
  leapSetAt : Instant
  /-- Level of PPS_OUT and the instant at which its pulse ends (R63). -/
  ppsOut : Bool
  ppsOutEnd : Instant
  /-- The present tick is the first at or after an instant with N = 0, and no pulse was considered at it (R63). -/
  ppsDue : Bool
  /-- The PLL runs from REF10M_IN, and REF10M_IN is present (R64). -/
  pllRef10m : Bool
  /-- A staged write touched FREF since the latest boundary (R64). -/
  frefWritten : Bool
  ref10mPresent : Bool
  /-- Lower-numbered slave port whose announce receipt timed out (R57). -/
  ptpPort : Option Nat
  /-- Last sequenceId and last instant of each kind of message that firmware's PTP sender sends, by port and kind. -/
  ptpSeq : KV Nat
  ptpSent : KV Instant
  /-- What PTP messages brought for the master ports: inaccuracy and alternate time offset TLVs (R57). -/
  ptpInacc : Nat
  ptpAlt : Option (List Byte)
  /-- Next instant of each armed alarm, and whether it had passed when the alarm was armed (R65). -/
  almNext : KV (Instant × Bool)
  deriving DecidableEq, Repr

/-! ### Ports (chapter 4) -/

/-- Where a frame waiting to be sent came from. -/
inductive TxSource where
  | firmware
  /-- A transmit-ring descriptor: ring, TAG, DEST, QUEUE. -/
  | ring (r tag dest queue : Nat)
  deriving DecidableEq, Repr

/-- Where a frame of an output stream goes (R254): destination address as transmitted, VLAN field, destination IP address in
network order, and the UDP ports. -/
structure OutHead where
  dst : List Byte
  vlan : Nat
  ip : List Byte
  sport : Nat
  dport : Nat
  deriving DecidableEq, Repr

/-- The fixed fields of a GOOSE alarm frame (R220, R221): destination address as transmitted, VLAN field, APPID, confRev, and
the three references without their padding.  simulation and ndsCom are FALSE, and numDatSetEntries is 6, in every frame. -/
structure GooseHead where
  dst : List Byte
  vlan : Nat
  appid : Nat
  confRev : Nat
  gocbRef : List Byte
  datSet : List Byte
  goId : List Byte
  deriving DecidableEq, Repr

/-- What a frame that the device sends carries. -/
inductive TxBody where
  | bytes (bs : List Byte)
  /-- Egress-related fields of a PTP message: sequenceId and the fields of TB_UTC, quality and TLVs it carries. -/
  | ptp (kind : PtpKind) (seq : Nat) (utcOffset : Nat) (leap : Nat) (inaccuracy : Nat) (alt : Option (List Byte))
  | prpSupervision
  /-- A C37.118.2 command frame for an entry over UDP (R111): command, time, destination address and port. -/
  | command (entry cmd soc frac dst dport : Nat)
  /-- A GOOSE alarm frame (R221, R223): publisher, CLAIM, stNum, sqNum, t as UTC nanoseconds with its time quality,
  timeAllowedtoLive in ms, ALARM with output 32p + i in bit i, SLICE_T, REV, EPOCH and whether Q is questionable. -/
  | goose (head : GooseHead) (pub claim stNum sqNum utc tq talMs alarm : Nat) (slice : Instant) (rev epoch : Nat) (questionable : Bool)
  /-- A C37.118.2 frame of an output stream (R256, R257): its bytes from SYNC to the end of its trailers. -/
  | output (head : OutHead) (o : Nat) (slice : Instant) (rev claim epoch : Nat) (payload : List Byte)
  /-- A 90-5 frame of an output stream (R258): SPDU number, smpCnt, refrTm as UTC nanoseconds, values in the order of R102,
  digital words, invalid, questionable and test, key identifier and tag. -/
  | outputSpdu (head : OutHead) (appid confRev : Nat) (svId : List Byte) (o : Nat) (slice : Instant) (rev claim epoch : Nat)
      (spdu smpCnt utc : Nat) (values : List (BitVec 32))
      (digitals : List Nat) (quality : Nat) (keyId : Nat) (tag : Option Nat)
  /-- A TCP segment of firmware's client (R96): entry, kind (0 SYN, 1 ACK, 2 data command, 3 FIN), command, source and destination
  address and port, sequence and acknowledgement numbers, window and MSS (0 except in a SYN). -/
  | tcp (entry kind cmd src dst sport dport seq ack window mss : Nat)
  deriving DecidableEq, Repr

/-- A frame in a transmit queue. -/
structure TxFrame where
  body : TxBody
  len : Nat
  source : TxSource
  /-- 0, or the Harness number the frame is addressed to. -/
  harness : Nat
  /-- Identity that the copies of one Harness frame share. -/
  ident : Nat
  src : BitVec 48
  twoStep : Bool
  oneStep : Bool
  /-- PTP messageType (0xF for other frames) and sequenceId (0 for other frames), as R61 records them. -/
  ptpType : Nat
  seqId : Nat
  /-- Ingress time-stamp of the Pdelay_Req that a Pdelay_Resp of firmware answers (R60). -/
  reqTs : Option Instant
  deriving DecidableEq, Repr

/-- A token bucket: tokens in units of one frame times 10^9, and the instant of the last fill (R74). -/
structure Bucket where
  tokens : Nat
  last : Instant
  deriving DecidableEq, Repr

/-- A duplicate-discard entry (R78). -/
structure DupEntry where
  src : BitVec 48
  seq : BitVec 16
  lanA : Bool
  made : Instant
  deriving DecidableEq, Repr

/-- One port (chapter 4). -/
structure Port where
  /-- A transmitter that idles after a change of MODE, and until when (R71). -/
  idleUntil : Instant
  queues : List (List TxFrame)
  rxCells : Nat
  txCells : Nat
  q7Cells : Nat
  /-- Transmit time-stamp records held, each as the 16 bytes of R61. -/
  tsq : List Nat
  bucket : Option Bucket
  deriving DecidableEq, Repr

/-- A received frame that waits for delivery to a receive ring (R84): ring, SOURCE, port, ingress time-stamp. -/
structure RxItem where
  ring : Nat
  source : Nat
  port : Nat
  ts : Instant
  cells : Nat
  frame : Frame
  deriving DecidableEq, Repr

/-- A frame that passed the port stages (R73) and waits for ING: its early classification, port and time-stamp. -/
structure InFrame where
  port : Nat
  entry : Option Nat
  ts : Instant
  cells : Nat
  frame : Frame
  deriving DecidableEq, Repr

/-- All ports, Harnesses and quench state (chapter 4). -/
structure PortsState where
  ports : KV Port
  /-- Duplicate-discard table of each PRP Harness, oldest first (R78). -/
  dup : KV (List DupEntry)
  /-- Sequence counter of each PRP Harness (R79). -/
  prpSeq : KV Nat
  prpSupLast : KV Instant
  /-- Quenched stream-table entries (R80). -/
  quenched : List Nat
  /-- Buckets of stream-table entries (R74). -/
  buckets : KV Bucket
  nextIdent : Nat
  /-- Frames between the ports and ING, and between ING and the receive rings, oldest first. -/
  inq : List InFrame
  rxq : List RxItem
  deriving DecidableEq, Repr

/-! ### Host interface (chapter 15) -/

/-- A ring's working state beside its registers (R315 to R323). -/
structure Ring where
  /-- SQ_TAIL and CQ_HEAD as last read from the doorbell word. -/
  sqTail : Nat
  cqHead : Nat
  cqTail : Nat
  /-- Completions produced and not yet written, oldest first, each as a 128-bit number. -/
  held : List Nat
  /-- Descriptors fetched and not yet consumed, oldest first (buffer and transmit rings); `none` is a malformed
  buffer descriptor that is skipped (R323). -/
  fetched : List (Option Nat)
  /-- Completions written since the last signal and the instant of the first of them (R322). -/
  unsig : Nat
  unsigAt : Instant
  /-- The ring stopped after a broken doorbell rule (R317). -/
  stopped : Bool
  deriving DecidableEq, Repr

/-- An event entry that waits to be written (R335). -/
structure EvWait where
  src : Nat
  count : Nat
  first : Instant
  deriving DecidableEq, Repr

/-- A pending SCHEDULE command (R331). -/
structure Sched where
  tag : Nat
  /-- 0 FIRE, 1 ARM, 2 DISARM. -/
  action : Nat
  chan : Nat
  due : Instant
  late : Bool
  deriving DecidableEq, Repr

/-- The host interface (chapter 15). -/
structure HifState where
  rings : KV Ring
  /-- Waiting event entries in order of their first raising. -/
  evWait : List EvWait
  /-- Instant of the latest raising of each source that is raised at most once per millisecond. -/
  lastRaise : KV Instant
  nudgeLast : Nat
  nudgeAt : Instant
  /-- A doorbell read is due: the whole block (`none`) or one ring's word. -/
  dbDue : List (Option Nat)
  schedules : List Sched
  /-- Management commands started and not completed: opcode and tag. -/
  running : List (Nat × Nat)
  /-- The CINCH held until every earlier command has completed, with the commands it waits for (R329). -/
  heldCinch : Option (Instr × List (Nat × Nat))
  /-- Later TABLE_LOAD, CINCH and UPDATE_STAGE commands kept behind a held CINCH (R329). -/
  behind : List Instr
  /-- A management command has completed with OK since the start (R443). -/
  hostOk : Bool
  /-- Bus Master Enable (R313) and the PCIe link (R450). -/
  busMaster : Bool
  linkUp : Bool
  /-- MSI-X table words and pending bits (R312). -/
  msixTable : FMap
  msixPending : Nat
  deriving DecidableEq, Repr

/-! ### Translation (chapter 16) -/

/-- A cached leaf (R342): first address, size exponent, bus address and permissions. -/
structure TlbEntry where
  va : Nat
  log2 : Nat
  pa : Nat
  r : Bool
  w : Bool
  deriving DecidableEq, Repr

/-- An invalidation issued and not complete (R343); `none` is ALL. -/
structure InvReq where
  range : Option (Nat × Nat)
  deriving DecidableEq, Repr

/-- What a suspended channel waits on (R345). -/
structure Susp where
  cls : Nat
  stream : Nat
  write : Bool
  item : Nat
  dva : Nat
  level : Nat
  /-- Buffers the suspended item had taken, up to and including the faulting one. -/
  taken : Nat
  /-- A retry that waits for invalidations issued before it (R348): the ISSUED count to reach, and the tag of
  its RESUME command (none: XLT_RESUME). -/
  resume : Option (Nat × Option Nat)
  deriving DecidableEq, Repr

/-- The translation unit (chapter 16). -/
structure XltState where
  tlb : List TlbEntry
  invs : List InvReq
  susp : KV Susp
  /-- The low word of XLT_INV last written. -/
  invLow : BitVec 32
  deriving DecidableEq, Repr

/-! ### Measurements and ingest (chapter 5) -/

/-- A measurement that ING, PHE or FSL hands on (R99, R110): entry, instant, quality word, and the values as FP32
bits; digital words as they are. -/
structure Meas where
  entry : Nat
  /-- The configuration epoch under which it was read. -/
  epoch : Nat
  instant : Instant
  quality : Nat
  freq : BitVec 32
  rocof : BitVec 32
  phasors : List (BitVec 32 × BitVec 32)
  analogs : List (BitVec 32)
  digitals : List Nat
  deriving DecidableEq, Repr

/-- What ING tracks of a GOOSE publisher (R106): the last stNum and sqNum, the instant at which timeAllowedToLive
expires (none once it expired), and the last values. -/
structure GooseLast where
  stNum : Nat
  sqNum : Nat
  expiry : Option Instant
  meas : Meas
  deriving DecidableEq, Repr

/-- A TCP connection of a KIND 2 entry (R96): 0 closed, 1 connecting, 2 established, 3 waiting to retry; the next
sequence number expected, the instant of the retry and the wait before it in seconds. -/
structure Conn where
  st : Nat
  next : Nat
  retryAt : Instant
  wait : Nat
  /-- Bytes received and not yet framed. -/
  buf : List Byte
  /-- Its own next sequence number, and what it sent that is not acknowledged: kind, command, sequence number and the instant of the
  latest sending. -/
  own : Nat
  unacked : List (Nat × Nat × Nat × Instant)
  deriving DecidableEq, Repr

/-- What ING keeps of a stream-table entry: the fields of its status record (R114), its 64-position window (R108), and what R106, R111 and R96 need. -/
structure EntStat where
  last : Instant
  port : Nat
  udp : Nat
  seq : Nat
  st : Nat
  accepted : Nat
  authFail : Nat
  dup : Nat
  tq : Nat
  format : Nat
  other : Nat
  flags : Nat
  /-- Positions marked in the window (R108), as their instants, newest first. -/
  win : List Instant
  /-- STAT bit 10 of the last data frame, and whether a FORMAT_MISMATCH or CONFREV has come since the last good one. -/
  stat10 : Bool
  mismatch : Bool
  cmdAt : Option Instant
  goose : Option GooseLast
  conn : Option Conn
  deriving DecidableEq, Repr

/-- The key with which a frame's authentication started (R107): slot, key, and whether the slot was usable then. -/
structure KeyUse where
  slot : Nat
  key : Nat
  usable : Bool
  deriving DecidableEq, Repr

/-- A frame that ING parsed: port, entry, ingress time-stamp, the epoch of the copy that reads it (R93), the frame, and the key its
verification started with. -/
structure Parsed where
  port : Nat
  entry : Nat
  ts : Instant
  epoch : Nat
  frame : Frame
  key : Option KeyUse
  /-- Receive cells that it still holds (R75). -/
  cells : Nat
  deriving DecidableEq, Repr

/-- Ingest (chapter 5). -/
structure IngState where
  ent : KV EntStat
  parsed : List Parsed
  /-- The window of SPDU numbers of each key slot (R108). -/
  spdu : KV (Nat × Nat)
  /-- Configuration-frame results that wait for the shadow to unseal (R112). -/
  stage : List (Nat × CfgInfo × Bool)
  deriving DecidableEq, Repr

/-! ### Keys (chapter 19) -/

/-- A key slot (R395, R396): state 0 EMPTY, 1 VALID, 2 INVALID; `key` is the key's bytes as one little-endian number. -/
structure KeySlot where
  st : Nat
  alg : Nat
  usage : Nat
  parent : Nat
  keyId : Nat
  gen : Nat
  exp : Option Instant
  imported : Bool
  depth : Nat
  uses : Nat
  key : Nat
  deriving DecidableEq, Repr

/-- A key bound by the consumers at a boundary (R397), whether it may still be used, and the invalidation instant (R405). -/
structure BoundKey where
  alg : Nat
  usage : Nat
  keyId : Nat
  key : Nat
  valid : Bool
  ended : Option Instant
  deriving DecidableEq, Repr

/-! ### Phasor estimation (chapter 6) -/

/-- A sample that PHE holds: its position (second times rate, plus smpCnt), instant, values scaled at ingest, the
FACTORs they were scaled with (R122), channel qualities and ingest quality. -/
structure PheSmp where
  chan : Nat
  pos : Nat
  instant : Instant
  values : List (BitVec 32)
  factors : List (BitVec 32)
  quals : List (BitVec 32)
  q : Nat
  deriving DecidableEq, Repr

/-- A computation in progress: output instant, start, the samples it uses (R123), and whether the retiring copy
governs it. -/
structure PheRun where
  t : Instant
  start : Instant
  samples : List PheSmp
  deriving DecidableEq, Repr

/-- A PHE channel: its samples oldest first, the earliest output instant not yet started, later instants started
before it, the computations in progress, and its status record (R131). -/
structure PheChan where
  samples : List PheSmp
  next : Option Instant
  done : List Instant
  runs : List PheRun
  last : Instant
  freq : BitVec 32
  rocof : BitVec 32
  outputs : Nat
  bridged : Nat
  noOutput : Nat
  lateSmp : Nat
  mismatch : Nat
  flags : Nat
  deriving DecidableEq, Repr

/-- Phasor estimation: the samples handed on and not taken, and the channels. -/
structure PheState where
  inbox : List PheSmp
  chans : KV PheChan
  deriving DecidableEq, Repr

/-- A sample in raw sampled-value history: entry, instant, smpCnt, ASDU as received (R103, R240). -/
structure RawSv where
  entry : Nat
  instant : Instant
  smpCnt : Nat
  values : List (BitVec 32 × BitVec 32)
  q : Nat
  deriving DecidableEq, Repr

/-! ### The Stitcher (chapter 7) -/

/-- The states of a slice (R147); a slice whose horizon passed is no longer held. -/
inductive SlicePhase where
  | opened | released | gathering | closed
  deriving DecidableEq, Repr

/-- A slice (R147): the measurements placed while OPEN, the latest revision, the streams expected in it, and the
arrivals gathered for the next revision. -/
structure Slice where
  instant : Instant
  phase : SlicePhase
  /-- Its epoch, once the copy of that epoch is no longer the retiring one (R33). -/
  home : Option Nat
  /-- Its release closes it (R35). -/
  final : Bool
  placed : KV Meas
  /-- SLICE_DEADLINE found the deadline reached. -/
  deadline : Bool
  /-- The slice met its own conditions before an earlier slice was released (event 84). -/
  waited : Bool
  /-- A step of the time base passed over its deadline or its instant (R139). -/
  step : Bool
  /-- A release found no space in the slice store (R151). -/
  stalled : Bool
  gap : Bool
  latest : Option Revision
  expected : List Nat
  gathered : KV SRec
  /-- Gathered arrivals (R145). -/
  arrivals : Nat
  gatherAt : Instant
  /-- REV_GATHER_EXPIRY found the gathering time over. -/
  gatherDue : Bool
  deriving DecidableEq, Repr

/-- Who acts on a released revision (R148). -/
inductive Consumer where
  | topo | lse | rules | osc | graphs | outputs
  deriving DecidableEq, Repr

/-- A revision that a consumer has still to act on. -/
structure Work where
  who : Consumer
  rev : Revision
  deriving DecidableEq, Repr

/-- The Stitcher (chapter 7). -/
structure StchState where
  /-- Measurements handed on and not placed, oldest first. -/
  inbox : List Meas
  /-- Slices held, by instant. -/
  slices : List Slice
  /-- The next slice instant to open while producing. -/
  next : Instant
  /-- The next slice produced carries GAP (R133). -/
  gap : Bool
  /-- Consecutive absences and exclusions (R135). -/
  absent : KV Nat
  excluded : List Nat
  /-- The latest value of each Held stream (R134, R136). -/
  held : KV Meas
  /-- Slices that revision 15 closed (R140). -/
  limited : List Instant
  /-- The accepted states of each Event stream, latest first (R134). -/
  events : KV (List Meas)
  /-- Inputs of the decimation filters, by stream (R142). -/
  decim : KV (List Meas)
  /-- The slice store (R151), in release order. -/
  store : List Revision
  work : List Work
  deriving DecidableEq, Repr

/-- An ALM_OUT pin that shows a wave (R217): the alarm wave or the healthy one, its level and its last edge; a pin
not listed is driven static low. -/
structure AlmPin where
  alarm : Bool
  level : Bool
  edge : Instant
  deriving DecidableEq, Repr

/-! ### Topology and state estimation (chapter 8) -/

/-- A switching device (R161): the last known state with the slice instant that carried it, the state used in the latest
revision acted on, and for how many revisions it has been UNCERTAIN. -/
structure SwState where
  known : Option (Instant × Bool)
  closed : Bool
  uncSlices : Nat
  deriving DecidableEq, Repr

/-- The label of an enabled node (R162): bus, island, and whether its bus is EARTHED or touched by an UNCERTAIN device. -/
structure NodeLabel where
  node : Nat
  bus : Nat
  island : Nat
  earthed : Bool
  uncertain : Bool
  deriving DecidableEq, Repr

/-- The labels of a revision. -/
structure Labelled where
  instant : Instant
  rev : Nat
  nodes : List NodeLabel
  deriving DecidableEq, Repr

/-- A factor (R165, R166, R170): identity, model with its BD_EN, topology (node, bus, island), factored set, buses not
observable, size of L and cut-over instant. -/
structure Factor where
  id : Nat
  model : KV Rec
  topo : List (Nat × Nat × Nat)
  set : List Nat
  unobs : List Nat
  bytes : Nat
  cutover : Instant
  deriving DecidableEq, Repr

/-- A refactorisation in progress (R169, R171): what it factorises and when it started; `shadow` marks one for the shadow
model. -/
structure Refactor where
  model : KV Rec
  topo : List (Nat × Nat × Nat)
  set : List Nat
  start : Instant
  shadow : Bool
  deriving DecidableEq, Repr

/-- A residual record (R173). -/
structure Residual where
  meas : Nat
  removed : Bool
  rn : BitVec 32
  re : BitVec 32
  im : BitVec 32
  deriving DecidableEq, Repr

/-- A state-estimate result (R172, R173): status 0 OK, 1 NO_FACTOR, 2 MISS_EXCESS, 3 OBS_LOST; node voltages by node. -/
structure LseResult where
  rev : Nat
  status : Nat
  instant : Instant
  k : Nat
  epoch : Nat
  factorId : Nat
  topoPending : Bool
  bdUnresolved : Bool
  brOut : Bool
  retained : Bool
  nmiss : Nat
  nused : Nat
  nunobs : Nat
  j : BitVec 32
  dof : Nat
  elapsed : Nat
  volts : List (Nat × BitVec 32 × BitVec 32)
  nodes : List NodeLabel
  /-- Nodes on an observable bus, and nodes on a bus with zero injection. -/
  observable : List Nat
  zeroBus : List Nat
  residuals : List Residual
  branches : List (Nat × BitVec 32 × BitVec 32 × BitVec 32 × BitVec 32)
  nnode : Nat
  nbr : Nat
  length : Nat
  deriving DecidableEq, Repr

/-- Topology processor and state estimator (chapter 8). -/
structure LseState where
  switches : KV SwState
  /-- The same under the configuration before the active one (R161). -/
  swOld : KV SwState
  labels : List Labelled
  /-- The newest slice instant acted on, and the topology of its latest revision. -/
  newest : Instant
  topo : List (Nat × Nat × Nat)
  /-- The factors retained, the current one first (R170). -/
  factors : List Factor
  /-- Factors no longer retained: the first cut-over of each run with one model, the newest run first. -/
  dropped : List (Instant × KV Rec)
  nextId : Nat
  running : Option Refactor
  /-- A trigger is held while a refactorisation runs (R169). -/
  held : Bool
  /-- A factor of the shadow model that waits for the boundary (R171). -/
  staged : Option Factor
  /-- Measurements that have left the factored set, and the counts of consecutive absences and presences (R165). -/
  left : List Nat
  absent : KV Nat
  present : KV Nat
  /-- The newest slice instant whose revision-0 estimate has started. -/
  lastEst : Instant
  deriving DecidableEq, Repr

/-! ### Mode tracking (chapter 9) -/

/-- A signal or DEF input of a tracker set (R180, R181): its last value, consecutive missing slices, whether it is
dropped, and consecutive present slices while dropped. -/
structure OscSig where
  last : BitVec 32
  miss : Nat
  dropped : Bool
  back : Nat
  deriving DecidableEq, Repr

/-- The values of one slice for a set, by signal record, and `2048 + 4d + q` for quantity q of DEF record d (R193); the
flag tells whether it was live. -/
structure OscSlice where
  t : Instant
  rev : Nat
  vals : KV (BitVec 32 × Bool)
  deriving DecidableEq, Repr

/-- A decimated sample: the low-passed and the high-passed values, and which signals were live (R182). -/
structure OscSample where
  t : Instant
  low : KV (BitVec 32)
  high : KV (BitVec 32)
  live : List Nat
  deriving DecidableEq, Repr

/-- A reported mode (R184 to R187, R197), and how many updates it has been missing. -/
structure OscMode where
  id : Nat
  conf : Nat
  new : Bool
  nearFo : Bool
  alarm : Bool
  freq : BitVec 32
  zeta : BitVec 32
  sigma : BitVec 32
  energy : BitVec 32
  shape : List (BitVec 32 × BitVec 32)
  /-- Signal record with the largest component of the shape. -/
  peak : Nat
  first : Instant
  lost : Nat
  deriving DecidableEq, Repr

/-- A forced oscillation (R191, R193, R198): bin, frequency, amplitude, its signal, updates without a candidate, and the
locations with their record counts and scores. -/
structure OscFo where
  id : Nat
  bin : Nat
  new : Bool
  defValid : Bool
  freq : BitVec 32
  amp : BitVec 32
  ampSig : Nat
  misses : Nat
  locs : List (Nat × Nat × BitVec 32)
  deriving DecidableEq, Repr

/-- An update in progress: the revision 0 that triggered it, and the instant of its sample. -/
structure OscRun where
  instant : Instant
  k : Nat
  epoch : Nat
  release : Instant
  sample : Instant
  deriving DecidableEq, Repr

/-- A tracker set: the boundary at which it restarted, the slices and samples kept (oldest first), how many samples were
taken since the restart, whether it is in warm-up, the update in progress, the modes and forced oscillations with their
next identities, and the candidate bins of the latest update with the length of their runs. -/
structure OscSet where
  since : Instant
  sigs : KV OscSig
  slices : List OscSlice
  samples : List OscSample
  taken : Nat
  warm : Bool
  run : Option OscRun
  modes : List OscMode
  nextMode : Nat
  fos : List OscFo
  cands : List (Nat × Nat)
  nextFo : Nat
  deriving DecidableEq, Repr

/-- A mode alarm record (R195): ACTIVE, and the two counts. -/
structure OscAlarm where
  active : Bool
  on : Nat
  off : Nat
  deriving DecidableEq, Repr

/-- A mode-tracker result (R196 to R199): status 0 OK, 1 WARMUP, 2 NO_REF, 3 SKIPPED. -/
structure OscResult where
  set : Nat
  band : Nat
  rev : Nat
  status : Nat
  instant : Instant
  epoch : Nat
  sample : Instant
  restarted : Bool
  revised : Bool
  refPartial : Bool
  winFill : Nat
  elapsed : Nat
  /-- When it was formed, and the input signals. -/
  formed : Instant
  ids : List Nat
  shapes : Bool
  modes : List OscMode
  fos : List OscFo
  livePct : List Nat
  length : Nat
  deriving DecidableEq, Repr

/-- The mode tracker. -/
structure OscState where
  sets : KV OscSet
  alarms : KV OscAlarm
  deriving DecidableEq, Repr

/-! ### Islanding and alarms (chapter 10) -/

/-- A rule, or a coherency group's decision (R209): its state, the state it shows (after comparison for a SAFETY rule),
and the bit pairs of the newest slices, newest first. -/
structure RuleState where
  active : Bool
  shown : Bool
  hist : List (Instant × Bool × Bool)
  deriving DecidableEq, Repr

/-- A coherency group (R212, R213): number, members, decision, and its latest frequency separation and drift. -/
structure CohGroup where
  number : Nat
  members : List Nat
  decision : RuleState
  df : BitVec 32
  drift : BitVec 32
  deriving DecidableEq, Repr

/-- The live coherency signals of a slice: frequency and phasor by signal. -/
structure CohSlice where
  t : Instant
  sigs : KV (BitVec 32 × BitVec 32 × BitVec 32)
  deriving DecidableEq, Repr

/-- The current state of a GOOSE alarm publisher (R223): what it carries, the sequence number of the next frame, its
instant and the interval after it in ms. -/
structure GooseState where
  claim : Nat
  alarm : Nat
  questionable : Bool
  t : Instant
  slice : Instant
  rev : Nat
  epoch : Nat
  sqNum : Nat
  next : Instant
  interval : Nat
  deriving DecidableEq, Repr

/-- An island record (R215). -/
structure IslandRec where
  island : Nat
  nnode : Nat
  state : Nat
  uncertain : Bool
  group : Nat
  df : BitVec 32
  drift : BitVec 32
  deriving DecidableEq, Repr

/-- An island result (R215). -/
structure IslResult where
  rev : Nat
  reclustered : Bool
  instant : Instant
  ngroup : Nat
  epoch : Nat
  recs : List IslandRec
  length : Nat
  deriving DecidableEq, Repr

/-- A decision that waits for the comparison of two instances (R14): the revision, and what it decided. -/
inductive Compare where
  /-- Alarm rules: whether the decision came after its completion time (R216), the rules that wait and their states, and an island
  result that waits with them. -/
  | rules (instant : Instant) (rev epoch : Nat) (missed : Bool) (states : List (Nat × Bool))
      (result : Option (IslResult × Revision))
  /-- A run of a safety-attributed graph, by its number and run. -/
  | graph (g run : Nat)
  deriving DecidableEq, Repr

/-- Islanding and alarms. -/
structure IslState where
  rules : KV RuleState
  /-- Rules that applied R208 in the latest slice (the Q member of R221). -/
  missing : List Nat
  /-- The newest slice acted on, and its declared topological islands. -/
  newest : Option Instant
  topo : List Nat
  groups : List CohGroup
  coh : List CohSlice
  /-- Slices acted on since COH_EN became 1. -/
  cohCount : Nat
  /-- A slice whose re-clustering is due, the one in progress, and groups formed, with the instant from which a release
  takes them. -/
  cluDue : Option Instant
  reclust : Option Instant
  newGroups : Option (Instant × List CohGroup)
  /-- The slice from which the present groups apply (R215). -/
  since : Option Instant
  /-- TOPO_ONLY islands (even keys) and COH_ONLY groups (odd keys): slices it has lasted, counted once it is raised. -/
  conf : KV Nat
  confDue : List Nat
  compare : List Compare
  pubs : KV GooseState
  stNums : KV Nat
  /-- SLICE_T, REV and EPOCH of the latest slice decision of each publisher. -/
  lastDec : KV (Instant × Nat × Nat)
  deriving DecidableEq, Repr

/-! ### Capture (chapter 11) -/

/-- A cause of a record (R245). -/
structure CapCause where
  time : Instant
  trigger : Nat
  rev : Nat
  late : Bool
  deriving DecidableEq, Repr

/-- A frame kept for raw capture (R240, R245). -/
structure RawFrame where
  ts : Instant
  port : Nat
  snapped : Bool
  fcsErr : Bool
  wireLen : Nat
  capLen : Nat
  bytes : List Byte
  deriving DecidableEq, Repr

/-- An item of a record. -/
inductive CapItem where
  | slice (r : Revision)
  | sample (v : RawSv) (epoch : Nat)
  | frame (f : RawFrame)
  deriving DecidableEq, Repr

/-- A capture record (R244): open, or complete and waiting to drain. -/
structure CapRec where
  seq : Nat
  /-- The channel record with which it started (R249). -/
  cfg : Rec
  epoch : Nat
  tp : Instant
  causes : List CapCause
  mask : Nat
  dead : Nat
  missed : Nat
  preShort : Bool
  overflow : Bool
  aborted : Bool
  xfireSent : Bool
  items : List CapItem
  bytes : Nat
  lost : Nat
  /-- The last item taken, as its instant times 8,192 plus its entry: the next item lies after it. -/
  taken : Option Nat
  done : Instant
  deriving DecidableEq, Repr

/-- The states of a channel (R236). -/
inductive CapPhase where
  | idle | holdoff | waitXarm | armed | recording
  deriving DecidableEq, Repr

/-- A capture channel: state, the record open, the records to drain, SEQ, triggers missed, when the ARM that left IDLE was
accepted, the first cause time of the previous record, since when the channel is not ARMED and the dead time so far
(R239), the hold-off's start, count and whether it counts as satisfied, and whether a DISARM was received. -/
structure CapChan where
  phase : CapPhase
  rcd : Option CapRec
  queue : List CapRec
  seq : Nat
  missed : Nat
  left : Instant
  prev : Option Instant
  notArmed : Option Instant
  dead : Nat
  holdAt : Instant
  holdCount : Nat
  satisfied : Bool
  disarm : Bool
  /-- A CINCH changed the record under a recording: IDLE at completion (R249). -/
  retire : Bool
  /-- The drain waits (event 133 was raised). -/
  waiting : Bool
  /-- Buffers that the first record to drain has filled so far. -/
  drained : Nat
  /-- Records drained whose completions are not yet written: they still hold their space (R246). -/
  sent : List CapRec
  frames : List RawFrame
  deriving DecidableEq, Repr

/-- Capture. -/
structure CapState where
  chans : KV CapChan
  /-- Ends of the pulses on TRIG_OUT pins. -/
  tout : KV Instant
  /-- The end of the pulse on XFIRE, and whether this unit drives it. -/
  xfire : Option (Instant × Bool)
  /-- A calibration in progress (R232): start, and for each input the sum of the delays and the pulses seen, as bits. -/
  cal : Option (Instant × KV (Int × Nat))
  deriving DecidableEq, Repr


/-! ### Field sensor link (chapter 13) -/

/-- A downlink queued for a sensor (R278): ring, TAG and DEST of its descriptor, sensor record, payload, and when. -/
structure Downlink where
  ring : Nat
  tag : Nat
  dest : Nat
  sensor : Nat
  payload : List Byte
  queued : Instant
  deriving DecidableEq, Repr

/-- What a sensor record holds (R276, R280): state 0 DISABLED, 1 UNHEARD, 2 LIVE, 3 SILENT; the beacons sent since the last
accepted frame. -/
structure Sensor where
  st : Nat
  lastCtr : Nat
  lastDsn : Nat
  heard : Bool
  beacons : Nat
  deriving DecidableEq, Repr

/-- A downlink in the air (R278): the payload, the frame counter and sequence number it went with, the retries made, and
when it was last sent. -/
structure InAir where
  dl : Downlink
  counter : Nat
  dsn : Nat
  retries : Nat
  sent : Instant
  deriving DecidableEq, Repr

/-- An interface (R270, R271, R281, R283): the next beacon number, the latest beacon sent, beacon instants missed in a row,
beacons that still carry RESYNC and their guard, since when it is able to send, the changes still listed (sensor and last
superframe), the rotation of the pending list, the outgoing counter with the KCV of its key, the secured frames of the last
second, the next outgoing sequence number, the sensors that polled, oldest first, and the downlink in the air. -/
structure FslIf where
  next : Nat
  last : Option Instant
  missed : Nat
  resync : Nat
  guardUs : Nat
  able : Option Instant
  changes : List (Nat × Nat)
  rotate : Nat
  counter : Nat
  kcv : Nat
  recent : List Instant
  dsn : Nat
  polled : List Nat
  air : Option InAir
  deriving DecidableEq, Repr

/-- The field sensor link. -/
structure FslState where
  sensors : KV Sensor
  ifs : KV FslIf
  dls : List Downlink
  deriving DecidableEq, Repr

/-! ### Scheduler (chapter 14) -/

/-- What an operation belongs to (R297): a run of an integrator's graph, or a built-in analysis on a revision, on a slice of a PHE
channel, or in the background. -/
inductive OpOf where
  | graph (run : Nat)
  /-- Labels and estimate (levels 5), rules and islands (levels 7 and 6), and mode tracking (level 4) of a revision. -/
  | lse (instant : Instant) (rev : Nat)
  | rules (instant : Instant) (rev : Nat) (safety : Bool)
  | osc (instant : Instant) (rev : Nat)
  | phe (ch : Nat) (instant : Instant)
  /-- A refactorisation and a re-clustering (level 0). -/
  | refactor (id : Nat)
  | recluster (instant : Instant)
  deriving DecidableEq, Repr

/-- An operation (R297, R298): what it belongs to, instance, node or step, level, since when it is ready, and whether it may run on
any engine because its affinity engine stayed busy for AFF_WAIT_NS. -/
structure SchedOp where
  src : OpOf
  inst : Nat
  node : Nat
  level : Nat
  ready : Instant
  free : Bool
  deriving DecidableEq, Repr

/-- The chain of operations of an instance of a built-in analysis (R288): how many of them have run, since when the next one is ready,
and whether that may run on any engine. -/
structure Chain where
  src : OpOf
  inst : Nat
  steps : Nat
  ready : Instant
  free : Bool
  deriving DecidableEq, Repr

/-- An engine: the operation that it runs, a completed result (run, instance) that it keeps, its spill place, the owner, instance and
level of its latest operation (R298, R300), and whether the check of its microcode failed (R418). -/
structure Engine where
  op : Option SchedOp
  hold : Option (Nat × Nat)
  spill : Option (Nat × Nat)
  last : Option (OpOf × Nat × Nat)
  failed : Bool
  deriving DecidableEq, Repr

/-- A cluster: its ready lists in one, first in first out within each level; its delay list (due, run, instance) in order; its
release stage (run, instance, and whether its flow is safety-attributed). -/
structure Cluster where
  ready : List SchedOp
  delay : List (Instant × Nat × Nat)
  release : List (Nat × Nat × Bool)
  deriving DecidableEq, Repr

/-- A run of a graph (R293 to R296): its records, the revision it reads, its start event, the elements that each node of each
instance gave (by `512 * instance + node`), how far each instance is: 0 running, 1 complete and held, 2 released; and whether an
instance missed the completion time (R14). -/
structure GRun where
  id : Nat
  g : Nat
  dir : Rec
  nodes : List Rec
  rev : Option Revision
  timed : Bool
  start : Instant
  instant : Instant
  epoch : Nat
  fs : Nat
  useTest : Bool
  place : Nat × Nat
  vals : KV (List (BitVec 32 × Bool))
  a : Nat
  b : Nat
  missed : Bool
  deriving DecidableEq, Repr

/-- A result of a graph (R296): status 0 OK, 1 SKIPPED, 2 NO_SLICE, and the result words with their valid bits. -/
structure GraphResult where
  graph : Nat
  rev : Nat
  status : Nat
  instant : Instant
  late : Bool
  timed : Bool
  compared : Bool
  epoch : Nat
  elapsed : Nat
  words : List (BitVec 32 × Bool)
  length : Nat
  deriving DecidableEq, Repr

/-- A Warden pair (R303, R458): its ready items, oldest first, and the one it runs, each as its priority and identifier. -/
structure WardenPair where
  ready : List WardenItem
  running : Option WardenItem
  deriving DecidableEq, Repr

/-- A cell of a queue (R304): it starts or ends a packet. -/
structure QCell where
  first : Bool
  last : Bool
  deriving DecidableEq, Repr

/-- A queue of R304 (R305 to R308): the cells that it holds, oldest first; the write and read pointers, which count cells; the pushes
and pops whose pointer has not reached the other domain yet, each with the pointer after it and its instant; whether a packet is
popped in part; whether the rest of a packet is dropped as it arrives. -/
structure IQueue where
  cells : List QCell
  wr : Nat
  rd : Nat
  pushes : List (Nat × Instant)
  pops : List (Nat × Instant)
  mid : Bool
  dropping : Bool
  deriving DecidableEq, Repr

/-- The scheduler.  Histories of stateful nodes are held by `512 * graph + node`, newest first; affinity engines by
`(2 * graph + instance) * 512 + node`. -/
structure SchedState where
  runs : List GRun
  nextRun : Nat
  engines : KV Engine
  clusters : KV Cluster
  aff : KV Nat
  hist : KV (List (Instant × List (BitVec 32 × Bool)))
  seen : KV (List Instant)
  place : KV (Nat × Nat)
  placeOld : KV (Nat × Nat)
  timedNext : KV Instant
  elapsed : KV Nat
  /-- Queues with IDLE_EN, OVERFLOW and UNDERRUN set (R306, R307). -/
  idle : List Nat
  overflow : List Nat
  underrun : List Nat
  queues : KV IQueue
  pairs : KV WardenPair
  /-- How far the chains of the built-in analyses are (R288). -/
  chains : List Chain
  deriving DecidableEq, Repr

/-! ### Publication (chapter 12) -/

/-- The body of a publication item. -/
inductive PubBody where
  | revision (r : Revision)
  | lse (r : LseResult)
  | osc (r : OscResult)
  | island (r : IslResult)
  | graph (r : GraphResult)
  deriving DecidableEq, Repr

/-- An item for a publication ring (R260): kind, identity of its revision, whether that one is material, length. -/
structure PubItem where
  kind : Nat
  instant : Instant
  k : Nat
  rev : Nat
  material : Bool
  length : Nat
  body : PubBody
  deriving DecidableEq, Repr

/-- Publication: items in production order, the items of each kind dropped since its previous
completion (R261), and per output: the first slice
it sends, the newest slice reported (R263), the SPDU number (R258) and the instant of a CINCH that changed it (R256). -/
structure PubState where
  items : List PubItem
  dropped : KV Nat
  from_ : KV Instant
  newest : KV Instant
  spdu : KV Nat
  changed : KV Instant
  deriving DecidableEq, Repr

/-! ### Hjel links, pairs, the witness and rope teams (chapter 17) -/

/-- A Hjel link (R358, R373): SEQ of the next flit expected, replays in a row of one flit, the bytes of each virtual
channel's message so far, and the latest measured delay. -/
structure HjelLink where
  expect : Nat
  replays : Nat
  parts : KV (List Byte)
  delay : Nat
  delayAt : Instant
  deriving DecidableEq, Repr

/-- What a witness holds of a unit it serves (R368, R369). -/
structure WitUnit where
  claim : Nat
  /-- Frames addressed to it in a row that it has not answered, at most 2, the last of them still open to an answer. -/
  missed : Nat
  awaiting : Bool
  /-- A GRANT (true) or DENY and its CLAIM that takes the place of the unit's next POLL. -/
  reply : Option (Bool × Nat)
  deriving DecidableEq, Repr

/-- A ZV-4864 in MODE 3 (R366 to R369). -/
structure Witness where
  units : KV WitUnit
  highest : Nat
  seq : Nat
  slotAt : Instant
  /-- The second unit is addressed next. -/
  second : Bool
  /-- The collection window: its start, and the claim of each unit that answered in it with whether it asked. -/
  window : Option (Instant × KV (Nat × Bool))
  deriving DecidableEq, Repr

/-- A team slice being assembled (R376): the time master's own revision 0 and when it was released, and those of members. -/
structure TeamSlice where
  own : Option Revision
  ownAt : Instant
  parts : KV Revision
  deriving DecidableEq, Repr

/-- The shape of an entry as a readiness answer gives it: KIND, NPHASOR, NANALOG and NDIGITAL (R377). -/
structure Shape where
  entry : Nat
  kind : Nat
  nphasor : Nat
  nanalog : Nat
  ndigital : Nat
  deriving DecidableEq, Repr

/-- The shapes that a member's latest readiness answer gave. -/
structure MemberShapes where
  unit : Nat
  shapes : List Shape
  deriving DecidableEq, Repr

/-- Pairs and teams (chapter 17). -/
structure PairState where
  /-- Claim epoch of the battery domain (R356). -/
  epoch : Nat
  /-- Heartbeats sent: SEQ of the next, the SEQs sent in the last millisecond with their instants, and the last instant. -/
  seq : Nat
  sent : List (Nat × Instant)
  sentAt : Instant
  /-- The latest valid heartbeat of each unit with its instant of arrival, and the units declared lost. -/
  heard : KV (Heartbeat × Instant)
  lost : List Nat
  wasActive : Bool
  /-- Instants at which START, QUERY and HOLD were entered. -/
  startAt : Instant
  queryAt : Instant
  holdAt : Instant
  /-- SEQ of the last witness frame accepted, and the instant of the last one addressed here. -/
  witSeq : Option Nat
  witAt : Instant
  wit : Witness
  /-- The resynchronisation accepted and not yet at its boundary, and when SYNC_REQ is sent again. -/
  resync : Option ResyncImage
  retryAt : Option Instant
  /-- Digest messages: own ones whose decisions wait, own and the partner's not yet compared, and for each recent slice
  whether revision 0 was COMPLETE and no material revision of it was acted on (R372). -/
  due : List DigestMsg
  own : List DigestMsg
  peers : List DigestMsg
  clean : KV Bool
  /-- Instant of the latest compared slice or of its latest timeout, and of the latest time message sent. -/
  cmpAt : Instant
  timeAt : Instant
  links : KV HjelLink
  team : KV TeamSlice
  /-- The members' shapes of enabled entries, as the latest readiness answers gave them (R377). -/
  shapes : List MemberShapes
  deriving DecidableEq, Repr

/-! ### Functional safety and keys (chapters 18 and 19) -/

/-- What SAFE holds beside its registers: the first value of the proof-test sequence was written last (R389), the instant
of the latest periodic self-test (R388), and that of the watchdog's latest service (R383). -/
structure SafeState where
  armed : Bool
  ptestAt : Instant
  wdtAt : Instant
  deriving DecidableEq, Repr

/-- An ATTEST that waits for the attestation key (R406). -/
structure AttWait where
  tag : Nat
  addr : Nat
  challenge : List Byte
  dma : Dma
  deriving DecidableEq, Repr

/-- What KEY holds beside its slots and registers: fuses (life-cycle state, burned owner root, identity, anti-rollback level
and revoked signing keys), the battery copy of KEY_TAMP_CFG, the attestation key and what waits for it. -/
structure KeyState where
  lcs : Nat
  owner : Option Nat
  devid : Nat
  secVer : Nat
  revoked : Nat
  tampCfg : Nat
  att : Option Nat
  attWait : List AttWait
  /-- A trip with the main supplies absent whose events are still to be raised (R408). -/
  due : Bool
  deriving DecidableEq, Repr

/-! ### Power (chapter 20) -/

/-- How far a SLEEP has come (R423, R429). -/
inductive SleepStage where
  /-- Accepted, before the entry boundary. -/
  | entering
  /-- From the entry boundary to the end of the drain. -/
  | draining
  /-- In Bivouac: the always-on domain counts crystal edges. -/
  | asleep
  /-- Woken; `loaded` tells whether the time base is loaded again. -/
  | waking (loaded : Bool)
  deriving DecidableEq, Repr

/-- A SLEEP in progress: its TAG, timed wake, entry boundary, stage, and the wake event latched: crystal edge, reason and
CAUSES. -/
structure Sleep where
  tag : Nat
  wake : Option Instant
  boundary : Instant
  stage : SleepStage
  event : Option (Nat × Nat × Nat)
  /-- STATE of the time base changed at entry (R426). -/
  changed : Bool
  deriving DecidableEq, Repr

/-- Power (chapter 20). -/
structure PwrState where
  /-- The first value of the PWR_RST sequence was written last (R415). -/
  armed : Bool
  sleep : Option Sleep
  /-- SLEEPs that complete late: tag and boundary (R422). -/
  late : List (Nat × Instant)
  /-- The unit that restarts (R420). -/
  unit : Option Nat
  /-- Instant of the latest measurement of PPB (R425). -/
  calAt : Instant
  deriving DecidableEq, Repr

/-! ### Update (chapter 21) -/

/-- The directory record in force (R434), MAGIC, SEQ and CRC apart; 0xFF for no trial or store. -/
structure Directory where
  active : Nat
  trial : Nat
  reqHost : Bool
  reqRun : Bool
  attempted : Bool
  store : Nat
  state0 : Nat
  state1 : Nat
  ver0 : Nat
  ver1 : Nat
  deriving DecidableEq, Repr

/-- A configuration store copy (R445): STORE_VER, EPOCH and the configuration. -/
structure StoreCopy where
  ver : Nat
  epoch : Nat
  cfg : Cfg
  deriving DecidableEq, Repr

/-- A staging source in progress (R437): its number, the TAG of its command and the image received, once it is there. -/
structure Staging where
  source : Nat
  tag : Nat
  image : Option Image
  deriving DecidableEq, Repr

/-- An ACTIVATE_TEAM that waits for answers (R440). -/
structure TeamAct where
  tag : Nat
  at_ : Instant
  late : Bool
  flags : Nat
  waiting : List Nat
  sentAt : Instant
  deriving DecidableEq, Repr

/-- Update: boot flash, staging, activation, trial (chapter 21). -/
structure UpdState where
  dir : Directory
  /-- SEQ and the copy of the directory in force. -/
  seq : Nat
  copy : Nat
  images : KV Image
  stores : KV StoreCopy
  /-- The running image, and the retained copy of it that a wake verifies. -/
  run : Option Image
  sources : List Staging
  writing : Option Staging
  /-- The scheduled activation: instant and flags. -/
  act : Option (Instant × Nat)
  team : Option TeamAct
  /-- The trial timer: nanoseconds used before the latest start, and the instant of that start. -/
  trialUsed : Nat
  trialFrom : Instant
  /-- The store copy being written: the TAG of SAVE_CFG (none: a migrated store), the copy and its content. -/
  saving : Option (Option Nat × Nat × StoreCopy)
  /-- The fallback or commit result to show at the next start (R444). -/
  fell : Option Nat
  /-- Since when the Stitcher has produced without interruption outside the safe state. -/
  runFrom : Option Instant
  /-- The activation instant was reached and the entry actions run until the directory is written (R441). -/
  stopping : Bool
  deriving DecidableEq, Repr

/-! ### Errors (chapter 22) -/

/-- An error record (R452), and whether host software has selected it. -/
structure ErrRec where
  cls : Nat
  mem : Nat
  unit : Nat
  code : Nat
  addr : Nat
  ts : Instant
  count : Nat
  seen : Bool
  deriving DecidableEq, Repr

/-- Errors (chapter 22): the log by place, the posted buffers (address and length), the fatal record with its instant, and the
injections armed (memory class, double). -/
structure ErrState where
  log : KV ErrRec
  posted : Option (List (Nat × Nat))
  fatal : Option ErrRec
  inj : List (Nat × Bool)
  deriving DecidableEq, Repr

/-- A dump as it is written (R456): RESULT, the fatal record, the header's identity fields, DONE, and per section its
TYPE, STATUS, OFFSET, LEN and WRITTEN. -/
structure Cairn where
  result : Nat
  fatal : ErrRec
  devid : Nat
  fwVer : Nat
  measurement : Nat
  epoch : Nat
  claim : Nat
  safeCause : Nat
  lcs : Nat
  done : Instant
  total : Nat
  sections : List (Nat × Nat × Nat × Nat × Nat)
  deriving DecidableEq, Repr

/-! ### Outputs -/

/-- A fault record (R347). -/
structure FaultRec where
  cls : Nat
  access : Nat
  channel : Nat
  item : Nat
  level : Nat
  flags : Nat
  dva : Nat
  entry : Nat
  ts : Instant
  deriving DecidableEq, Repr

/-- What leaves the block, in the order in which it leaves. -/
inductive Out where
  /-- A completion written to ring `r` at index `i` (R321). -/
  | completion (r i value : Nat)
  /-- A progress word (R318). -/
  | progress (r value : Nat)
  /-- An MSI-X message (R322). -/
  | msi (addr data : Nat)
  /-- An event entry on an event ring (R335). -/
  | eventEntry (r i value : Nat)
  /-- A fault record written to entry `i` of the fault ring (R347). -/
  | faultRecord (i : Nat) (bytes : List Byte)
  /-- A frame that starts on a port, from a queue, with its egress time-stamp (R81), its PRP trailer (R79) and the value inserted one-step (R60). -/
  | frame (port queue : Nat) (ts : Instant) (f : TxFrame) (prp : Option (List Byte)) (oneStep : Option Nat)
  /-- A received frame written to receive buffers: ring, buffers, bytes written. -/
  | rxFrame (r nbuf len : Nat) (f : Frame)
  /-- A rising edge on PPS_OUT, launched at the instant given (R63). -/
  | ppsOut (t : Instant)
  /-- A rising edge of a 1 us pulse driven on XFIRE (R234), and of a pulse on a TRIG_OUT pin (R253). -/
  | xfire (t : Instant)
  | trigOut (k : Nat) (t : Instant)
  /-- A capture record written to a ring's buffers: ring, buffers, channel and the record's bytes (R243 to R246). -/
  | capture (r nbuf chan : Nat) (bytes : List Byte)
  /-- A publication item written to a ring's buffers: ring, buffers, kind and the item's bytes (R260). -/
  | published (r nbuf kind : Nat) (bytes : List Byte)
  /-- A message to another package over Hjel: the UNIT_ID it goes to, its virtual channel, its content, and its bytes where spec/17
  gives their layout (R359). -/
  | hjel (dst vc : Nat) (m : Hjel) (bytes : Option (List Byte))
  /-- A beacon of a field sensor link interface (R268, R270): interface, the instant at which TXEN rises, BO (SO is the same), the
  final CAP slot, the pending addresses, security level, key index, frame counter, nonce, and the slot map, which is its payload. -/
  | beacon (i : Nat) (txen : Instant) (bo cap : Nat) (pending : List Nat) (level keyIdx counter : Nat) (nonce slotMap : List Byte)
  /-- FSLi_RST_N is pulsed low for 1 ms (R268). -/
  | fslReset (i : Nat)
  /-- A CFG command to the transceiver (R267): PHY code, channel and TX_PWR. -/
  | fslCfg (i phy channel power : Nat)
  /-- An immediate acknowledgement (R275) and a downlink frame (R278): interface, sensor, security level, and what they carry, with the nonce (R287). -/
  | fslAck (i dsn : Nat) (pendingBit : Bool)
  | downlink (i sensor level counter dsn : Nat) (cca : Bool) (nonce payload : List Byte)
  /-- Bytes written to host memory for a management command: KEY_OP INFO and ATTEST (R403, R406). -/
  | hostWrite (addr : Nat) (bytes : List Byte)
  /-- Bytes written to boot SPI NOR at an offset: a directory copy (R433, R434). -/
  | norWrite (offset : Nat) (bytes : List Byte)
  /-- A witness frame sent: TYPE, UNIT_ID, CLAIM, SEQ and TAG (R367). -/
  | witness (typ unit claim seq tag : Nat)
  /-- A message of another unit passed on, on a link and virtual channel (R360). -/
  | forward (link vc : Nat) (bytes : List Byte)
  /-- A dump written to a posted list: what it is made of, and the bytes at each host address (R456 to R460). -/
  | cairn (c : Cairn) (written : List (Nat × List Byte))
  deriving DecidableEq, Repr

/-! ### The state -/

/-- The state of the block. -/
structure State where
  /-- The commands that wait, first in, first out. -/
  pending : List Instr
  /-- Register fields without a shadow copy (RO, RW, W1C, WO, SNAP), those at their reset value unlisted. -/
  dev : FMap
  /-- The active and the shadow copy of the staged configuration (R24). -/
  act : Cfg
  shd : Cfg
  /-- The retiring copy (R35). -/
  ret : Option Retiring
  glb : GlbState
  tb : TbState
  port : PortsState
  pair : PairState
  safety : SafeState
  key : KeyState
  pwr : PwrState
  upd : UpdState
  err : ErrState
  sched : SchedState
  fsl : FslState
  ing : IngState
  /-- Key slots and bound keys (chapter 19); a slot not listed is EMPTY and was never written. -/
  slots : KV KeySlot
  bound : KV BoundKey
  phe : PheState
  /-- Raw sampled-value history, oldest first: 10 s (R9, R240). -/
  rawSv : List RawSv
  stch : StchState
  /-- ALM_OUT pins that show a wave (R217). -/
  pins : KV AlmPin
  lse : LseState
  osc : OscState
  isl : IslState
  cap : CapState
  pub : PubState
  hif : HifState
  xlt : XltState
  /-- The model's own: how many free values have been taken (Config.freeNat). -/
  freeCtr : Nat
  /-- The model's own: what has left the block, newest first. -/
  out : List Out
  deriving DecidableEq, Repr

/-- The model never stops with a fault: an access to an address without a register reads 0 or is discarded (R482). -/
inductive Fault where
  /-- Raised by no command; the block has no state in which it stops (safe). -/
  | none
  deriving DecidableEq, Repr

/-- The only refusal is that of a command without a meaning. -/
inductive Refusal where
  /-- Raised by an arm of exec for a command whose meaning is not written (safe). -/
  | notModelled (mnemonic : String)
  deriving DecidableEq, Repr

/-- A table that was never loaded holds records that are all zero, at the version that the running firmware writes
(R485); every table layout of the spec has VERSION 1. -/
def zeroRec (_code : Nat) : Rec := ⟨1, 0⟩

def Cfg.reset : Cfg := ⟨[], []⟩

def GlbState.reset : GlbState := ⟨none, false, none, [], [], none, []⟩

def RefQual.reset : RefQual := ⟨0, 0, none, 0, 0, 0, none, 0, 0, 0, none, 0, 0⟩

/-- The time base reads 0 s + 0 ns and counts 2 ns a tick (R44).  REF10M_IN is present: DESIGN CHOICE (R64 gives no start value),
notes/assumptions/34.md. -/
def TbState.reset : TbState :=
  { ns := 0, frac := 0, incr := 0x0200000000, incrLow := 0, incrNext := none, stepLow := 0, refs := RefQual.reset,
    everLocked := false, lockCount := 0, leftLocked := none, holdNext := 0, holdWrite := false, lsoUntil := 0,
    leapDeleted := false, leapSetAt := 0, ppsOut := false, ppsOutEnd := 0, ppsDue := false, pllRef10m := false,
    frefWritten := false, ref10mPresent := true,
    ptpPort := none, ptpSeq := [], ptpSent := [], ptpInacc := 0, ptpAlt := none, almNext := [] }

def PortsState.reset : PortsState :=
  { ports := [], dup := [], prpSeq := [], prpSupLast := [], quenched := [], buckets := [], nextIdent := 0, inq := [], rxq := [] }

def HifState.reset : HifState :=
  { rings := [], evWait := [], lastRaise := [], nudgeLast := 0, nudgeAt := 0, dbDue := [], schedules := [], running := [],
    heldCinch := none, behind := [], hostOk := false, busMaster := false, linkUp := false, msixTable := [], msixPending := 0 }

def XltState.reset : XltState := { tlb := [], invs := [], susp := [], invLow := 0 }

def Witness.reset : Witness := ⟨[], 0, 0, 0, false, none⟩

def PairState.reset : PairState :=
  { epoch := 0, seq := 0, sent := [], sentAt := 0, heard := [], lost := [], wasActive := false, startAt := 0, queryAt := 0,
    holdAt := 0, witSeq := none, witAt := 0, wit := Witness.reset, resync := none, retryAt := none, due := [], own := [],
    peers := [], clean := [], cmpAt := 0, timeAt := 0, links := [], team := [], shapes := [] }

/-- The battery copy of KEY_TAMP_CFG that a lost key RAM leaves (R413). -/
def tampCfgLost : Nat := 0x0A0F0000

def KeyState.reset : KeyState := ⟨0, none, 0, 0, 0, tampCfgLost, none, [], false⟩

def PwrState.reset : PwrState := ⟨false, none, [], none, 0⟩

/-- A boot flash with slot 0 committed and no image, no trial and no store. -/
def Directory.reset : Directory := ⟨0, 0xFF, false, false, false, 0xFF, 0, 0, 0, 0⟩

def UpdState.reset : UpdState :=
  { dir := Directory.reset, seq := 0, copy := 0, images := [], stores := [], run := none, sources := [], writing := none,
    act := none, team := none, trialUsed := 0, trialFrom := 0, saving := none, fell := none, runFrom := none, stopping := false }

def SchedState.reset : SchedState :=
  { runs := [], nextRun := 0, engines := [], clusters := [], aff := [], hist := [], seen := [], place := [], placeOld := [],
    timedNext := [], elapsed := [], idle := [], overflow := [], underrun := [], queues := [], pairs := [], chains := [] }

def IngState.reset : IngState := ⟨[], [], [], []⟩

def PheState.reset : PheState := ⟨[], []⟩

def StchState.reset : StchState :=
  { inbox := [], slices := [], next := 0, gap := true, absent := [], excluded := [], held := [], events := [], decim := [],
    store := [], work := [], limited := [] }

def LseState.reset : LseState :=
  { switches := [], labels := [], newest := 0, topo := [], factors := [], nextId := 1, running := none, held := false,
    staged := none, left := [], absent := [], present := [], lastEst := 0, swOld := [], dropped := [] }

def IslState.reset : IslState :=
  { rules := [], missing := [], newest := none, topo := [], groups := [], coh := [], cohCount := 0, cluDue := none, reclust := none,
    newGroups := none, since := none, conf := [], confDue := [], compare := [], pubs := [], stNums := [], lastDec := [] }

def CapState.reset : CapState := ⟨[], [], none, none⟩

def PubState.reset : PubState := ⟨[], [], [], [], [], []⟩

/-- The block right after a power-on reset: every register field at its reset value, the shadow equal to the active
copy (R24), and nothing waiting, stored or in progress. -/
def State.reset : State :=
  { pending := [], dev := [], act := Cfg.reset, shd := Cfg.reset, ret := none, glb := GlbState.reset,
    tb := TbState.reset, port := PortsState.reset,
    pair := PairState.reset, safety := ⟨false, 0, 0⟩, key := KeyState.reset, pwr := PwrState.reset, upd := UpdState.reset,
    err := ⟨[], none, none, []⟩,
    sched := SchedState.reset,
    fsl := ⟨[], [], []⟩,
    ing := IngState.reset, slots := [], bound := [], phe := PheState.reset, rawSv := [], stch := StchState.reset, pins := [],
    lse := LseState.reset, osc := ⟨[], []⟩, isl := IslState.reset, cap := CapState.reset, pub := PubState.reset,
    hif := HifState.reset, xlt := XltState.reset, freeCtr := 0, out := [] }

end Sys2Proof.Machine
end

