-- ==== Sys2Proof/Machine/Ops.lean ====
section
/-!
DEFINITION. The named operations over the model's stores: sparse maps, register fields, table records,
instants, counters with their half-range events (R83), events and their routing (R335), completions
(R321, R328) and management commands in progress (R329).
-/
namespace Sys2Proof.Machine

/-! ### Numbers and bytes -/

/-- The `w` low bytes of `v`, lowest first (R3). -/
def leBytes : Nat → Nat → List Byte
  | 0, _ => []
  | w + 1, v => BitVec.ofNat 8 v :: leBytes w (v / 256)

/-- The number whose little-endian bytes are given (R3). -/
def leNat : List Byte → Nat
  | [] => 0
  | b :: bs => b.toNat + 256 * leNat bs

/-- The number whose big-endian bytes are given, as network standards order them. -/
def beNat (bs : List Byte) : Nat := leNat bs.reverse

/-- The `w` low bytes of `v`, highest first, as network standards order them. -/
def beBytes (w v : Nat) : List Byte := (leBytes w v).reverse

/-- Bits `lo` to `lo + w - 1` of `v`. -/
def bits (v lo w : Nat) : Nat := (v >>> lo) % 2 ^ w

/-- Bit `k` of `v`. -/
def bitOf (v k : Nat) : Bool := v.testBit k

/-- `b` as a number. -/
def natOf (b : Bool) : Nat := if b then 1 else 0

/-- `v` with bits `lo` to `lo + w - 1` replaced by `x`. -/
def setBits (v lo w x : Nat) : Nat :=
  bits v 0 lo + 2 ^ lo * (x % 2 ^ w) + 2 ^ (lo + w) * (v >>> (lo + w))

/-- The value of a `w`-bit two's complement number. -/
def signed (v w : Nat) : Int := if v % 2 ^ w < 2 ^ (w - 1) then (v % 2 ^ w : Nat) else (v % 2 ^ w : Nat) - (2 ^ w : Nat)

/-- Number of set bits among the lowest `n` bits of `v`. -/
def popCount : Nat → Nat → Nat
  | 0, _ => 0
  | n + 1, v => v % 2 + popCount n (v / 2)

/-- The numbers below `n` for which `p` holds, rising. -/
def filterBelow (n : Nat) (p : Nat → Bool) : List Nat := (List.range n).filter p

/-! ### Sparse maps -/

/-- The value listed for `k`. -/
def kvGet? {α : Type} : KV α → Nat → Option α
  | [], _ => none
  | (a, v) :: m, k => if a = k then some v else kvGet? m k

/-- The value listed for `k`, or `d`. -/
def kvGetD {α : Type} (m : KV α) (k : Nat) (d : α) : α := (kvGet? m k).getD d

/-- `m` with `v` listed for `k`, at its place. -/
def kvSet {α : Type} : KV α → Nat → α → KV α
  | [], k, v => [(k, v)]
  | (a, w) :: m, k, v =>
    if k < a then (k, v) :: (a, w) :: m
    else if a = k then (k, v) :: m
    else (a, w) :: kvSet m k v

/-- `m` with nothing listed for `k`. -/
def kvDel {α : Type} (m : KV α) (k : Nat) : KV α := m.filter (fun e => e.1 ≠ k)

/-- `m` with `v` for `k`, kept unlisted when it is the default `d`. -/
def kvPut {α : Type} [DecidableEq α] (m : KV α) (k : Nat) (v d : α) : KV α :=
  if v = d then kvDel m k else kvSet m k v

/-- The keys of a map strictly rise. -/
def kvSorted {α : Type} : KV α → Bool
  | [] => true
  | [_] => true
  | (a, _) :: (b, v) :: m => decide (a < b) && kvSorted ((b, v) :: m)

/-! ### Sets of numbers, as rising lists -/

/-- `k` is in the set. -/
def setHas (l : List Nat) (k : Nat) : Bool := l.any (· == k)

/-- The set with `k` in it. -/
def setAdd : List Nat → Nat → List Nat
  | [], k => [k]
  | a :: l, k => if k < a then k :: a :: l else if a = k then a :: l else a :: setAdd l k

/-- The set without `k`. -/
def setDel (l : List Nat) (k : Nat) : List Nat := l.filter (fun a => a ≠ k)

/-! ### Register fields -/

/-- The value of a field that has no shadow copy (RO, RW, W1C, WO, SNAP). -/
def State.rd (s : State) (f : Fld) : Nat := kvGetD s.dev f.key f.rst

/-- `s` with such a field set. -/
def State.wr (s : State) (f : Fld) (v : Nat) : State :=
  { s with dev := kvPut s.dev f.key (v % 2 ^ f.width) f.rst }

/-- The value of an ST field in a copy of the configuration (R24). -/
def Cfg.fld (c : Cfg) (f : Fld) : Nat := kvGetD c.regs f.key f.rst

/-- A copy with an ST field set. -/
def Cfg.setFld (c : Cfg) (f : Fld) (v : Nat) : Cfg :=
  { c with regs := kvPut c.regs f.key (v % 2 ^ f.width) f.rst }

/-- The active value of an ST field. -/
def State.cf (s : State) (f : Fld) : Nat := s.act.fld f

/-- The active value of a one-bit ST field as a truth value. -/
def State.cfOn (s : State) (f : Fld) : Bool := s.cf f = 1

/-- The value of a one-bit field without a shadow copy, as a truth value. -/
def State.on (s : State) (f : Fld) : Bool := s.rd f = 1

/-- `s` with bit `k` of a field set. -/
def State.orBit (s : State) (f : Fld) (k : Nat) : State := s.wr f (s.rd f ||| 2 ^ k)

/-- `s` with a one-bit field set to a truth value. -/
def State.wrB (s : State) (f : Fld) (b : Bool) : State := s.wr f (natOf b)

/-! ### Instants -/

/-- The time base's present instant (R18, R44). -/
def State.now (s : State) : Instant := s.tb.ns

/-- The instant "S s + N ns" of a pair of fields. -/
def instantOf (sec ns : Nat) : Instant := sec * nsPerS + ns

/-- `s` with an instant written to a pair of fields S and NS. -/
def State.wrInstant (s : State) (fs fn : Fld) (t : Instant) : State := (s.wr fs (t / nsPerS)).wr fn (t % nsPerS)

/-- The instant held by a pair of fields S and NS. -/
def State.rdInstant (s : State) (fs fn : Fld) : Instant := instantOf (s.rd fs) (s.rd fn)

/-! ### Table records -/

/-- Key of record `i` of table `code`. -/
def recKey (code i : Nat) : Nat := code * 2 ^ 20 + i

/-- Record `i` of table `code` in a copy (R485: all zero, at the running firmware's version, when never loaded). -/
def Cfg.tab (c : Cfg) (code i : Nat) : Rec := kvGetD c.tabs (recKey code i) (zeroRec code)

/-- A copy with record `i` of table `code` replaced. -/
def Cfg.setTab (c : Cfg) (code i : Nat) (r : Rec) : Cfg :=
  { c with tabs := kvPut c.tabs (recKey code i) r (zeroRec code) }

/-- `size` bytes at `off` of a record. -/
def Rec.at (r : Rec) (off size : Nat) : Nat := bits r.val (8 * off) (8 * size)

/-- Bits `lo` to `lo + w - 1` of the field at byte `off` of a record. -/
def Rec.bitsAt (r : Rec) (off lo w : Nat) : Nat := bits r.val (8 * off + lo) w

/-- Bit `k` of the field at byte `off` of a record. -/
def Rec.bitAt (r : Rec) (off k : Nat) : Bool := bitOf r.val (8 * off + k)

/-- The listed records of a table in a copy, as (index, record), rising. -/
def Cfg.listed (c : Cfg) (code : Nat) : List (Nat × Rec) :=
  (c.tabs.filter (fun e => e.1 / 2 ^ 20 = code)).map (fun e => (e.1 % 2 ^ 20, e.2))

/-! ### Access to BAR0 -/

/-- Whether BAR0 serves the word at `a` (R417): GLB and PWR always, every other block only outside the phases of the
start and of NO_IMAGE. -/
def State.barOpen (s : State) (a : Nat) : Bool :=
  let ph := s.rd Reg.PWR_STAT_PHASE
  decide (a < 0x10000) || (decide (0x1D0000 ≤ a) && decide (a < 0x1E0000)) || (decide (6 ≤ ph) && ph != 9)

/-- A write of a register word has effect: from firmware always, from host software where BAR0 serves the word. -/
def State.mayWrite (s : State) (who : Requester) (a : Nat) : Bool := who = .firmware || s.barOpen a

/-! ### Free values and outputs -/

/-- The next free value: nothing constrains it (Config.freeNat). -/
def State.free (s : State) : Nat × State := (Config.freeNat s.freeCtr, { s with freeCtr := s.freeCtr + 1 })

/-- `s` with an output appended (newest first). -/
def State.emit (s : State) (o : Out) : State := { s with out := o :: s.out }

/-! ### Events (R335) -/

/-- Sources whose chapters raise them at most once per millisecond: all but PORT, TB and HIF. -/
def rateLimited (src : Nat) : Bool := 64 ≤ src ∧ ¬ (240 ≤ src ∧ src ≤ 243)

/-- `s` with counter `i` of block `b` one higher and no event: wraps at 2^32. -/
def State.count1 (s : State) (f : Fld) : State := s.wr f (s.rd f + 1)

/-- The ring named by event queue `q`, when the queue takes entries (R335). -/
def State.evqRing (s : State) (q : Nat) : Option Nat :=
  let r := s.rd (Reg.HIF_EVQ_RING q)
  if s.on (Reg.HIF_EVQ_EN q) ∧ s.on (Reg.HIF_RING_CFG_EN r) ∧ s.rd (Reg.HIF_RING_CFG_KIND r) = 5 then some r else none

/-- `ws` with one more raising of `src` counted on its waiting entry. -/
def coalesce (src : Nat) (ws : List EvWait) : List EvWait :=
  ws.map (fun w => if w.src = src then { w with count := min 65535 (w.count + 1) } else w)

/-- Routing of a raised source (R335): its entry waits, coalesces, or is discarded as misrouted.  A HIF counter that
passes half range here raises source 243 in turn; `fuel` bounds that chain (each counter passes half range at most
once in it). -/
def State.routeF : Nat → State → Nat → State
  | 0, s, _ => s
  | fuel + 1, s, src =>
    let count (s : State) (i : Nat) : State :=
      let f := Reg.HIF_CNT_COUNT i
      let old := s.rd f
      let s := s.wr f (old + 1)
      if bitOf old 31 = bitOf (old + 1) 31 then s
      else State.routeF fuel ((s.orBit Reg.HIF_HALF_HALF i).orBit Reg.HIF_EVT_CAUSE 3) 243
    if s.on (Reg.HIF_EVT_ROUTE_EN src) then
      match s.evqRing (s.rd (Reg.HIF_EVT_ROUTE_EVQ src)) with
      | none => count s C.HIF_MISROUTED
      | some _ =>
        if s.hif.evWait.any (fun w => w.src = src) then
          count { s with hif := { s.hif with evWait := coalesce src s.hif.evWait } } C.HIF_EVT_COALESCED
        else { s with hif := { s.hif with evWait := s.hif.evWait ++ [⟨src, 1, s.now⟩] } }
    else s

/-- Routing of a raised source (R335). -/
def State.route (s : State) (src : Nat) : State := State.routeF 4 s src

/-- Source `src` is raised: its cause bit, its index fields and its routing; a source limited to one raising per
millisecond is not raised again within it, and its index fields still name the latest occurrence. -/
def State.raise (s : State) (src : Nat) (idx : List (Fld × Nat) := []) : State :=
  let recent : Bool := match kvGet? s.hif.lastRaise src with
    | some t => decide (s.now < t + 1000000 ∧ t ≤ s.now)
    | none => false
  let s := idx.foldl (fun s p => s.wr p.1 p.2) s
  if rateLimited src ∧ recent then s else
    let s := if rateLimited src then { s with hif := { s.hif with lastRaise := kvSet s.hif.lastRaise src s.now } } else s
    let s := match causeOf src with
      | some (f, k) => s.orBit f k
      | none => s
    s.route src

/-- Port `n` sets cause `k` of PORT_EVT, and raises event n where PORT_EVT_EN has the bit (R87). -/
def State.portCause (s : State) (n k : Nat) : State :=
  let s := s.orBit (portEvtBit n k) 0
  if bitOf (s.rd (Reg.PORT_EVT_EN_EN n)) k then s.raise n else s

/-- Where a block records the index of its latest half-range event (R113, R130). -/
def Blk.halfIdx : Blk → List Fld
  | .ing => [Reg.ING_EVT_ENTRY_ENTRY 9]
  | .phe => [Reg.PHE_EVT_CHAN_CHAN 3]
  | .osc => [Reg.OSC_EVT_IDX_SET 7]
  | .isl => [Reg.ISL_EVT_IDX_INDEX 11]
  | .cap => [Reg.CAP_EVT_CH_CH 10]
  | .fsl => [Reg.FSL_EVT_IDX_INDEX 9]
  | .sched => [Reg.SCHED_EVT_IDX_INDEX 10]
  | .hif => [Reg.HIF_EVT_IDX_RING 3]
  | _ => []

/-- Counter `i` of block `b` counts up by `d`, for the entry, channel, ring … `x` (0 where it counts for none); where bit 31 changes, its HALF bit is set and the block's
half-range source raised (R83 and each block's HALF register). -/
def State.bumpBy (s : State) (b : Blk) (i d : Nat) (x : Nat := 0) : State :=
  let old := s.rd (b.cnt i)
  let s := s.wr (b.cnt i) (old + d)
  if bitOf old 31 = bitOf (old + d) 31 then s else
    (s.orBit b.half i).raise b.halfSource (b.halfIdx.map (fun f => (f, x)))

/-- Counter `i` of block `b` counts one. -/
def State.bump (s : State) (b : Blk) (i : Nat) (x : Nat := 0) : State := s.bumpBy b i 1 x

/-- Port `n`'s counter `i` counts up by `d` (R83). -/
def State.portCount (s : State) (n i : Nat) (d : Nat := 1) : State :=
  let f := Reg.PORT_CNT_COUNT n i
  let old := s.rd f
  let s := s.wr f (old + d)
  if bitOf old 31 = bitOf (old + d) 31 then s else
    (s.orBit (Reg.PORT_HALF_HALF n) i).portCause n 1

/-! ### Host interface: completions and management commands -/

/-- A ring's state before anything was done on it. -/
def Ring.init : Ring := ⟨0, 0, 0, [], [], 0, 0, false⟩

/-- Ring `r`. -/
def State.ring (s : State) (r : Nat) : Ring := kvGetD s.hif.rings r Ring.init

/-- `s` with ring `r` replaced. -/
def State.setRing (s : State) (r : Nat) (g : Ring) : State :=
  { s with hif := { s.hif with rings := kvPut s.hif.rings r g Ring.init } }

/-- Entries of ring `r`'s completion ring that are free for writing (R315). -/
def State.cqFree (s : State) (r : Nat) : Nat :=
  2 ^ s.rd (Reg.HIF_RING_CFG_CQ_LOG2 r) - ((s.ring r).cqTail + 65536 - (s.ring r).cqHead) % 65536

/-- Descriptors that the host has posted on ring `r` and the device has not consumed (R315). -/
def State.sqFill (s : State) (r : Nat) : Nat :=
  ((s.ring r).sqTail + 65536 - s.rd (Reg.HIF_RING_STAT_SQ_HEAD r)) % 65536

/-- Ring `r` is enabled and of kind `k`, so that a block may deliver to it (R316). -/
def State.ringIs (s : State) (r k : Nat) : Bool :=
  s.on (Reg.HIF_RING_CFG_EN r) && (s.rd (Reg.HIF_RING_CFG_KIND r) == k) && (k != 0 || r == 0)

/-- Everything outside the battery and always-on domains is held or off: a reset lasts (R416), or Bivouac does until the time
base is loaded again (R421, R429). -/
def State.dark (s : State) : Bool :=
  s.rd Reg.PWR_STAT_PHASE == 0
    || (match s.pwr.sleep with | some x => x.stage == .asleep || x.stage == .waking false | none => false)

/-- The device issues requests on its host link: HIF enabled, Bus Master Enable set, link up (R313, R338) and not in L1. -/
def State.hostUp (s : State) : Bool := s.on Reg.HIF_CTL_EN && s.hif.busMaster && s.hif.linkUp && !s.dark

/-- BACKLOG and STALL of ring `r` (R321): the completions held that find no free entry, or all of them while the
channel is suspended at a completion write (R345). -/
def State.backlog (s : State) (r : Nat) : State :=
  let g := s.ring r
  let n := match kvGet? s.xlt.susp r with
    | some u => if u.stream = 2 then g.held.length else g.held.length - s.cqFree r
    | none => g.held.length - s.cqFree r
  (s.wr (Reg.HIF_RING_STAT_BACKLOG r) (min n 256)).wrB (Reg.HIF_RING_STAT_STALL r) (decide (0 < n))

/-- The device produces completion `c` for ring `r` (R321): it is written in its turn by COMPLETION_WRITE.  Where the
completion ring has no entry for it, it is held, and a new holding episode is counted and raises event 240; on a
disabled ring it is then discarded (R316). -/
def State.complete (s : State) (r c : Nat) : State :=
  let g := s.ring r
  let fits := decide (g.held.length < s.cqFree r)
  if s.on (Reg.HIF_RING_CFG_EN r) then
    let stalled := s.on (Reg.HIF_RING_STAT_STALL r)
    let s := (s.setRing r { g with held := g.held ++ [c] }).backlog r
    if !fits && !stalled then
      (s.bump .hif C.HIF_CQ_WAITS r).raise 240 [(Reg.HIF_EVT_IDX_RING 0, r)]
    else s
  else if fits then s.setRing r { g with held := g.held ++ [c] }
  else s

/-- The completion status codes of R334. -/
inductive Status where
  | ok | late | past | busy | keyStale | truncated | xltFault | invalid | refusedInconsistent | tsLost | quenched
  | notPermitted | zeroized | overflow | underrun | degraded
  deriving DecidableEq, Repr

/-- The code of a status (R334). -/
def Status.code : Status → Nat
  | .ok => 0x00 | .late => 0x01 | .past => 0x02 | .busy => 0x03 | .keyStale => 0x04 | .truncated => 0x05
  | .xltFault => 0x06 | .invalid => 0x07 | .refusedInconsistent => 0x08 | .tsLost => 0x09 | .quenched => 0x0A
  | .notPermitted => 0x0B | .zeroized => 0x0C | .overflow => 0x0D | .underrun => 0x0E | .degraded => 0x0F

/-- Opcodes of the management commands (R330). -/
inductive Opcode where
  | nop | tableLoad | cinch | quench | schedule | keyOp | updateStage | sleep | cairn | attest | captureArm | resume
  deriving DecidableEq, Repr

/-- The number of an opcode (R330). -/
def Opcode.code : Opcode → Nat
  | .nop => 0x00 | .tableLoad => 0x01 | .cinch => 0x02 | .quench => 0x03 | .schedule => 0x04 | .keyOp => 0x05
  | .updateStage => 0x06 | .sleep => 0x07 | .cairn => 0x08 | .attest => 0x09 | .captureArm => 0x0A | .resume => 0x0B

/-- A management completion (R328): STATUS, OPCODE, TAG and the 12 bytes of RESULT. -/
def mgmtCpl (st : Status) (op : Opcode) (tag result : Nat) : Nat :=
  st.code + 2 ^ 8 * op.code + 2 ^ 16 * (tag % 2 ^ 16) + 2 ^ 32 * (result % 2 ^ 96)

/-- A management command is started and not complete at once: it is counted among those a CINCH waits for (R329). -/
def State.mgmtStart (s : State) (op : Opcode) (tag : Nat) : State :=
  { s with hif := { s.hif with running := s.hif.running ++ [(op.code, tag)] } }

/-- A management command completes (R328): it is taken from those in progress, and its completion is produced on the
management ring. -/
def State.mgmtDone (s : State) (op : Opcode) (tag : Nat) (st : Status) (result : Nat := 0) : State :=
  State.complete { s with hif := { s.hif with
    running := s.hif.running.erase (op.code, tag), hostOk := s.hif.hostOk || st == .ok } } 0 (mgmtCpl st op tag result)

/-- QUARANTINE (R408): the management ring serves only NOP, KEY_OP INFO and ATTEST. -/
def State.quarantine (s : State) : Bool := s.rd Reg.PWR_STAT_PHASE == 8

/-! ### Translation (R339 to R347) -/

/-- How a walk ends (R341). -/
inductive WalkEnd where
  | leaf (log2 pa : Nat) (r w : Bool)
  | fault (cls level entry : Nat)
  deriving DecidableEq, Repr

/-- The walk from `level` down over the entries it reads (R340, R341): class 1 NOT_VALID, 2 READ_DENIED,
3 WRITE_DENIED, 4 RESERVED, 5 WALK_ERROR. -/
def walk : Nat → List (Option (BitVec 64)) → Bool → WalkEnd
  | 0, _, _ => .fault 4 1 0
  | _ + 1, [], _ => .fault 5 0 0
  | lvl + 1, none :: _, _ => .fault 5 (lvl + 1) 0
  | lvl + 1, some e :: es, write =>
    let n := e.toNat
    let leafBit := bitOf n 7
    let perm (log2 pa : Nat) : WalkEnd :=
      if !write && !bitOf n 1 then .fault 2 (lvl + 1) n
      else if write && !bitOf n 2 then .fault 3 (lvl + 1) n
      else .leaf log2 pa (bitOf n 1) (bitOf n 2)
    if !bitOf n 0 then .fault 1 (lvl + 1) n
    else if bits n 52 12 ≠ 0 ∨ bits n 8 4 ≠ 0 ∨ bits n 3 4 ≠ 0 then .fault 4 (lvl + 1) n
    else match lvl with
      | 0 => if leafBit then perm 12 (bits n 12 40 * 2 ^ 12) else .fault 4 1 n
      | 1 =>
        if leafBit then (if bits n 12 9 ≠ 0 then .fault 4 2 n else perm 21 (bits n 12 40 * 2 ^ 12))
        else walk 1 es write
      | l + 2 => if leafBit then .fault 4 (l + 3) n else walk (l + 2) es write

/-- The cached leaf that maps `dva` with the permission asked for (R342). -/
def tlbFind (tlb : List TlbEntry) (dva : Nat) (write : Bool) : Option TlbEntry :=
  tlb.find? (fun e => dva / 2 ^ e.log2 = e.va / 2 ^ e.log2 && (if write then e.w else e.r))

/-- The bytes of a fault record (R347). -/
def FaultRec.bytes (f : FaultRec) : List Byte :=
  leBytes 1 f.cls ++ leBytes 1 f.access ++ leBytes 2 f.channel ++ leBytes 2 f.item ++ leBytes 1 f.level ++ leBytes 1 f.flags
    ++ leBytes 6 f.dva ++ leBytes 2 0 ++ leBytes 8 f.entry ++ leBytes 4 (f.ts % nsPerS) ++ leBytes 4 (f.ts / nsPerS)

/-- The fault ring takes a record, or loses it when full (R347). -/
def State.faultRecord (s : State) (cls access chan item level flags dva entry : Nat) : State :=
  let head := s.rd Reg.XLT_FRING_HEAD_HEAD
  let tail := s.rd Reg.XLT_FRING_TAIL_TAIL
  let s := s.bump .xlt C.XLT_FAULTS
  let s :=
    if (tail + 65536 - head) % 65536 < 2 ^ (s.rd Reg.XLT_FRING_BASE_LOG2 + 4) then
      (s.emit (.faultRecord tail (FaultRec.bytes ⟨cls, access, chan, item, level, flags, dva, entry, s.now⟩))).wr
        Reg.XLT_FRING_TAIL_TAIL (tail + 1)
    else ((s.wr Reg.XLT_STAT_FRING_FULL 1).bump .xlt C.XLT_FRING_LOST).raise 246
  s.raise 244

/-- XLT_CH_STAT and XLT_CH_VA show the channel that XLT_CH_SEL names (R354). -/
def State.chShow (s : State) : State :=
  let show_ (susp cls stream write item dva : Nat) : State :=
    let s := ((s.wr Reg.XLT_CH_STAT_SUSP susp).wr Reg.XLT_CH_STAT_CLASS cls).wr Reg.XLT_CH_STAT_STREAM stream
    ((s.wr Reg.XLT_CH_STAT_WRITE write).wr Reg.XLT_CH_STAT_ITEM item).wr Reg.XLT_CH_VA_DVA dva
  match kvGet? s.xlt.susp (s.rd Reg.XLT_CH_SEL_CHANNEL) with
  | some u => show_ 1 u.cls u.stream (natOf u.write) u.item u.dva
  | none => show_ 0 0 0 0 0 0

/-- Channel `chan` is marked suspended: its record, its SUSP bit and its backlog (R345). -/
def State.suspMark (s : State) (chan : Nat) (u : Susp) : State :=
  let s := { s with xlt := { s.xlt with susp := kvSet s.xlt.susp chan u } }
  let s := if chan = 64 then s.wr Reg.XLT_STAT_CTL_SUSP 1 else s.wr (Reg.HIF_RING_STAT_SUSP chan) 1
  (if chan < 64 then s.backlog chan else s).chShow

/-- Channel `chan` suspends (R345): its suspension is recorded and shown, unless it is suspended already, when the
fault is recorded with SECONDARY set and the suspension point stays. -/
def State.suspend (s : State) (chan stream : Nat) (write : Bool) (item taken dva cls level entry : Nat) : State :=
  let access := natOf write + 2 * stream
  match kvGet? s.xlt.susp chan with
  | some _ => s.faultRecord cls access chan item level 1 dva entry
  | none =>
    (s.suspMark chan ⟨cls, stream, write, item, dva, level, taken, none⟩).faultRecord cls access chan item level 0 dva entry

/-- How a translation ends: a bus address, or a fault with class, level and entry. -/
inductive Xlat where
  | ok (pa : Nat)
  | fault (cls level entry : Nat)
  deriving DecidableEq, Repr

/-- Translation of one access (R339 to R342): DISABLED while translation is off; a cached leaf that allows the access
serves it; otherwise a walk, whose leaf is cached (at most 4,096, the oldest dropped). -/
def State.translate (s : State) (dva : Nat) (write : Bool) (w : Walk) : Xlat × State :=
  if !s.on Reg.XLT_CTL_EN then (.fault 6 0 0, s) else
  match tlbFind s.xlt.tlb dva write with
  | some e => (.ok (e.pa + dva % 2 ^ e.log2), s)
  | none =>
    let s := s.bump .xlt C.XLT_WALKS
    match walk 4 w.entries write with
    | .fault c l e => (.fault c l e, s)
    | .leaf log2 pa r wr =>
      let entry : TlbEntry := ⟨dva / 2 ^ log2 * 2 ^ log2, log2, pa, r, wr⟩
      (.ok (pa + dva % 2 ^ log2), { s with xlt := { s.xlt with tlb := (entry :: s.xlt.tlb).take 4096 } })

/-- The accesses of one item on channel `chan` (R344, R345): true when they succeed; on a fault the channel
suspends at the item. -/
def State.dma (s : State) (chan stream : Nat) (write : Bool) (item taken dva : Nat) (d : Dma) : Bool × State :=
  match s.translate ((dva + d.offset) % 2 ^ 48) write d.walk with
  | (.ok _, s) => (true, s)
  | (.fault c l e, s) => (false, s.suspend chan stream write item taken ((dva + d.offset) % 2 ^ 48) c l e)

/-- The data buffer of a management command (R349): true when its accesses succeed; on a fault nothing suspends, and
the record has COMMAND set. -/
def State.cmdDma (s : State) (write : Bool) (item dva : Nat) (d : Dma) : Bool × State :=
  match s.translate ((dva + d.offset) % 2 ^ 48) write d.walk with
  | (.ok _, s) => (true, s)
  | (.fault c l e, s) =>
    (false, s.faultRecord c (natOf write + 2 * 1) 0 item l 2 ((dva + d.offset) % 2 ^ 48) e)

/-- The channel has no suspension. -/
def State.chanFree (s : State) (chan : Nat) : Bool := (kvGet? s.xlt.susp chan).isNone

/-! ### Vectors -/

/-- MSI-X vector `v` is signalled, or its pending bit set while it is masked (R312, R322). -/
def State.msi (s : State) (v : Nat) : State :=
  let w (i : Nat) := kvGetD s.hif.msixTable (16 * v + 4 * i) (if i = 3 then 1 else 0)
  if bitOf (w 3) 0 then { s with hif := { s.hif with msixPending := s.hif.msixPending ||| 2 ^ v } }
  else s.emit (.msi (w 0 + 2 ^ 32 * w 1) (w 2))

/-! ### Results of meanings -/

/-- The outcome of a command's meaning. -/
abbrev Result := Host.Outcome State Fault Refusal

/-- The command has its effect `t` where `g` holds; where it does not, the event has not come about, and nothing
changes. -/
def when (g : Bool) (s t : State) : Result := .next (if g then t else s)

/-- The meaning `t` of a management command that the device dequeues: from the acceptance of a SLEEP to the resumption it
dequeues none (R423). -/
def State.dequeued (s : State) (t : Result) : Result := if s.pwr.sleep.isSome then .next s else t

/-- The meaning `t` of a management command outside QUARANTINE; in it the command completes with NOT_PERMITTED (R334, R403,
R422). -/
def State.served (s : State) (op : Opcode) (tag : BitVec 16) (t : Result) : Result :=
  s.dequeued (if s.quarantine then .next (s.mgmtDone op tag.toNat .notPermitted) else t)

/-! ### Roles -/

/-- The package is the coordinator of R28: a single package (ENABLE 0, MODE 0 or 3), an ACTIVE unit of a pair, or the time master of a
MODE 2 team. -/
def State.coordinator (s : State) : Bool :=
  !s.on Reg.PAIR_CTL_ENABLE || s.rd Reg.PAIR_CTL_MODE == 0 || s.rd Reg.PAIR_CTL_MODE == 3
    || (s.rd Reg.PAIR_CTL_MODE == 1 && s.rd Reg.PAIR_STAT_STATE == 4)
    || (s.rd Reg.PAIR_CTL_MODE == 2 && s.rd Reg.PAIR_CTL_UNIT_ID == s.rd Reg.PAIR_CTL_MASTER)

/-! ### Messages to other packages (R359, R360) -/

/-- The package is a unit of a pair: MODE 1 (a package with ENABLE 0 and MODE 1 is in OFF). -/
def State.pairMode (s : State) : Bool := s.rd Reg.PAIR_CTL_MODE == 1 && (s.on Reg.PAIR_CTL_ENABLE || s.rd Reg.PAIR_STAT_STATE != 0)

/-- PAIR raises source `192 + k` (R379). -/
def State.pairEvent (s : State) (k : Nat) : State := s.raise (192 + k)

/-- This package's UNIT_ID. -/
def State.unitId (s : State) : Nat := s.rd Reg.PAIR_CTL_UNIT_ID

/-- The UNIT_ID of the partner. -/
def State.peer (s : State) : Nat := s.rd Reg.PAIR_STAT_PARTNER

/-- Link `l` is up. -/
def State.linkUp (s : State) (l : Nat) : Bool := s.rd (Reg.PAIR_LINK_LSTATE l) == 2

/-- The link that leads toward a unit, when its route is valid and the link up (R360). -/
def State.routeTo (s : State) (unit : Nat) : Option Nat :=
  let n := bits (s.rd Reg.PAIR_ROUTE_ROUTE) (4 * unit - 4) 4
  if unit != 0 && bitOf n 3 && s.linkUp (n % 4) then some (n % 4) else none

/-- A message without a route is discarded (R360). -/
def State.routeDiscard (s : State) : State := (s.bump .pair C.PAIR_ROUTE_DISCARD).pairEvent 14

/-- Nanoseconds and seconds of an instant, as records hold them. -/
def instBytes (t : Instant) : List Byte := leBytes 4 (t % nsPerS) ++ leBytes 6 (t / nsPerS)

/-- The bytes of a heartbeat after the message header (R361). -/
def Heartbeat.bytes (h : Heartbeat) : List Byte :=
  leBytes 1 h.state ++ leBytes 1 (natOf h.witOk + 2 * natOf h.timeMaster) ++ leBytes 2 h.claim ++ leBytes 4 h.epoch ++ leBytes 4 h.seq
    ++ instBytes h.ts ++ leBytes 1 h.decision ++ leBytes 1 0 ++ leBytes 4 h.target ++ instBytes h.boundary ++ leBytes 2 0
    ++ leBytes 4 h.peerSeq ++ leBytes 4 0 ++ ((List.range 8).map (fun p => leBytes 4 (kvGetD h.stNums p 0))).flatten
    ++ leBytes 8 h.outOn ++ ((List.range 64).map (fun o => instBytes (kvGetD h.outLast o 0))).flatten

/-- The bytes of a digest message after the message header (R372). -/
def DigestMsg.bytes (d : DigestMsg) : List Byte :=
  instBytes d.instant ++ leBytes 1 (natOf d.complete + 2 * natOf d.run) ++ leBytes 1 0 ++ leBytes 4 d.epoch ++ leBytes 32 d.digest
    ++ leBytes 32 d.safeOut

/-- The bytes of a message from one unit to another (R359), where spec/17 gives its MSG and layout: heartbeats, digests and
SYNC_REQ.  LEN counts the bytes after the header: DESIGN CHOICE, notes/assumptions/57.md. -/
def Hjel.bytes (src dst : Nat) (m : Hjel) : Option (List Byte) :=
  let whole (msg : Nat) (b : List Byte) : List Byte :=
    leBytes 1 msg ++ leBytes 1 (dst % 16 + 16 * src) ++ leBytes 2 b.length ++ b
  match m with
  | .heartbeat h => some (whole 1 h.bytes)
  | .digest d => some (whole 2 d.bytes)
  | .syncReq => some (whole 3 [])
  | _ => none

/-- A message leaves for a unit. -/
def State.emitHjel (s : State) (unit vc : Nat) (m : Hjel) : State := s.emit (.hjel unit vc m (m.bytes s.unitId unit))

/-- A message is sent to a unit on a virtual channel (R359, R360). -/
def State.sendHjel (s : State) (unit vc : Nat) (m : Hjel) : State :=
  match s.routeTo unit with
  | some _ => s.emitHjel unit vc m
  | none => s.routeDiscard

/-- A package of a pair sends a message to its partner. -/
def State.toPeer (s : State) (vc : Nat) (m : Hjel) : State := s.sendHjel s.peer vc m

/-- The package is the Belay: its shadow follows the Active's (R38). -/
def State.belay (s : State) : Bool := s.rd Reg.PAIR_STAT_STATE == 3 || s.rd Reg.PAIR_STAT_STATE == 6

/-- The package is the Active of a pair whose partner is its Belay and is not lost: it forwards what is staged (R38).  What is staged
between a resync image and its boundary, while the partner is in SYNC, is not forwarded: DESIGN CHOICE, notes/assumptions/58.md. -/
def State.forwards (s : State) : Bool :=
  s.rd Reg.PAIR_STAT_STATE == 4 && s.on Reg.PAIR_STAT_PARTNER_OK
    && (match kvGet? s.pair.heard s.peer with | some (h, _) => h.state == 3 | none => false)

/-! ### The members of a team -/

/-- The other units of a team that this package reaches (R360), or its partner. -/
def State.partners (s : State) : List Nat :=
  if !s.on Reg.PAIR_CTL_ENABLE then [] else
  match s.rd Reg.PAIR_CTL_MODE with
  | 1 => [s.peer]
  | 2 => (List.range 16).filter (fun u => u != 0 && u != s.unitId && bitOf (s.rd Reg.PAIR_ROUTE_ROUTE) (4 * u - 4 + 3))
  | _ => []

/-- A message goes to every one of a list of units. -/
def State.toUnits (s : State) (us : List Nat) (vc : Nat) (m : Hjel) : State := us.foldl (fun s u => s.sendHjel u vc m) s

end Sys2Proof.Machine
end

