-- ==== Sys2Proof/Machine/Grid.lean ====
section
/-!
DEFINITION. The grid of instants (R98, R132), the configuration and epoch of an instant (R35), and the fields of a
stream-table record that more than one block reads (R89, R149, R150).
-/
namespace Sys2Proof.Machine
open Sys2Proof

/-! ### Grids (R98, R132) -/

/-- Instant `k` of a second on the grid of `rate` instants per second, rounded to the nearest nanosecond. -/
def gridAt (rate sec k : Nat) : Instant := sec * nsPerS + (2 * k * nsPerS + rate) / (2 * rate)

/-- Index in its second of the grid instant nearest to `t`. -/
def gridIndex (rate : Nat) (t : Instant) : Nat := (2 * (t % nsPerS) * rate + nsPerS) / (2 * nsPerS)

/-- The grid instant nearest to `t`. -/
def snap (rate : Nat) (t : Instant) : Instant := gridAt rate (t / nsPerS) (gridIndex rate t)

/-- `t` is a grid instant. -/
def onGrid (rate : Nat) (t : Instant) : Bool := rate != 0 && snap rate t == t

/-- The first grid instant at or after `t`. -/
def gridFrom (rate : Nat) (t : Instant) : Instant :=
  if t ≤ snap rate t then snap rate t else gridAt rate (t / nsPerS) (gridIndex rate t + 1)

/-- The grid instant after the grid instant `t`. -/
def gridNext (rate : Nat) (t : Instant) : Instant := gridAt rate (t / nsPerS) (gridIndex rate t + 1)

/-- The grid instant before the grid instant `t`. -/
def gridPrev (rate : Nat) (t : Instant) : Instant :=
  if gridIndex rate t = 0 then gridAt rate (t / nsPerS - 1) (rate - 1) else gridAt rate (t / nsPerS) (gridIndex rate t - 1)

/-- Number of a grid instant, counted from instant 0. -/
def gridNumber (rate : Nat) (t : Instant) : Nat := t / nsPerS * rate + gridIndex rate t

/-! ### The configuration of an instant (R35) -/

/-- The configuration under which an instant falls: the retiring copy before its boundary, while held. -/
def State.cfgAt (s : State) (t : Instant) : Cfg :=
  match s.ret with
  | some r => if t < r.boundary then r.cfg else s.act
  | none => s.act

/-- The epoch of an instant. -/
def State.epochAt (s : State) (t : Instant) : Nat :=
  match s.ret with
  | some r => if t < r.boundary then r.epoch else s.rd Reg.GLB_EPOCH_EPOCH
  | none => s.rd Reg.GLB_EPOCH_EPOCH

/-- The configuration of an epoch (R33, R35): the active copy, the retiring copy, or an earlier one still referred to. -/
def State.cfgOfEpoch? (s : State) (n : Nat) : Option Cfg :=
  if n = s.rd Reg.GLB_EPOCH_EPOCH then some s.act else
  match s.ret with
  | some r => if n = r.epoch then some r.cfg else kvGet? s.glb.past n
  | none => kvGet? s.glb.past n

/-- The same, the active copy where it is gone. -/
def State.cfgOf (s : State) (n : Nat) : Cfg := (s.cfgOfEpoch? n).getD s.act

/-- The configuration under which a revision was built (R21, R33). -/
def State.cfgRev (s : State) (v : Revision) : Cfg := s.cfgOf v.epoch

/-- The epoch of a slice (R33). -/
def State.sliceEpoch (s : State) (x : Slice) : Nat := x.home.getD (s.epochAt x.instant)

/-- The configuration of a slice. -/
def State.sliceCfg (s : State) (x : Slice) : Cfg := s.cfgOf (s.sliceEpoch x)

/-! ### The slice grid (R132) -/

/-- F_s of a RATE code (R132). -/
def sliceRateOf (code : Nat) : Nat := ([10, 12, 15, 20, 25, 30, 50, 60, 100, 120, 200, 240][code]?).getD 10

/-- The slice rate of a configuration. -/
def Cfg.fs (c : Cfg) : Nat := sliceRateOf (c.fld Reg.STCH_CTL_RATE)

/-- The slice instant after `t`; across a boundary, the first one of the new configuration's grid. -/
def State.nextSlice (s : State) (t : Instant) : Instant :=
  let n := gridNext (s.cfgAt t).fs t
  match s.ret with
  | some r => if t < r.boundary ∧ r.boundary ≤ n then gridFrom s.act.fs r.boundary else n
  | none => n

/-! ### Stream-table records (R89, R149, R150) -/

/-- The stream-table record's KIND (R89). -/
def Rec.kind (r : Rec) : Nat := r.bitsAt 0 0 4

/-- An enabled entry. -/
def Rec.on (r : Rec) : Bool := r.bitAt 0 7

/-- An entry's class. -/
def Rec.cls (r : Rec) : Nat := r.bitsAt 1 0 3

/-- The scale records of an entry: first and count (R90). -/
def Cfg.scaleSpan (c : Cfg) (e : Nat) : Nat × Nat :=
  let r := c.tab 1 e
  if r.bitAt 0 5 then
    let k := r.at 46 1
    let h := e - k
    let before := ((List.range k).map (fun j => (c.tab 1 (h + j)).at 42 1 + (c.tab 1 (h + j)).at 43 1)).sum
    ((c.tab 1 h).bitsAt 48 0 17 + before, r.at 42 1 + r.at 43 1)
  else (r.bitsAt 48 0 17, if r.kind = 4 then r.at 54 1 else r.at 42 1 + r.at 43 1)

/-- Two configurations hold the same record and scale records of entry `e`. -/
def sameStream (old new : Cfg) (e : Nat) : Bool :=
  let (a, n) := old.scaleSpan e
  let (b, _) := new.scaleSpan e
  old.tab 1 e == new.tab 1 e && (List.range n).all (fun i => old.tab 2 (a + i) == new.tab 2 (b + i))

/-- A CINCH changes nothing that a placement of entry `e` rests on (R484). -/
def sameEntry (old new : Cfg) (e : Nat) : Bool :=
  sameStream old new e
    && ((old.tab 1 e).kind != 4 || old.tab 3 ((old.tab 1 e).at 52 2) == new.tab 3 ((new.tab 1 e).at 52 2))

/-- A measurement holds under epoch `n`: it was read under it, or the two configurations agree on what it rests on (R21, R484). -/
def State.fits (s : State) (m : Meas) (n : Nat) : Bool :=
  m.epoch == n || (match s.cfgOfEpoch? m.epoch, s.cfgOfEpoch? n with | some a, some b => sameEntry a b m.entry | _, _ => false)

/-- The enabled entries of a configuration, rising. -/
def Cfg.entries (c : Cfg) : List (Nat × Rec) := (c.listed 1).filter (fun e => e.2.on)

/-- Slices between an instant and the slice instant `t`, the first of them at or after the instant (R150). -/
def ageOf (fs : Nat) (v t : Instant) : Nat := gridNumber fs t - gridNumber fs (gridFrom fs v)

/-- Size of an entry's record (R150). -/
def Rec.size (r : Rec) : Nat := (16 + 8 * r.at 42 1 + 4 * r.at 43 1 + 2 * r.at 44 1 + 7) / 8 * 8

/-- LENGTH of a revision of a configuration (R149). -/
def Cfg.sliceLength (c : Cfg) : Nat := 128 + (c.entries.map (fun e => e.2.size)).sum

end Sys2Proof.Machine
end

