-- ==== Sys2Proof/Machine/Deliver.lean ====
section
/-!
DEFINITION. Publication items (R260, R261): which ones a kind delivers, and how they are dropped.
-/
namespace Sys2Proof.Machine
open Sys2Proof

/-- REV_MODE selects a revision (R254, R260): 0 every one, 1 revision 0 and material ones, 2 revision 0 only. -/
def revSelected (mode rev : Nat) (material : Bool) : Bool :=
  match mode with
  | 0 => true
  | 1 => rev == 0 || material
  | _ => rev == 0

/-- An item is dropped (R261): it is counted, and the next completion of its kind carries OVERFLOW. -/
def State.dropItem (s : State) (i : PubItem) : State :=
  State.bump { s with pub := { s.pub with
    items := s.pub.items.erase i
    dropped := kvSet s.pub.dropped i.kind (kvGetD s.pub.dropped i.kind 0 + 1) } } .pub C.PUB_DROPPED

/-- The oldest item of a kind is dropped. -/
def State.dropOldest (s : State) (kind : Nat) : State :=
  match s.pub.items.find? (fun i => i.kind == kind) with
  | some i => s.dropItem i
  | none => s

/-- An item is produced (R260, R261): it is held for its ring where its kind is enabled and selects it; while the backlog
of the kind is full, its oldest item is dropped first. -/
def State.produce (s : State) (i : PubItem) : State :=
  let n := s.cf (Reg.PUB_KIND_EVERY_N i.kind)
  let taken := s.cfOn (Reg.PUB_KIND_EN i.kind) && revSelected (s.cf (Reg.PUB_KIND_REV_MODE i.kind)) i.rev i.material
    && (i.kind != 0 || i.k % n == 0)
  if !taken then s else
  let held := (s.pub.items.filter (fun x => x.kind == i.kind)).length
  let s := if s.cf Reg.PUB_CTL_BACKLOG ≤ held then s.dropOldest i.kind else s
  { s with pub := { s.pub with items := s.pub.items ++ [i] } }

/-- A revision leaves the slice store: its item is dropped where delivery has not started (R261). -/
def State.revisionGone (s : State) (r : Revision) : State :=
  match s.pub.items.find? (fun i => i.kind == 0 && i.instant == r.instant && i.rev == r.rev) with
  | some i => s.dropItem i
  | none => s

/-- A suspended publication ring has part of a revision's item delivered (R151, R345). -/
def State.revRead (s : State) (r : Revision) : Bool :=
  s.xlt.susp.any (fun u => u.2.stream == 1 &&
    (match s.pub.items.find? (fun i => s.cf (Reg.PUB_KIND_RING i.kind) == u.1) with
     | some i => i.kind == 0 && i.instant == r.instant && i.rev == r.rev && s.ringIs u.1 3
     | none => false))

/-- The item of a revision. -/
def revisionItem (r : Revision) : PubItem := ⟨0, r.instant, r.k, r.rev, r.material, r.length, .revision r⟩

end Sys2Proof.Machine
end

