-- ==== Sys2Proof/Machine/Crc.lean ====
section
/-!
DEFINITION. The CRC-32 of table images and names, and what it covers in an image (R88).
-/
namespace Sys2Proof.Machine
open Sys2Proof

/-- One byte into the reflected CRC-32. -/
def crc32Byte (c b : Nat) : Nat :=
  (List.range 8).foldl (fun c _ => if c % 2 = 1 then (c / 2) ^^^ 0xEDB88320 else c / 2) (c ^^^ b)

/-- CRC-32 of R88 over bytes: polynomial 0x04C11DB7 reflected, initial value and final XOR 0xFFFFFFFF. -/
def crc32 (bs : List Byte) : Nat := (bs.foldl (fun c b => crc32Byte c b.toNat) 0xFFFFFFFF) ^^^ 0xFFFFFFFF

/-- The bytes of a table image that its CRC covers: header bytes 0 to 59 and every record (R88). -/
def TableImage.crcBytes (i : TableImage) : List Byte :=
  leBytes 4 i.magic.toNat ++ leBytes 2 i.version.toNat ++ leBytes 2 i.recSize.toNat ++ leBytes 4 i.first.toNat
    ++ leBytes 4 i.count.toNat ++ leBytes 44 i.reserved.toNat ++ (i.records.map (leBytes i.recSize.toNat)).flatten

/-- An image of records that firmware itself wrote. -/
def firmwareImage (magic recSize first : Nat) (records : List Nat) : TableImage :=
  let i : TableImage := ⟨BitVec.ofNat 32 magic, 1, BitVec.ofNat 16 recSize, BitVec.ofNat 32 first,
    BitVec.ofNat 32 records.length, 0, 0, records⟩
  { i with crc := BitVec.ofNat 32 (crc32 i.crcBytes) }

end Sys2Proof.Machine
end

