-- ==== Sys2Proof/Machine/Crypto.lean ====
section
/-!
DEFINITION. The functions of other standards that the spec names and does not restate: SHA-256 (FIPS 180-4), HMAC (FIPS 198-1), AES
(FIPS 197), AES-GMAC (SP 800-38D), AES key unwrap (RFC 3394) and CCM* (IEEE 802.15.4).  PRESUMED, notes/assumptions/11.md.
-/
namespace Sys2Proof.Machine
open Sys2Proof

/-! ### SHA-256 and HMAC -/

/-- The round constants of SHA-256. -/
def shaK : List (BitVec 32) :=
  [0x428A2F98, 0x71374491, 0xB5C0FBCF, 0xE9B5DBA5, 0x3956C25B, 0x59F111F1, 0x923F82A4, 0xAB1C5ED5] ++
  [0xD807AA98, 0x12835B01, 0x243185BE, 0x550C7DC3, 0x72BE5D74, 0x80DEB1FE, 0x9BDC06A7, 0xC19BF174] ++
  [0xE49B69C1, 0xEFBE4786, 0x0FC19DC6, 0x240CA1CC, 0x2DE92C6F, 0x4A7484AA, 0x5CB0A9DC, 0x76F988DA] ++
  [0x983E5152, 0xA831C66D, 0xB00327C8, 0xBF597FC7, 0xC6E00BF3, 0xD5A79147, 0x06CA6351, 0x14292967] ++
  [0x27B70A85, 0x2E1B2138, 0x4D2C6DFC, 0x53380D13, 0x650A7354, 0x766A0ABB, 0x81C2C92E, 0x92722C85] ++
  [0xA2BFE8A1, 0xA81A664B, 0xC24B8B70, 0xC76C51A3, 0xD192E819, 0xD6990624, 0xF40E3585, 0x106AA070] ++
  [0x19A4C116, 0x1E376C08, 0x2748774C, 0x34B0BCB5, 0x391C0CB3, 0x4ED8AA4A, 0x5B9CCA4F, 0x682E6FF3] ++
  [0x748F82EE, 0x78A5636F, 0x84C87814, 0x8CC70208, 0x90BEFFFA, 0xA4506CEB, 0xBEF9A3F7, 0xC67178F2]

/-- The initial hash value of SHA-256. -/
def shaInit : List (BitVec 32) :=
  [0x6A09E667, 0xBB67AE85, 0x3C6EF372, 0xA54FF53A, 0x510E527F, 0x9B05688C, 0x1F83D9AB, 0x5BE0CD19]

/-- Element `i` of a list of words. -/
def wordAt (l : List (BitVec 32)) (i : Nat) : BitVec 32 := (l[i]?).getD 0

/-- One more word of the message schedule, whose words stand newest first. -/
def shaExtend (w : List (BitVec 32)) : List (BitVec 32) :=
  let x := wordAt w 14
  let y := wordAt w 1
  let a := x.rotateRight 7 ^^^ x.rotateRight 18 ^^^ (x >>> 3)
  let b := y.rotateRight 17 ^^^ y.rotateRight 19 ^^^ (y >>> 10)
  (b + wordAt w 6 + a + wordAt w 15) :: w

/-- One round: working variables a to h. -/
def shaRound (v : List (BitVec 32)) (kw : BitVec 32 × BitVec 32) : List (BitVec 32) :=
  match v with
  | [a, b, c, d, e, f, g, h] =>
    let t := h + (e.rotateRight 6 ^^^ e.rotateRight 11 ^^^ e.rotateRight 25) + ((e &&& f) ^^^ (~~~e &&& g)) + kw.1 + kw.2
    let u := (a.rotateRight 2 ^^^ a.rotateRight 13 ^^^ a.rotateRight 22) + ((a &&& b) ^^^ (a &&& c) ^^^ (b &&& c))
    [t + u, a, b, c, d + t, e, f, g]
  | v => v

/-- The first `n` words that a byte list spells, the first byte of each the highest. -/
def shaWords : Nat → List Byte → List (BitVec 32)
  | 0, _ => []
  | n + 1, l => BitVec.ofNat 32 (beNat (l.take 4)) :: shaWords n (l.drop 4)

/-- One block of 64 bytes into the hash value. -/
def shaBlock (h : List (BitVec 32)) (block : List Byte) : List (BitVec 32) :=
  let w := ((List.range 48).foldl (fun w _ => shaExtend w) (shaWords 16 block).reverse).reverse
  List.zipWith (· + ·) h ((shaK.zip w).foldl shaRound h)

/-- The first `n` blocks of 64 bytes. -/
def shaBlocks : Nat → List (BitVec 32) → List Byte → List (BitVec 32)
  | 0, h, _ => h
  | n + 1, h, l => shaBlocks n (shaBlock h (l.take 64)) (l.drop 64)

/-- SHA-256 of a byte string, as 32 bytes. -/
def sha256Bytes (m : List Byte) : List Byte :=
  let pad := (119 - m.length % 64) % 64
  let l := m ++ [0x80] ++ List.replicate pad 0 ++ beBytes 8 (8 * m.length)
  ((shaBlocks (l.length / 64) shaInit l).map (fun w => beBytes 4 w.toNat)).flatten

/-- SHA-256 of a byte string, as the number that its 32 bytes make in a little-endian field (R3). -/
def sha256 (m : List Byte) : Nat := leNat (sha256Bytes m)

/-- HMAC-SHA256 under a key of at most 64 bytes. -/
def hmacBytes (key m : List Byte) : List Byte :=
  let k := key ++ List.replicate (64 - key.length) 0
  sha256Bytes (k.map (· ^^^ 0x5C) ++ sha256Bytes (k.map (· ^^^ 0x36) ++ m))

/-- HMAC-SHA256 under a key of 32 bytes (R395), both as little-endian numbers. -/
def hmacSha256 (key : Nat) (m : List Byte) : Nat := leNat (hmacBytes (leBytes 32 key) m)

/-! ### AES -/

/-- The substitution box. -/
def aesSbox : List Byte :=
  [0x63, 0x7C, 0x77, 0x7B, 0xF2, 0x6B, 0x6F, 0xC5, 0x30, 0x01, 0x67, 0x2B, 0xFE, 0xD7, 0xAB, 0x76] ++
  [0xCA, 0x82, 0xC9, 0x7D, 0xFA, 0x59, 0x47, 0xF0, 0xAD, 0xD4, 0xA2, 0xAF, 0x9C, 0xA4, 0x72, 0xC0] ++
  [0xB7, 0xFD, 0x93, 0x26, 0x36, 0x3F, 0xF7, 0xCC, 0x34, 0xA5, 0xE5, 0xF1, 0x71, 0xD8, 0x31, 0x15] ++
  [0x04, 0xC7, 0x23, 0xC3, 0x18, 0x96, 0x05, 0x9A, 0x07, 0x12, 0x80, 0xE2, 0xEB, 0x27, 0xB2, 0x75] ++
  [0x09, 0x83, 0x2C, 0x1A, 0x1B, 0x6E, 0x5A, 0xA0, 0x52, 0x3B, 0xD6, 0xB3, 0x29, 0xE3, 0x2F, 0x84] ++
  [0x53, 0xD1, 0x00, 0xED, 0x20, 0xFC, 0xB1, 0x5B, 0x6A, 0xCB, 0xBE, 0x39, 0x4A, 0x4C, 0x58, 0xCF] ++
  [0xD0, 0xEF, 0xAA, 0xFB, 0x43, 0x4D, 0x33, 0x85, 0x45, 0xF9, 0x02, 0x7F, 0x50, 0x3C, 0x9F, 0xA8] ++
  [0x51, 0xA3, 0x40, 0x8F, 0x92, 0x9D, 0x38, 0xF5, 0xBC, 0xB6, 0xDA, 0x21, 0x10, 0xFF, 0xF3, 0xD2] ++
  [0xCD, 0x0C, 0x13, 0xEC, 0x5F, 0x97, 0x44, 0x17, 0xC4, 0xA7, 0x7E, 0x3D, 0x64, 0x5D, 0x19, 0x73] ++
  [0x60, 0x81, 0x4F, 0xDC, 0x22, 0x2A, 0x90, 0x88, 0x46, 0xEE, 0xB8, 0x14, 0xDE, 0x5E, 0x0B, 0xDB] ++
  [0xE0, 0x32, 0x3A, 0x0A, 0x49, 0x06, 0x24, 0x5C, 0xC2, 0xD3, 0xAC, 0x62, 0x91, 0x95, 0xE4, 0x79] ++
  [0xE7, 0xC8, 0x37, 0x6D, 0x8D, 0xD5, 0x4E, 0xA9, 0x6C, 0x56, 0xF4, 0xEA, 0x65, 0x7A, 0xAE, 0x08] ++
  [0xBA, 0x78, 0x25, 0x2E, 0x1C, 0xA6, 0xB4, 0xC6, 0xE8, 0xDD, 0x74, 0x1F, 0x4B, 0xBD, 0x8B, 0x8A] ++
  [0x70, 0x3E, 0xB5, 0x66, 0x48, 0x03, 0xF6, 0x0E, 0x61, 0x35, 0x57, 0xB9, 0x86, 0xC1, 0x1D, 0x9E] ++
  [0xE1, 0xF8, 0x98, 0x11, 0x69, 0xD9, 0x8E, 0x94, 0x9B, 0x1E, 0x87, 0xE9, 0xCE, 0x55, 0x28, 0xDF] ++
  [0x8C, 0xA1, 0x89, 0x0D, 0xBF, 0xE6, 0x42, 0x68, 0x41, 0x99, 0x2D, 0x0F, 0xB0, 0x54, 0xBB, 0x16]

/-- A byte substituted, and the reverse. -/
def aesSub (b : Byte) : Byte := (aesSbox[b.toNat]?).getD 0
def aesSubInv (b : Byte) : Byte := BitVec.ofNat 8 (aesSbox.idxOf b)

/-- Multiplication by x in GF(2^8). -/
def aesX (b : Byte) : Byte := (b <<< 1) ^^^ (if b.msb then 0x1B else 0)

/-- The product in GF(2^8). -/
def aesMul (a b : Byte) : Byte :=
  ((List.range 8).foldl (fun (p : Byte × Byte) i => (if a.getLsbD i then p.1 ^^^ p.2 else p.1, aesX p.2)) (0, b)).1

/-- The bytes of two strings added. -/
def xorBytes (a b : List Byte) : List Byte := List.zipWith (· ^^^ ·) a b

/-- One more word of the key schedule; the words stand newest first, `nk` is the length of the key in words. -/
def aesExtend (nk : Nat) (w : List (List Byte)) : List (List Byte) :=
  let i := w.length
  let t := (w[0]?).getD []
  let t :=
    if i % nk = 0 then xorBytes ((t.drop 1 ++ t.take 1).map aesSub) [(List.range (i / nk - 1)).foldl (fun r _ => aesX r) 1, 0, 0, 0]
    else if nk = 8 ∧ i % 8 = 4 then t.map aesSub else t
  xorBytes ((w[nk - 1]?).getD []) t :: w

/-- The round keys of a key of 16 or 32 bytes. -/
def aesKeys (key : List Byte) : List (List Byte) :=
  let nk := key.length / 4
  let w := ((List.range (4 * (nk + 7) - nk)).foldl (fun w _ => aesExtend nk w)
    ((List.range nk).map (fun i => (key.drop (4 * i)).take 4)).reverse).reverse
  (List.range (nk + 7)).map (fun r => ((w.drop (4 * r)).take 4).flatten)

/-- Byte `i` of a block. -/
def byteAt (s : List Byte) (i : Nat) : Byte := (s[i]?).getD 0

/-- The rows of a block shifted, and back. -/
def aesShift (s : List Byte) : List Byte := (List.range 16).map (fun i => byteAt s ((i + 4 * (i % 4)) % 16))
def aesShiftInv (s : List Byte) : List Byte := (List.range 16).map (fun i => byteAt s ((i + 12 * (i % 4)) % 16))

/-- The columns of a block multiplied by a circulant of four coefficients. -/
def aesMix (c : List Byte) (s : List Byte) : List Byte :=
  (List.range 16).map (fun i =>
    (List.range 4).foldl (fun r j => r ^^^ aesMul (byteAt c ((j + 4 - i % 4) % 4)) (byteAt s (i / 4 * 4 + j))) 0)

/-- A block enciphered under a key of 16 or 32 bytes. -/
def aesEnc (key block : List Byte) : List Byte :=
  match aesKeys key with
  | [] => block
  | k :: ks =>
    let s := (ks.dropLast).foldl (fun s k => xorBytes (aesMix [2, 3, 1, 1] (aesShift (s.map aesSub))) k) (xorBytes block k)
    xorBytes (aesShift (s.map aesSub)) (ks.getLastD [])

/-- A block deciphered. -/
def aesDec (key block : List Byte) : List Byte :=
  match (aesKeys key).reverse with
  | [] => block
  | k :: ks =>
    let s := (ks.dropLast).foldl (fun s k => aesMix [14, 11, 13, 9] (xorBytes ((aesShiftInv s).map aesSubInv) k)) (xorBytes block k)
    xorBytes ((aesShiftInv s).map aesSubInv) (ks.getLastD [])

/-! ### AES-GMAC -/

/-- The product in GF(2^128), the first bit of a block the highest of its number. -/
def gcmMul (x y : Nat) : Nat :=
  ((List.range 128).foldl (fun (p : Nat × Nat) i =>
    (if bitOf x (127 - i) then p.1 ^^^ p.2 else p.1, if p.2 % 2 = 1 then (p.2 / 2) ^^^ (0xE1 * 2 ^ 120) else p.2 / 2)) (0, y)).1

/-- The first `n` blocks of 16 bytes into a hash. -/
def ghash (h : Nat) : Nat → Nat → List Byte → Nat
  | 0, y, _ => y
  | n + 1, y, l => ghash h n (gcmMul (y ^^^ beNat (l.take 16)) h) (l.drop 16)

/-- A byte string filled with zeros to whole blocks. -/
def padBlock (l : List Byte) : List Byte := l ++ List.replicate ((16 - l.length % 16) % 16) 0

/-- The AES-GMAC-128 tag of a message under a key of 16 bytes and an initialisation vector of 12, as a little-endian number. -/
def aesGmac (key : Nat) (iv m : List Byte) : Nat :=
  let k := leBytes 16 key
  let h := beNat (aesEnc k (List.replicate 16 0))
  let l := padBlock m ++ beBytes 8 (8 * m.length) ++ beBytes 8 0
  leNat (beBytes 16 (ghash h (l.length / 16) 0 l ^^^ beNat (aesEnc k (iv ++ [0, 0, 0, 1]))))

/-! ### AES key unwrap -/

/-- One step of the unwrapping: the integrity register, and the blocks of 8 bytes. -/
def unwrapStep (kek : List Byte) (p : List Byte × List (List Byte)) (t i : Nat) : List Byte × List (List Byte) :=
  let b := aesDec kek (xorBytes p.1 (beBytes 8 t) ++ (p.2[i]?).getD [])
  (b.take 8, p.2.set i (b.drop 8))

/-- The key that a wrapped blob holds under a wrapping key of 32 bytes; none where the integrity check fails. -/
def keyUnwrap (kek : Nat) (c : List Byte) : Option (List Byte) :=
  let n := c.length / 8 - 1
  let (a, r) := (List.range (6 * n)).foldl (fun p k => unwrapStep (leBytes 32 kek) p (6 * n - k) ((6 * n - k - 1) % n))
    (c.take 8, (List.range n).map (fun i => (c.drop (8 * i + 8)).take 8))
  if a = List.replicate 8 0xA6 then some r.flatten else none

/-! ### CCM* -/

/-- The counter block `i` of a nonce of 13 bytes. -/
def ccmBlock (nonce : List Byte) (i : Nat) : List Byte := [1] ++ nonce ++ beBytes 2 i

/-- The first `n` blocks of 16 bytes into a CBC-MAC. -/
def cbcMac (key : List Byte) : Nat → List Byte → List Byte → List Byte
  | 0, x, _ => x
  | n + 1, x, l => cbcMac key n (aesEnc key (xorBytes x (l.take 16))) (l.drop 16)

/-- A payload enciphered or deciphered. -/
def ccmCrypt (key : Nat) (nonce m : List Byte) : List Byte :=
  let s := ((List.range ((m.length + 15) / 16)).map (fun i => aesEnc (leBytes 16 key) (ccmBlock nonce (i + 1)))).flatten
  xorBytes m s

/-- The message integrity code of `size` bytes over header bytes and a payload in the clear. -/
def ccmMic (key size : Nat) (nonce a m : List Byte) : List Byte :=
  if size = 0 then [] else
  let k := leBytes 16 key
  let first := [BitVec.ofNat 8 ((if a.isEmpty then 0 else 64) + 8 * ((size - 2) / 2) + 1)] ++ nonce ++ beBytes 2 m.length
  let l := first ++ (if a.isEmpty then [] else padBlock (beBytes 2 a.length ++ a)) ++ padBlock m
  xorBytes ((cbcMac k (l.length / 16) (List.replicate 16 0) l).take size) (aesEnc k (ccmBlock nonce 0))

end Sys2Proof.Machine
end

