-- ==== Sys2Proof/Machine/Diag.lean ====
section
/-!
DEFINITION. The safe state and the reports of diagnostics, which every block reaches (R383 to R386), the error log (R452), and
the start and end of a key operation (R405).
-/
namespace Sys2Proof.Machine
open Sys2Proof

/-- The device is in the safe state. -/
def State.safe (s : State) : Bool := s.on Reg.SAFE_STAT_SAFE

/-- The instant at which the safe state was entered. -/
def State.safeSince (s : State) : Instant := s.rd Reg.SAFE_ENTRY_TIME_S * nsPerS + s.rd Reg.SAFE_ENTRY_TIME_NS

/-- A safe-state reaction (R385, R386): the first one latches the safe state, records cause and instant, raises event
208 and drives every ALM_OUT pin static low; a later one leaves the first cause, and of two at one instant the lower code stays. -/
def State.enterSafe (s : State) (cause : Nat) : State :=
  if s.safe then
    (if s.safeSince = s.now ∧ cause < s.rd Reg.SAFE_STAT_CAUSE then s.wr Reg.SAFE_STAT_CAUSE cause else s)
  else
  let s := (s.wr Reg.SAFE_STAT_SAFE 1).wr Reg.SAFE_STAT_CAUSE cause
  let s := s.wrInstant Reg.SAFE_ENTRY_TIME_S Reg.SAFE_ENTRY_TIME_NS s.now
  State.raise { s with pins := [] } 208

/-- A fault without a safe-state reaction (R384): LAST_REPORT, DIAG_REPORTS and event 209. -/
def State.report (s : State) (cause : Nat) : State :=
  ((s.wr Reg.SAFE_STAT_LAST_REPORT cause).bump .safe C.SAFE_DIAG_REPORTS).raise 209

/-- A report whose would-be cause the spec does not number (R384): the cause is a free value. -/
def State.reportFree (s : State) : State :=
  let (n, s) := s.free
  s.report (n % 256)

/-! ### The error log (R450, R452) -/

/-- An error record as a number (R452). -/
def ErrRec.val (r : ErrRec) : Nat :=
  r.cls + 2 ^ 8 * r.mem + 2 ^ 16 * r.unit + 2 ^ 32 * r.code + 2 ^ 64 * r.addr + 2 ^ 128 * (r.ts % nsPerS) + 2 ^ 160 * (r.ts / nsPerS)
    + 2 ^ 208 * r.count

/-- ERR_LOG_DATA shows the record that ERR_LOG_SEL selects. -/
def State.logShow (s : State) : State :=
  let v := match kvGet? s.err.log (s.rd Reg.ERR_LOG_SEL_REC) with | some r => r.val | none => 0
  (List.range 8).foldl (fun s w => s.wr (Reg.ERR_LOG_DATA_DATA w) (bits v (32 * w) 32)) s

/-- An error is logged (R452): a record with the same code, unit and address counts one more; else the oldest place takes a new
record, and one that was never selected is lost. -/
def State.logError (s : State) (cls mem unit code addr : Nat) : State :=
  match s.err.log.find? (fun e => e.2.code == code && e.2.unit == unit && e.2.addr == addr) with
  | some (k, r) => State.logShow { s with err := { s.err with log := kvSet s.err.log k { r with count := min 65535 (r.count + 1) } } }
  | none =>
    let n := s.rd Reg.ERR_LOG_HEAD_WRITTEN
    let lost := match kvGet? s.err.log (n % 64) with | some r => !r.seen | none => false
    let s := if lost then (s.bump .err C.ERR_LOG_LOST).raise 253 else s
    let s := { s with err := { s.err with log := kvSet s.err.log (n % 64) ⟨cls, mem, unit, code, addr, s.now, 1, false⟩ } }
    (s.wr Reg.ERR_LOG_HEAD_WRITTEN (n + 1)).logShow

/-- A correctable error (R450): logged, counted, event 248. -/
def State.correctable (s : State) (mem unit code addr : Nat) : State :=
  ((s.logError 1 mem unit code addr).bump .err C.ERR_CORRECTED).raise 248

/-- A recoverable error (R450): logged, counted, event 249. -/
def State.recoverable (s : State) (mem unit code addr : Nat) : State :=
  ((s.logError 2 mem unit code addr).bump .err C.ERR_RECOVERED).raise 249

/-! ### Keys in use (R395 to R397, R405) -/

/-- A slot that was never written (R395). -/
def KeySlot.empty : KeySlot := ⟨0, 0, 0, 0, 0, 0, none, false, 0, 0, 0⟩

/-- Slot `i`. -/
def State.slot (s : State) (i : Nat) : KeySlot := kvGetD s.slots i KeySlot.empty

/-- A consumer's engine starts an operation with the key bound for slot `i`, under algorithm `alg` and use bit `use`
(R395, R397, R405): with a usable key the slot's USES counts, saturating; else STALE_OPS and event 229. -/
def State.keyStart (s : State) (i alg use : Nat) : KeyUse × State :=
  match kvGet? s.bound i with
  | some b =>
    if b.valid && b.alg == alg && bitOf b.usage use then
      let k := s.slot i
      (⟨i, b.key, true⟩, { s with slots := kvPut s.slots i { k with uses := min 0xFFFFFFFF (k.uses + 1) } KeySlot.empty })
    else (⟨i, 0, false⟩, (s.bump .key C.KEY_STALE_OPS).raise 229)
  | none => (⟨i, 0, false⟩, (s.bump .key C.KEY_STALE_OPS).raise 229)

/-- A consumer's operation that began at `t` and ends now (R405): with the old key where its slot became INVALID in between,
which the second component tells. -/
def State.keyBegan (s : State) (i alg use : Nat) (t : Instant) : KeyUse × Bool × State :=
  let old : Option BoundKey := match kvGet? s.bound i with
    | some b => if b.alg == alg && bitOf b.usage use && (match b.ended with | some e => decide (t < e) | none => false) then some b else none
    | none => none
  match old with
  | some b => (⟨i, b.key, true⟩, true, s)
  | none => let (k, s) := s.keyStart i alg use; (k, false, s)

/-- The key of an operation became invalid after it started (R405): its result carries KEY_STALE. -/
def State.keyStaleNow (s : State) (k : KeyUse) : Bool :=
  match kvGet? s.bound k.slot with
  | some b => !b.valid
  | none => false

end Sys2Proof.Machine
end

