-- ==== Sys2Proof/Machine/Trigger.lean ====
section
/-!
DEFINITION. Capture channels (spec/11): their states, triggers, records and buffer space, and what the rest of the block
hands them: frames, samples and slices about to be overwritten, written completions, alarms.
-/
namespace Sys2Proof.Machine
open Sys2Proof

/-! ### Channel records (R229) -/

def Rec.capOn (r : Rec) : Bool := r.bitAt 0 7
def Rec.capGuar (r : Rec) : Bool := r.bitAt 0 6
def Rec.capAuto (r : Rec) : Bool := r.bitAt 0 5
def Rec.capXarm (r : Rec) : Bool := r.bitAt 0 4
def Rec.capXfire (r : Rec) : Bool := r.bitAt 0 3
def Rec.capSource (r : Rec) : Nat := r.bitsAt 0 1 2
def Rec.capPre (r : Rec) : Nat := r.at 20 4 * 1000000
def Rec.capPost (r : Rec) : Nat := r.at 24 4 * 1000000
def Rec.capSettle (r : Rec) : Nat := r.at 28 2 * 1000000
def Rec.capBuf (r : Rec) : Nat := r.at 36 2 * 2 ^ 26

/-- The bits of CAUSES that trigger `n` sets for a channel (R230, R244); 0 where it is no trigger of the channel. -/
def Rec.capMask (r : Rec) (n : Nat) : Nat :=
  if n ≤ 10 then (if r.bitAt 2 n then 2 ^ n else 0)
  else if n < 16 then 0
  else ((List.range 8).map (fun k => if r.at (4 + 2 * k) 2 = n - 16 then 2 ^ (16 + k) else 0)).sum

/-! ### Space (R236, R242, R243, R246) -/

/-- Bytes of an item (R245). -/
def CapItem.bytes : CapItem → Nat
  | .slice r => r.length
  | .sample v _ => 24 + 8 * v.values.length
  | .frame f => 32 + (f.capLen + 7) / 8 * 8

/-- Bytes of a record (R244). -/
def CapRec.len (r : CapRec) : Nat := 128 + 16 * r.causes.length + r.bytes

/-- A channel after reset: IDLE, with nothing recorded. -/
def CapChan.init : CapChan :=
  { phase := .idle, rcd := none, queue := [], seq := 0, missed := 0, left := 0, prev := none, notArmed := none, dead := 0
    holdAt := 0, holdCount := 0, satisfied := false, disarm := false, retire := false, waiting := false, drained := 0
    sent := [], frames := [] }

/-- Bytes of its buffer that a channel holds. -/
def CapChan.used (x : CapChan) : Nat :=
  (match x.rcd with | some r => r.len | none => 0) + (x.queue.map CapRec.len).sum + (x.sent.map CapRec.len).sum
    + (x.frames.map (fun f => (CapItem.frame f).bytes)).sum

/-- Channel `c`. -/
def State.capChan (s : State) (c : Nat) : CapChan := kvGetD s.cap.chans c CapChan.init

/-- The active record of channel `c`. -/
def State.capCfg (s : State) (c : Nat) : Rec := s.act.tab 15 c

/-- Free bytes of channel `c`'s buffer. -/
def State.capFree (s : State) (c : Nat) : Nat := (s.capCfg c).capBuf - (s.capChan c).used

/-- The numbers of the states (R253). -/
def CapPhase.code : CapPhase → Nat
  | .idle => 0 | .holdoff => 1 | .waitXarm => 2 | .armed => 3 | .recording => 4

/-- `s` with channel `c` replaced, its status registers kept in step (R253). -/
def State.setCapChan (s : State) (c : Nat) (x : CapChan) : State :=
  let s := { s with cap := { s.cap with chans := kvPut s.cap.chans c x CapChan.init } }
  let s := s.wr Reg.CAP_STAT_STATE (setBits (s.rd Reg.CAP_STAT_STATE) (3 * c) 3 x.phase.code)
  (s.wr (Reg.CAP_CH_STAT_FREE_MIB c) (min 65535 (s.capFree c / 2 ^ 20))).wr (Reg.CAP_CH_STAT_PENDING c)
    (min 255 x.queue.length)

/-- CAP raises source `128 + k` for a channel (R252). -/
def State.capEvent (s : State) (k c : Nat) : State := s.raise (128 + k) [(Reg.CAP_EVT_CH_CH k, c)]

/-- The worst record of a GUARANTEED channel, in bytes (R243). -/
def Cfg.capWorst (c : Cfg) (r : Rec) : Nat :=
  let ms := r.at 20 4 + r.at 24 4
  match r.capSource with
  | 0 => 512 + c.sliceLength * (ms * c.fs / 1000 + 1)
  | 1 =>
    let b := ((c.listed 1).map (fun e =>
      if e.2.on && e.2.kind == 4 && r.bitAt 64 (e.2.at 52 2) then e.2.at 40 2 * (24 + 8 * e.2.at 54 1) else 0)).sum
    512 + b * (ms + 1) / 1000
  | _ =>
    let rate (n : Nat) : Nat := match c.fld (Reg.PORT_CFG_MODE n) with
      | 1 => 125000000 | 2 => 125000000 | 3 => 312500000 | 0 => 0 | _ => 1250000000
    let b := ((List.range 48).map (fun n => if r.bitAt 44 n then rate n else 0)).sum * 12 / 10
    512 + b * ms / 1000

/-! ### Completion of a record (R236, R240, R242) -/

/-- First and last instant of a record's window (R240). -/
def CapRec.start (r : CapRec) : Instant := r.tp - r.cfg.capPre
def CapRec.stop (r : CapRec) : Instant := r.tp + r.cfg.capPost

/-- Items of the window that a record cut short has not recorded (R242): by the grid of slices or samples; for frames, the
one that found no space. -/
def State.capLost (s : State) (r : CapRec) (overflow : Bool) : Nat :=
  let c := s.cfgAt r.tp
  let onGridIn (rate : Nat) : Nat :=
    if rate = 0 then 0 else gridNumber rate (gridFrom rate (r.stop + 1)) - gridNumber rate (gridFrom rate r.start)
  match r.cfg.capSource with
  | 0 => onGridIn c.fs - r.items.length
  | 1 =>
    ((c.listed 1).map (fun e =>
      if e.2.on && e.2.kind == 4 && r.cfg.bitAt 64 (e.2.at 52 2) then onGridIn (e.2.at 40 2) else 0)).sum - r.items.length
  | _ => natOf overflow

/-- The record of channel `c` completes (R236, R240, R242): it is queued for the drain, and the channel goes to HOLDOFF or
IDLE. -/
def State.capComplete (s : State) (c : Nat) (overflow aborted : Bool) : State :=
  let x := s.capChan c
  match x.rcd with
  | none => s
  | some r =>
    let lost := if overflow || aborted then s.capLost r overflow else r.lost
    let r := { r with overflow, aborted, lost, done := s.now }
    let again := r.cfg.capAuto && !x.disarm && !x.retire && (s.capCfg c).capOn
    let x := { x with rcd := none, queue := x.queue ++ [r], disarm := false, retire := false }
    let x := if again then { x with phase := .holdoff, holdAt := s.now, holdCount := 0, satisfied := false }
      else { x with phase := .idle, frames := [] }
    let s := ((s.setCapChan c x).bump .cap C.CAP_RECORDS c).capEvent 1 c
    if overflow then (s.bump .cap C.CAP_OVERFLOWS c).capEvent 4 c else s

/-- An item is appended to the record of channel `c`; a channel without space for it completes with OVERFLOW when BEST
(R242), and waits when GUARANTEED (R241). -/
def State.capTake (s : State) (c : Nat) (key : Nat) (i : CapItem) : State :=
  let x := s.capChan c
  match x.rcd with
  | none => s
  | some r =>
    if s.capFree c < i.bytes then (if r.cfg.capGuar then s else s.capComplete c true false)
    else s.setCapChan c { x with rcd := some { r with items := r.items ++ [i], bytes := r.bytes + i.bytes, taken := some key } }

/-! ### Freezing (R151, R241, R242) -/

/-- Channels 0 to 7. -/
def capChans : List Nat := List.range 8

/-- Channel `c` is recording from `source`, and an item with `key` at `t` lies in its window and is not yet taken. -/
def State.capWants (s : State) (c source : Nat) (t : Instant) (key : Nat) : Bool :=
  match (s.capChan c).rcd with
  | none => false
  | some r => r.cfg.capSource == source && decide (r.start ≤ t) && decide (t ≤ r.stop)
      && (match r.taken with | some k => decide (k < key) | none => true)

/-- The record of channel `c` is that of a GUARANTEED channel. -/
def State.capFreezes (s : State) (c : Nat) : Bool := match (s.capChan c).rcd with | some r => r.cfg.capGuar | none => false

/-- The slice of instant `t` is frozen by a capture (R151, R241). -/
def State.sliceFrozen (s : State) (t : Instant) : Bool :=
  capChans.any (fun c => s.capFreezes c && s.capWants c 0 t (8192 * t))

/-- The stream of a raw sample is selected by a channel record (R229). -/
def State.capSelects (s : State) (r : Rec) (v : RawSv) : Bool := r.bitAt 64 (((s.cfgAt v.instant).tab 1 v.entry).at 52 2)

/-- Channel `c` still has to take the raw sample `v`. -/
def State.wantsSample (s : State) (c : Nat) (v : RawSv) : Bool :=
  s.capWants c 1 v.instant (8192 * v.instant + v.entry)
    && (match (s.capChan c).rcd with | some r => s.capSelects r.cfg v | none => false)

/-- BEST records whose window holds a slice that is overwritten before they took it complete with OVERFLOW (R242). -/
def State.sliceOverwritten (s : State) (t : Instant) : State :=
  capChans.foldl (fun s c => if s.capWants c 0 t (8192 * t) && !s.capFreezes c then s.capComplete c true false else s) s

/-- Raw history keeps 10 s, and beyond that the samples frozen; a BEST record that loses a sample completes (R241,
R242). -/
def State.pruneRaw (s : State) : State :=
  let old := s.rawSv.filter (fun v => decide (v.instant + 10 * nsPerS < s.now))
  let gone := old.filter (fun v => !capChans.any (fun c => s.capFreezes c && s.wantsSample c v))
  let s := gone.foldl (fun s v =>
    capChans.foldl (fun s c => if s.wantsSample c v && !s.capFreezes c then s.capComplete c true false else s) s) s
  { s with rawSv := s.rawSv.filter (fun v => !gone.contains v) }

/-! ### Pulses (R234, R253) -/

/-- A pulse on TRIG_OUT[k] (R253): a measurement in progress keeps its pin for itself (R232). -/
def State.trigOut (s : State) (k : Nat) : State :=
  if s.cap.cal.isSome && s.rd Reg.CAP_CAL_OUT == k then s else
  State.emit { s with cap := { s.cap with tout := kvSet s.cap.tout k (s.now + 1000 * s.cf (Reg.CAP_TOUT_WIDTH_US k)) } }
    (.trigOut k s.now)

/-- TB alarm `k` fired: the pulse of TRIG_OUT[k] with SRC 0b10 (R253). -/
def State.almPulse (s : State) (k : Nat) : State := if s.cf (Reg.CAP_TOUT_SRC k) = 2 then s.trigOut k else s

/-- A pulse of this unit on XFIRE (R234). -/
def State.driveXfire (s : State) : State :=
  State.emit (State.wr { s with cap := { s.cap with xfire := some (s.now + 1000, true) } } Reg.CAP_X_XFIRE_IN 1) (.xfire s.now)

/-! ### Triggers (R235 to R239) -/

/-- What became of a trigger on a channel. -/
inductive Fired where
  | none | fired | merged | missed
  deriving DecidableEq, Repr

/-- The trigger point of a cause that is no alarm: the greatest slice instant at or before its time (R235). -/
def State.trigPoint (s : State) (t : Instant) : Instant :=
  let fs := (s.cfgAt t).fs
  if t < snap fs t then gridPrev fs (snap fs t) else snap fs t

/-- The source holds nothing for the start of a window (R240): no slice there, nor one still to be released. -/
def State.preShort (s : State) (x : CapChan) (r : CapRec) : Bool :=
  match r.cfg.capSource with
  | 0 =>
    let first := gridFrom (s.cfgAt r.start).fs r.start
    !s.stch.store.any (fun v => v.instant == first)
      && !s.stch.slices.any (fun x => x.phase == .opened && x.instant == first)
      && !(s.on Reg.STCH_STAT_PRODUCING && decide (s.stch.next ≤ first))
  | 1 =>
    !s.rawSv.any (fun v =>
      let rate := ((s.cfgAt v.instant).tab 1 v.entry).at 40 2
      decide (v.instant ≤ gridFrom rate r.start) && s.capSelects r.cfg v)
  | _ => decide (r.start < x.left)

/-- An ARMED channel fires (R236, R239): a record opens with the causes given. -/
def State.capFire (s : State) (c : Nat) (causes : List CapCause) (tp : Instant) : State :=
  let x := s.capChan c
  let cfg := s.capCfg c
  match causes with
  | [] => s
  | first :: _ =>
    let from_ := match x.prev with | some p => max p x.left | none => x.left
    let sends := cfg.capXfire && causes.any (fun k => k.trigger != 8)
    let seq := if x.seq = 2 ^ 32 - 1 then 1 else x.seq + 1
    let r : CapRec :=
      { seq, cfg, epoch := s.epochAt tp, tp, causes, mask := (causes.map (fun k => cfg.capMask k.trigger)).foldl (· ||| ·) 0
        dead := min x.dead (first.time - from_), missed := x.missed, preShort := false, overflow := false, aborted := false
        xfireSent := sends, items := [], bytes := 0, lost := 0, taken := none, done := 0 }
    let r := { r with preShort := s.preShort x r }
    let frames := x.frames.filter (fun f => decide (r.start ≤ f.ts) && decide (f.ts ≤ r.stop))
    let items := frames.map CapItem.frame
    let r := { r with items, bytes := (items.map CapItem.bytes).sum }
    let x := { x with
      phase := .recording, rcd := some r, seq, missed := 0, prev := some first.time, notArmed := some first.time, dead := 0
      frames := [] }
    let s := ((s.setCapChan c x).wr (Reg.CAP_CH_SEQ_SEQ c) seq).wr (Reg.CAP_CH_MISS_MISSED c) 0
    let s := (s.bump .cap C.CAP_FIRES c).capEvent 0 c
    let s := (List.range 4).foldl (fun s k =>
      if s.cf (Reg.CAP_TOUT_SRC k) == 1 && s.cf (Reg.CAP_TOUT_CH k) == c then s.trigOut k else s) s
    if sends then s.driveXfire else s

/-- A trigger of channel `c` is missed (R237, R238). -/
def State.capMiss (s : State) (c : Nat) : State :=
  let x := s.capChan c
  let s := s.setCapChan c { x with
    missed := min (2 ^ 32 - 1) (x.missed + 1), holdCount := if x.phase = .holdoff then x.holdCount + 1 else x.holdCount }
  ((s.wr (Reg.CAP_CH_MISS_MISSED c) (min (2 ^ 32 - 1) (s.rd (Reg.CAP_CH_MISS_MISSED c) + 1))).bump .cap C.CAP_MISSED c).capEvent 3 c

/-- Causes that reach channel `c` in one cycle (R236, R237): a record in progress keeps the channel record it started with
(R249). -/
def State.capTrigger (s : State) (c : Nat) (causes : List CapCause) (tp : Instant) : Fired × State :=
  let x := s.capChan c
  let cfg := match x.rcd with | some r => r.cfg | none => s.capCfg c
  let mine := causes.filter (fun k => cfg.capMask k.trigger != 0)
  if mine.isEmpty || !cfg.capOn || s.on Reg.ERR_STAT_FATAL then (.none, s) else
  match x.phase, x.rcd with
  | .armed, _ => (.fired, s.capFire c mine tp)
  | .recording, some r =>
    if r.tp = tp then
      let r := { r with
        causes := (r.causes ++ mine).take 19
        mask := (mine.map (fun k => r.cfg.capMask k.trigger)).foldl (· ||| ·) r.mask }
      (.merged, (s.setCapChan c { x with rcd := some r }).bumpBy .cap C.CAP_MERGED mine.length c)
    else (.missed, mine.foldl (fun s _ => s.capMiss c) s)
  | _, _ => (.missed, mine.foldl (fun s _ => s.capMiss c) s)

/-- Causes that reach every channel in one cycle. -/
def State.trigger (s : State) (causes : List CapCause) (tp : Instant) : State :=
  capChans.foldl (fun s c => (s.capTrigger c causes tp).2) s

/-! ### Frames (R240) -/

/-- A frame on port `n` reaches the channels that record raw frames: each keeps it while it is not IDLE (R240), in the
record when it lies in the window, else among the frames kept, the oldest of which make room. -/
def State.capFrame (s : State) (n : Nat) (f : Frame) : State :=
  let ts := s.now - f.age - s.cf (Reg.PORT_TS_RX_LAT_NS n)
  capChans.foldl (fun s c =>
    let x := s.capChan c
    let cfg := match x.rcd with | some r => r.cfg | none => s.capCfg c
    if x.phase == .idle || cfg.capSource != 2 || !cfg.bitAt 44 n then s else
    let len := min f.len (cfg.at 38 2)
    let raw : RawFrame := ⟨ts, n, decide (cfg.at 38 2 < f.len), !f.fcsOk, f.len, len, f.bytes.take len⟩
    match x.rcd with
    | some r => if decide (r.start ≤ ts) && decide (ts ≤ r.stop) then s.capTake c (8192 * ts) (.frame raw) else s
    | none =>
      let room := (s.capCfg c).capBuf - ({ x with frames := [] } : CapChan).used
      let fits (l : List RawFrame) : Bool := decide ((l.map (fun f => (CapItem.frame f).bytes)).sum ≤ room)
      let keep (l : List RawFrame) : List RawFrame :=
        ((List.range (l.length + 1)).findSome? (fun k => if fits (l.drop k) then some (l.drop k) else none)).getD []
      s.setCapChan c { x with frames := keep (x.frames ++ [raw]) }) s

/-! ### Written completions (R246) -/

/-- Completions of a capture ring are written, or discarded with their ring: the space of their records frees.  For a
record completed with OK it is drained (event 130). -/
def State.captureWritten (s : State) (cs : List Nat) (written : Bool) : State :=
  cs.foldl (fun s v =>
    let c := v / 2 ^ 8 % 256
    let x := s.capChan c
    if v % 256 ≠ 0 then s else
    let s := s.setCapChan c { x with sent := x.sent.tail }
    if written then (s.bump .cap C.CAP_DRAINED c).capEvent 2 c else s) s

/-! ### XARM (R234, R236) -/

/-- Channel `c` becomes ARMED: its dead time so far is closed (R239). -/
def State.capArmed (s : State) (c : Nat) : State :=
  let x := s.capChan c
  let d := match x.notArmed with | some t => s.now - t | none => 0
  s.setCapChan c { x with phase := .armed, dead := x.dead + d, notArmed := none }

/-- The level at the XARM ball changes, and the channels with XARM_EN follow it (R234, R236). -/
def State.xarmChange (s : State) (level : Bool) : State :=
  capChans.foldl (fun s c =>
    let x := s.capChan c
    if !(s.capCfg c).capXarm then s
    else if level && x.phase == .waitXarm then (s.capArmed c).capEvent 8 c
    else if !level && x.phase == .armed then
      (s.setCapChan c { x with phase := .waitXarm, notArmed := some s.now }).capEvent 8 c
    else s) (s.wrB Reg.CAP_X_XARM_IN level)

/-! ### Boundaries (R236, R249) -/

/-- Channel `c` goes to IDLE; a record in progress completes with ABORTED where `abort` holds, else under its own record,
after which the channel is IDLE. -/
def State.capIdle (s : State) (c : Nat) (abort : Bool) : State :=
  let x := s.capChan c
  if x.phase = .recording then
    let s := s.setCapChan c { x with retire := true }
    if abort then s.capComplete c false true else s
  else s.setCapChan c { x with phase := .idle, frames := [] }

/-- Capture takes the configuration that applies in place of `old` (R236, R249, R253); a unit that becomes the master drives
XARM (R234). -/
def State.capApply (s : State) (old : Cfg) : State :=
  let s := capChans.foldl (fun s c =>
    if old.tab 15 c = s.capCfg c ∧ (s.capCfg c).capOn then s else s.capIdle c false) s
  let level := s.on Reg.CAP_X_XARM_LEVEL
  let s := if s.cfOn Reg.CAP_X_XARM_MASTER && s.on Reg.CAP_X_XARM_IN != level then s.xarmChange level else s
  s.wr Reg.CAP_RES_STAT_USED_MBS ((capChans.map (fun c =>
    let r := s.capCfg c
    if r.capOn && r.capGuar then r.at 40 4 else 0)).sum % 2 ^ 16)

/-- Every channel enters IDLE at Bivouac entry (R249). -/
def State.capBivouac (s : State) : State := capChans.foldl (fun s c => s.capIdle c true) s

end Sys2Proof.Machine
end

