-- ==== Sys2Proof/Machine/TimeBase.lean ====
section
/-!
DEFINITION. The time base: its tick, its increment, its references and servo states, leap seconds, PTP, 1PPS, IRIG-B,
REF10M_IN, its alarms and its plausibility check (spec/03).
-/
namespace Sys2Proof.Machine
open Sys2Proof

/-! ### The count -/

/-- Instants wrap with the 48-bit seconds count (R44). -/
def instantModulus : Nat := 2 ^ 48 * nsPerS

/-- One tick of the TB clock with a step of `delta` ns applied at it (R44, R45, R47): the new time is the old time plus
the step plus the increment, a waiting increment first becoming the one in force.  A PPS_OUT pulse is due at the first tick at or after
an instant with N = 0 (R63), which is one that lies less than an increment after it. -/
def State.tickWith (s : State) (delta : Int) : State :=
  let inc := s.tb.incrNext.getD s.tb.incr
  let f := s.tb.frac + inc % 2 ^ 32
  let t := ((s.tb.ns + inc / 2 ^ 32 + f / 2 ^ 32 : Nat) : Int) + delta
  let ns := (t % (instantModulus : Int)).toNat
  { s with tb := { s.tb with
    ns, frac := f % 2 ^ 32, incr := inc, incrNext := none
    ppsDue := decide (ns % nsPerS * 2 ^ 32 + f % 2 ^ 32 < inc) } }

/-- One tick of the TB clock. -/
def State.tick (s : State) : State := s.tickWith 0

/-! ### Servo state, quality -/

/-- The numbers of TB_STAT.STATE (R51, R69). -/
def tbFREE : Nat := 0
def tbACQUIRING : Nat := 1
def tbLOCKED : Nat := 2
def tbHOLDOVER : Nat := 3

/-- TB_STAT.STATE. -/
def State.tbState (s : State) : Nat := s.rd Reg.TB_STAT_STATE

/-- TB_TQ.CODE from STATE and TB_ERR (R53). -/
def tqCode (st err : Nat) : Nat :=
  if st = tbLOCKED ∧ err ≤ 1000 then 0x0
  else if st = tbFREE ∨ err = 0xFFFFFFFF then 0xF
  else if err ≤ 1 then 0x1 else if err ≤ 10 then 0x2 else if err ≤ 100 then 0x3
  else if err ≤ 1000 then 0x4 else if err ≤ 10000 then 0x5 else if err ≤ 100000 then 0x6
  else if err ≤ 1000000 then 0x7 else if err ≤ 10000000 then 0x8 else if err ≤ 100000000 then 0x9
  else if err ≤ 1000000000 then 0xA else 0xB

/-- `s` with TB_TQ.CODE derived anew (R53). -/
def State.setTq (s : State) : State := s.wr Reg.TB_TQ_CODE (tqCode s.tbState (s.rd Reg.TB_ERR_ERR_NS))

/-- UNLOCK_S as read now (R53): 0 while LOCKED, the reset value before STATE has ever been LOCKED, else whole seconds
since STATE last left LOCKED.  DESIGN CHOICE (notes/assumptions/31.md): the time base itself counts these seconds, and those of TB_ERR,
so that a step of the time base shifts both. -/
def State.unlockS (s : State) : Nat :=
  if s.tbState = tbLOCKED then 0 else
  match s.tb.leftLocked with
  | none => Reg.TB_TQ_UNLOCK_S.rst
  | some t => min 0xFFFFFF ((s.now - t) / nsPerS)

/-- STATE becomes `st` (R51): each change raises event 48; leaving LOCKED starts UNLOCK_S; entering HOLDOVER starts the
once-per-second growth of TB_ERR and gives firmware, while it owns the time base, its single write of TB_INCR (R52). -/
def State.setTbState (s : State) (st : Nat) : State :=
  let old := s.tbState
  let s := s.wr Reg.TB_STAT_STATE st
  let s := { s with tb := { s.tb with
    leftLocked := if old = tbLOCKED ∧ st ≠ tbLOCKED then some s.now else s.tb.leftLocked
    everLocked := s.tb.everLocked || st == tbLOCKED
    lockCount := 0
    holdNext := if st = tbHOLDOVER ∧ old ≠ tbHOLDOVER then s.now + nsPerS else s.tb.holdNext
    holdWrite := if st = tbHOLDOVER then (if old = tbHOLDOVER then s.tb.holdWrite else !s.on Reg.TB_CTL_OWNER) else false } }
  let s := if old = st then s else s.raise 48
  s.setTq

/-- The requester owns TB_INCR, TB_STEP, TB_UTC and TB_ERR (R46). -/
def State.ownsTb (s : State) (who : Requester) : Bool :=
  match who with
  | .firmware => !s.on Reg.TB_CTL_OWNER
  | .host => s.on Reg.TB_CTL_OWNER

/-- TB_INCR_WRITE (R45, R46, R52): the 40-bit value is taken at the next tick, or the write is discarded: from a
requester that is not the owner (OWNER_WR), outside the range (INCR_RANGE), or, from firmware in HOLDOVER, after its
single write. -/
def execTbIncrWrite (who : Requester) (high : BitVec 32) (s : State) : Result :=
  let v := high.toNat % 256 * 2 ^ 32 + s.tb.incrLow.toNat
  if !s.mayWrite who 0x4000C then .next s
  else if !s.ownsTb who then .next (s.wr Reg.TB_STAT_OWNER_WR 1)
  else if who = .firmware && s.tbState == tbHOLDOVER && !s.tb.holdWrite then .next s
  else if v < 0x01FD70A3D7 ∨ 0x02028F5C29 < v then .next (s.wr Reg.TB_STAT_INCR_RANGE 1)
  else .next { s with tb := { s.tb with incrNext := some v, holdWrite := false } }

/-! ### Alarms (R65) -/

/-- The instant an alarm's registers hold. -/
def State.almInstant (s : State) (k : Nat) : Instant := s.rdInstant (Reg.TB_ALM_S k) (Reg.TB_ALM_NS k)

/-- TB_ALM_ARM (R65): the word that holds EN is written; with EN 1 the alarm arms with the instant held. -/
def execTbAlmArm (k : Fin 4) (word : BitVec 32) (s : State) : Result :=
  if !s.barOpen (0x40068 + 0x10 * k) then .next s else
  let n := word.toNat
  let s := s.wr (Reg.TB_ALM_S k) (setBits (s.rd (Reg.TB_ALM_S k)) 32 16 (n % 2 ^ 16))
  let s := if bitOf n 17 then s.wr (Reg.TB_ALM_LATE k) 0 else s
  let s := s.wrB (Reg.TB_ALM_EN k) (bitOf n 16)
  if bitOf n 16 then
    let t := s.almInstant k
    .next { s with tb := { s.tb with almNext := kvSet s.tb.almNext k (t, decide (t < s.now)) } }
  else .next { s with tb := { s.tb with almNext := kvDel s.tb.almNext k } }

/-- Alarm `k` fires (R65): its event, LATE where its instant had passed at arming or instants were missed, and then
either EN cleared or the next multiple of the period after the present time. -/
def State.almFire (s : State) (k : Nat) (late : Bool) : State :=
  match kvGet? s.tb.almNext k with
  | none => s
  | some (t, l) =>
    let p := s.rd (Reg.TB_ALM_PERIOD_NS k)
    let s := (s.raise (60 + k)).almPulse k
    if p = 0 then
      let s := if l || late then s.wr (Reg.TB_ALM_LATE k) 1 else s
      { s.wr (Reg.TB_ALM_EN k) 0 with tb := { s.tb with almNext := kvDel s.tb.almNext k } }
    else
      let missed := decide (t + p ≤ s.now)
      let s := if l || late || missed then s.wr (Reg.TB_ALM_LATE k) 1 else s
      let next := t + p * ((s.now - t) / p + 1)
      { s with tb := { s.tb with almNext := kvSet s.tb.almNext k (next, false) } }

/-- Alarm `k` is armed and its instant reached. -/
def State.almDue (s : State) (k : Nat) : Bool :=
  match kvGet? s.tb.almNext k with
  | none => false
  | some (t, _) => decide (t ≤ s.now)

/-- TB_ALM_FIRE (R65). -/
def execTbAlmFire (k : Fin 4) (s : State) : Result := when (s.almDue k) s (s.almFire k false)

/-! ### References (R51 to R57) -/

/-- Reference codes of TB_REF and TB_STAT.ACTIVE_REF (R55). -/
def refPTP : Nat := 1
def refIRIG : Nat := 2
def refPPS : Nat := 3
def refHJEL : Nat := 4

/-- The sync interval in ns: 2^LOG_SYNC s (R57). -/
def State.syncInterval (s : State) : Nat := nsPerS / 2 ^ ((16 - s.cf Reg.TB_PTP_CFG_LOG_SYNC) % 16)

/-- The package is the time master of its pair or team (R373): its own Hjel reference never qualifies. -/
def State.timeMaster (s : State) : Bool :=
  s.on Reg.PAIR_CTL_ENABLE
    && ((s.rd Reg.PAIR_CTL_MODE == 1 && s.rd Reg.PAIR_STAT_STATE == 4)
      || (s.rd Reg.PAIR_CTL_MODE == 2 && s.rd Reg.PAIR_CTL_UNIT_ID == s.rd Reg.PAIR_CTL_MASTER))

/-- The ports with ROLE slave, rising (R57). -/
def State.slavePorts (s : State) : List Nat := filterBelow 48 (fun n => s.cf (Reg.TB_PTP_PORT_ROLE n) == 2)

/-- The other slave port of a PRP Harness still stands by (R57). -/
def State.standby (s : State) : Bool := decide (2 ≤ s.slavePorts.length) && s.tb.ptpPort.isNone

/-- No Announce came for 3 announce intervals (R51, R57). -/
def State.announceLost (s : State) : Bool := decide (s.tb.refs.ptpLastAnnounce + 3 * nsPerS ≤ s.now)

/-- No Sync came for 4 sync intervals (R51). -/
def State.syncLost (s : State) : Bool := decide (s.tb.refs.ptpLastSync + 4 * s.syncInterval ≤ s.now)

/-- Reference `r` is lost (R51, R373).  While the second slave port of a PRP Harness stands by, a want of Announce messages changes the
port instead (R57). -/
def State.refLost (s : State) (r : Nat) : Bool :=
  let q := s.tb.refs
  if r = refPTP then (s.announceLost && !s.standby) || s.syncLost
  else if r = refIRIG then
    decide (2 ≤ q.irigBad) || (match q.irigLast with | some (_, t) => decide (t + 3 * nsPerS ≤ s.now) | none => true)
  else if r = refPPS then (match q.ppsLast with | some t => decide (t + 1001000000 < s.now) | none => true)
  else if r = refHJEL then decide (q.hjelLast + 5000000 ≤ s.now) || s.timeMaster
  else false

/-- Reference `r` qualifies now (R51, R373). -/
def State.qualifies (s : State) (r : Nat) : Bool :=
  let q := s.tb.refs
  !s.refLost r &&
    (if r = refPTP then decide (4 ≤ q.ptpAnnounces) && decide (2 ≤ q.ptpSyncs)
     else if r = refIRIG then decide (2 ≤ q.irigGood)
     else if r = refPPS then decide (4 ≤ q.ppsEdges)
     else if r = refHJEL then decide (8 ≤ q.hjelMsgs)
     else false)

/-- What was counted of reference `r` does not carry over a loss (R51). -/
def RefQual.restart (q : RefQual) (r : Nat) : RefQual :=
  if r = refPTP then { q with ptpAnnounces := 0, ptpSyncs := 0 }
  else if r = refIRIG then { q with irigGood := 0, irigLast := none, irigBad := 0 }
  else if r = refPPS then { q with ppsEdges := 0, ppsLast := none }
  else if r = refHJEL then { q with hjelMsgs := 0 }
  else q

/-- The event that a missing edge or frame of reference `r` raises (R67). -/
def State.missing (s : State) (r : Nat) : State :=
  if r = refPPS then s.raise 57 else if r = refIRIG then s.raise 58 else s

/-- What was counted of reference `r` is void (R51). -/
def State.voidRef (s : State) (r : Nat) : State := { s with tb := { s.tb with refs := s.tb.refs.restart r } }

/-- The active reference is lost, or given up for another (R51): event 50; STATE falls to HOLDOVER where it has once been LOCKED,
or the hardware detector found the loss (`hw`), else to FREE, and no reference is in use. -/
def State.loseRef (s : State) (hw : Bool) : State :=
  let s := ((s.voidRef (s.rd Reg.TB_STAT_ACTIVE_REF)).wr Reg.TB_STAT_ACTIVE_REF 0).raise 50
  if s.tbState = tbLOCKED ∨ s.tbState = tbACQUIRING then
    s.setTbState (if s.tb.everLocked || hw then tbHOLDOVER else tbFREE)
  else s

/-- The reference that is to be used now: the primary whenever it qualifies, else the secondary (R55). -/
def State.bestRef (s : State) : Nat :=
  let p := s.cf Reg.TB_REF_PRI
  let q := s.cf Reg.TB_REF_SEC
  if p ≠ 0 ∧ s.qualifies p then p else if q ≠ 0 ∧ s.qualifies q then q else 0

/-- REF_QUALIFY (R51, R55): in FREE or HOLDOVER with a qualified reference, STATE becomes ACQUIRING under it. -/
def execRefQualify (s : State) : Result :=
  when ((s.tbState == tbFREE || s.tbState == tbHOLDOVER) && s.bestRef != 0) s
    ((s.wr Reg.TB_STAT_ACTIVE_REF s.bestRef).setTbState tbACQUIRING)

/-- REF_LOSS (R51, R55, R67): the active reference is lost, or a qualified primary takes over from the secondary, which counts as
a loss. -/
def execRefLoss (s : State) : Result :=
  let r := s.rd Reg.TB_STAT_ACTIVE_REF
  let switch := s.bestRef != 0 && s.bestRef != r
  when (r != 0 && (s.refLost r || switch)) s
    (if s.refLost r then (s.missing r).loseRef false else s.loseRef false)

/-- The hardware detector finds reference `r` lost that edges or frames came from (R51, R67): its event and the end of what was counted;
where it is in use, the loss. -/
def State.hwLoss (s : State) (r : Nat) : State :=
  if s.rd Reg.TB_STAT_ACTIVE_REF = r then (s.missing r).loseRef true else (s.missing r).voidRef r

/-- HW_LOSS_DETECT (R51, R67): the hardware detector of 1PPS or IRIG-B fires.  DESIGN CHOICE (notes/assumptions/30.md): in ACQUIRING
before STATE was ever LOCKED, where one row of R51 says FREE, the row that names this detector holds, HOLDOVER. -/
def execHwLossDetect (s : State) : Result :=
  let s := if s.tb.refs.ppsLast.isSome && s.refLost refPPS then s.hwLoss refPPS else s
  .next (if s.tb.refs.irigLast.isSome && s.refLost refIRIG then s.hwLoss refIRIG else s)

/-- A measurement of the active reference's offset (R51): in ACQUIRING, consecutive ones within 1 us are counted. -/
def State.measured (s : State) (r : Nat) (off : Int) : State :=
  if s.tbState = tbACQUIRING ∧ s.rd Reg.TB_STAT_ACTIVE_REF = r then
    { s with tb := { s.tb with lockCount := if -1000 ≤ off ∧ off ≤ 1000 then s.tb.lockCount + 1 else 0 } }
  else s

/-- TB_LOCK (R51): 16 consecutive measurements within 1 us move ACQUIRING to LOCKED. -/
def execTbLock (s : State) : Result :=
  when (s.tbState == tbACQUIRING && decide (16 ≤ s.tb.lockCount)) s (s.setTbState tbLOCKED)

/-- HOLDOVER_SECOND (R53, R54): HOLD_PPB is added to TB_ERR, saturating, whoever owns the time base. -/
def execHoldoverSecond (s : State) : Result :=
  when (s.tbState == tbHOLDOVER && decide (s.tb.holdNext ≤ s.now)) s
    (let s := s.wr Reg.TB_ERR_ERR_NS (min 0xFFFFFFFF (s.rd Reg.TB_ERR_ERR_NS + s.cf Reg.TB_REF_HOLD_PPB))
     State.setTq { s with tb := { s.tb with holdNext := s.tb.holdNext + nsPerS } })

/-! ### UTC and leap seconds (R49, R50) -/

/-- TB_UTC.OFFSET as a signed number of seconds. -/
def State.utcOffset (s : State) : Int := signed (s.rd Reg.TB_UTC_OFFSET) 16

/-- The instant of the latest leap since reset (R50). -/
def State.leapAt (s : State) : Option Instant :=
  if s.tb.lsoUntil = 0 then none else some (s.tb.lsoUntil - 86400 * nsPerS)

/-- The offset that was in force at an instant (R49). -/
def State.offsetAt (s : State) (t : Instant) : Int :=
  match s.leapAt with
  | some l => if t < l then s.utcOffset + (if s.tb.leapDeleted then 1 else -1) else s.utcOffset
  | none => s.utcOffset

/-- The instants that a UTC time names under the offset in force at each of them (R49); two where an inserted second
repeats a SOC. -/
def State.ofUtc (s : State) (utc : Nat) : List Instant :=
  let at_ (o : Int) : Instant := ((utc : Int) + o * nsPerS).toNat
  let fit := [s.utcOffset, s.utcOffset - 1, s.utcOffset + 1].filter (fun o => decide (s.offsetAt (at_ o) = o))
  match fit with
  | [] => [at_ s.utcOffset]
  | os => os.map at_

/-- SOC of an instant under the offset in force at it (R49). -/
def State.soc (s : State) (t : Instant) : Nat := (((t / nsPerS : Nat) : Int) - s.offsetAt t).toNat

/-- The C37.118.2 fraction of an instant (R49). -/
def fracOf (timeBase : Nat) (t : Instant) : Nat := t % nsPerS * timeBase / nsPerS

/-- Bit 4 of the time-quality flags for an instant (R49): a leap is pending from 60 s before it; through the inserted
second itself.  Before the latest leap it is told from that leap's instant. -/
def State.leapPendingFlag (s : State) (t : Instant) : Bool :=
  let soc := s.soc t
  let r := soc % 86400
  let p := s.rd Reg.TB_UTC_LEAP_PEND
  match s.leapAt.filter (fun l => decide (t < l)) with
  | some l => decide (l ≤ t + (if s.tb.leapDeleted then 60 else 61) * nsPerS)
  | none =>
    if p = 1 then decide (86340 ≤ r) || (r == 0 && decide (s.tb.leapSetAt / nsPerS < t / nsPerS))
    else if p = 2 then decide (86339 ≤ r) && decide (r < 86399)
    else false

/-- Bit 5 for an instant (R49, R50): LSO as it stood then. -/
def State.leapOccurredFlag (s : State) (t : Instant) : Bool :=
  match s.leapAt with
  | some l => decide (l ≤ t) && decide (t < s.tb.lsoUntil)
  | none => false

/-- Bit 6 for an instant (R49): a deletion is pending, or was the leap that LSO marks. -/
def State.leapDirFlag (s : State) (t : Instant) : Bool :=
  match s.leapAt.filter (fun l => decide (t < l)) with
  | some l => s.tb.leapDeleted && (decide (s.tb.leapSetAt ≤ t) || decide (l ≤ s.tb.leapSetAt))
  | none => s.rd Reg.TB_UTC_LEAP_PEND == 2 || (s.leapOccurredFlag t && s.tb.leapDeleted)

/-- The upper byte of FRACSEC for an instant (R49). -/
def State.tqFlags (s : State) (t : Instant) : Nat :=
  2 ^ 6 * natOf (s.leapDirFlag t) + 2 ^ 5 * natOf (s.leapOccurredFlag t) + 2 ^ 4 * natOf (s.leapPendingFlag t) + s.rd Reg.TB_TQ_CODE

/-- FRACSEC of an instant (R49): the flags in the upper byte, the fraction below. -/
def State.fracsec (s : State) (timeBase : Nat) (t : Instant) : Nat := 2 ^ 24 * s.tqFlags t + fracOf timeBase t % 2 ^ 24

/-- The leap instant is reached (R50): for an insertion, at the end of the TAI second in which S - OFFSET is a multiple
of 86,400, which is the start of one where S - OFFSET leaves 1; for a deletion, at the start of the second that leaves
86,399.  The leap was announced before that second began, and before the inserted one. -/
def State.leapDue (s : State) : Bool :=
  let r := ((((s.now / nsPerS : Nat) : Int) - s.utcOffset) % 86400).toNat
  let p := s.rd Reg.TB_UTC_LEAP_PEND
  let sec := s.now / nsPerS
  let set := s.tb.leapSetAt / nsPerS
  (p == 1 && r == 1 && decide (set + 1 < sec)) || (p == 2 && r == 86399 && decide (set < sec))

/-- LEAP_APPLY (R50). -/
def execLeapApply (s : State) : Result :=
  when s.leapDue s
    (let ins := s.rd Reg.TB_UTC_LEAP_PEND == 1
     let s := s.wr Reg.TB_UTC_OFFSET (s.rd Reg.TB_UTC_OFFSET + (if ins then 1 else 2 ^ 16 - 1))
     let s := (s.wr Reg.TB_UTC_LEAP_PEND 0).wr Reg.TB_UTC_LSO 1
     let s := { s with tb := { s.tb with lsoUntil := (s.now / nsPerS + 86400) * nsPerS, leapDeleted := !ins } }
     s.raise 54)

/-- LSO_EXPIRY (R50): LSO clears 86,400 s after the leap. -/
def execLsoExpiry (s : State) : Result :=
  when (s.on Reg.TB_UTC_LSO && decide (s.tb.lsoUntil ≤ s.now)) s (s.wr Reg.TB_UTC_LSO 0)

/-- LEAP_PEND is loaded from a reference; event 53 where a leap is newly pending. -/
def State.setLeapPend (s : State) (v : Nat) : State :=
  let old := s.rd Reg.TB_UTC_LEAP_PEND
  let s := s.wr Reg.TB_UTC_LEAP_PEND v
  if v ≠ 0 ∧ old ≠ v then State.raise { s with tb := { s.tb with leapSetAt := s.now } } 53 else s

/-! ### PTP (R57, R60) -/

/-- The port of ROLE slave that is used: of the two of a PRP Harness the lower-numbered, until its announce receipt
timed out.  DESIGN CHOICE (notes/assumptions/32.md): the other one then stays in use until a CINCH changes a ROLE. -/
def State.slavePort (s : State) : Option Nat :=
  match s.slavePorts with
  | [] => none
  | [a] => some a
  | a :: b :: _ => if s.tb.ptpPort = some a then some b else some a

/-- A time-stamp with a signed correction. -/
def Instant.shift (t : Instant) (d : Int) : Instant := (((t : Nat) : Int) + d).toNat

/-- delayAsymmetry of port `n` (R58). -/
def State.asym (s : State) (n : Nat) : Int := signed (s.cf (Reg.TB_PTP_PORT_ASYM_NS n)) 16

/-- What an ingress time-stamp of port `n` is corrected by (R58, R71, R73): the PHY's latency and the port's delayAsymmetry, which shortens
the path inwards (PRESUMED, notes/assumptions/33.md). -/
def State.ingressShift (s : State) (n : Nat) : Int := -((s.cf (Reg.PORT_TS_RX_LAT_NS n) : Nat) : Int) - s.asym n

/-- What an egress time-stamp of port `n` is corrected by (R58, R71). -/
def State.egressShift (s : State) (n : Nat) : Int := ((s.cf (Reg.PORT_TS_TX_LAT_NS n) : Nat) : Int) - s.asym n

/-- A PTP reference that counted Announce or Sync messages and lost them counts afresh (R51). -/
def State.ptpAfresh (s : State) : State :=
  let q := s.tb.refs
  if (q.ptpAnnounces != 0 && s.announceLost) || (q.ptpSyncs != 0 && s.syncLost) then s.voidRef refPTP else s

/-- An Announce from the slave port (R51, R57): a change of grandmaster identity raises event 49, ends what was counted
and, with PTP active, ends LOCKED or ACQUIRING; UTC information is taken while PTP is active and firmware owns it. -/
def State.announce (s : State) (m : PtpMsg) : State :=
  let changed := match s.tb.refs.ptpGm with | some g => decide (g ≠ m.gm) | none => false
  let s := if changed then
      let s := s.raise 49
      (if s.rd Reg.TB_STAT_ACTIVE_REF = refPTP then s.loseRef false else s).voidRef refPTP
    else s.ptpAfresh
  let q := s.tb.refs
  let q := { q with ptpGm := some m.gm, ptpAnnounces := q.ptpAnnounces + 1, ptpLastAnnounce := s.now }
  let s := { s with tb := { s.tb with refs := q, ptpInacc := m.inaccuracy.getD s.tb.ptpInacc, ptpAlt := m.altOffset } }
  if m.utcValid && s.rd Reg.TB_STAT_ACTIVE_REF == refPTP && !s.on Reg.TB_CTL_OWNER then
    (s.wr Reg.TB_UTC_OFFSET m.utcOffset.toNat).setLeapPend (if m.leap61 then 1 else if m.leap59 then 2 else 0)
  else s

/-- A Sync from the slave port `n` (R51): from the counted grandmaster, after four Announce messages, it counts. -/
def State.sync (s : State) (n : Nat) (m : PtpMsg) : State :=
  let s := s.ptpAfresh
  let q := s.tb.refs
  let s := if 4 ≤ q.ptpAnnounces ∧ q.ptpGm = some m.gm then
      { s with tb := { s.tb with refs := { q with ptpSyncs := q.ptpSyncs + 1, ptpLastSync := s.now } } }
    else s
  s.measured refPTP (m.offset + s.ingressShift n)

/-- A frame for a receive ring waits for its delivery (R54, R84): its ring, its SOURCE and the frame. -/
def State.toRing (s : State) (src ring port : Nat) (ts : Instant) (cells : Nat) (f : Frame) : State :=
  { s with port := { s.port with rxq := s.port.rxq ++ [⟨ring, src, port, ts, cells, f⟩] } }

/-- PTP_MESSAGE (R51, R54, R57): a message on a port with a PTP role.  One of another domain, with two tags, or that
uses what R57 does not list is discarded; management messages go to the unmatched ring only. -/
def execPtpMessage (port : Fin 48) (msg : PtpMsg) (bytes : List Byte) (s : State) : Result :=
  let role := s.cf (Reg.TB_PTP_PORT_ROLE port)
  let known := msg.supported && msg.domain == s.cf Reg.TB_PTP_CFG_DOMAIN && decide (msg.tags ≤ 1)
  let ts := Instant.shift s.now (s.ingressShift port)
  let frame : Frame := ⟨bytes.length + 4, true, 0, 0, 0, 0, msg.tags, 0x88F7, none, none, .ptp msg, bytes⟩
  let slave := s.slavePort == some port.val
  let toHost := s.cfOn Reg.ING_RING_UNM_EN && (msg.kind == .management || (s.on Reg.TB_CTL_OWNER && role == 2))
  let s := if known && role != 0 && toHost then s.toRing 0 (s.cf Reg.ING_RING_UNM_RING) port ts 0 frame else s
  when (role != 0 && known) s
    (match msg.kind with
     | .announce => if slave then s.announce msg else s
     | .sync => if slave then s.sync port msg else s
     | .pdelayReq => { s with tb := { s.tb with ptpSeq := kvSet s.tb.ptpSeq (1000 + port.val) msg.seqId.toNat,
                                                ptpSent := kvSet s.tb.ptpSent (16 * port.val + 15) ts } }
     | _ => s)

/-- ANNOUNCE_RECEIPT_TIMEOUT (R57): 3 announce intervals without an Announce on the lower-numbered slave port of a PRP
Harness; the other port is used, and STATE stays while the grandmaster identity is unchanged. -/
def execAnnounceReceiptTimeout (s : State) : Result :=
  match s.slavePorts with
  | a :: _ :: _ =>
    when (s.standby && s.announceLost) s
      { s with tb := { s.tb with ptpPort := some a,
                                 refs := { s.tb.refs with ptpLastAnnounce := s.now, ptpLastSync := s.now } } }
  | _ => .next s

/-! ### IRIG-B, 1PPS and REF10M_IN (R62 to R64) -/

/-- Days from 1970-01-01 to 1 January of a year. -/
def daysToYear (y : Nat) : Nat := 365 * (y - 1970) + ((y - 1) / 4 - 492) - ((y - 1) / 100 - 19) + ((y - 1) / 400 - 4)

/-- The year that a day counted from 1970-01-01 lies in. -/
def yearOfDay (d : Nat) : Nat :=
  let y := 1970 + d * 400 / 146097
  if daysToYear (y + 1) ≤ d then y + 1 else if d < daysToYear y then y - 1 else y

/-- The TAI second of an IRIG-B frame whose reference marker came at instant `t` (R62): the year from the frame under IEEE 1344, else from
the time base; local time to UTC by the time offset, to TAI by OFFSET as it stood. -/
def State.irigTai (s : State) (f : IrigFrame) (t : Instant) : Int :=
  let ext := s.cfOn Reg.TB_IRIG_IEEE1344
  let year := if ext then 2000 + f.year else yearOfDay (s.soc t / 86400)
  let lt := 86400 * (daysToYear year + (f.day - 1)) + f.second
  ((lt : Nat) : Int) + (if ext then 1800 * f.zone else 0) + s.offsetAt t

/-- IRIGB_FRAME (R51, R62, R67): a frame with correct parity that continues the one before counts; a wrong parity counts
against the reference and raises event 58, as does a frame that is missing before this one; leap bits are loaded while IRIG-B is active
under IEEE 1344.  `age` is the time since the leading edge of the reference marker. -/
def execIrigbFrame (frame : IrigFrame) (s : State) : Result :=
  let q := s.tb.refs
  if s.dark then .next s else
  if !frame.parityOk then
    .next (State.raise { s with tb := { s.tb with refs := { q with irigGood := 0, irigBad := q.irigBad + 1 } } } 58)
  else
    let mark := s.now - frame.age
    let tai := s.irigTai frame mark
    let agrees := match q.irigLast with | some (u, _) => decide (tai = u + 1) | none => false
    let skipped := match q.irigLast with | some (_, t) => decide (t + 1500000000 < mark) && q.irigBad == 0 | none => false
    let ext := s.cfOn Reg.TB_IRIG_IEEE1344
    let q := { q with irigGood := if agrees then q.irigGood + 1 else 1, irigLast := some (tai, mark), irigBad := 0
                      irigTq := if ext then frame.quality else q.irigTq }
    let s := { s with tb := { s.tb with refs := q } }
    let s := if skipped then s.raise 58 else s
    let s := if ext && s.rd Reg.TB_STAT_ACTIVE_REF == refIRIG && !s.on Reg.TB_CTL_OWNER then
        s.setLeapPend (if frame.leapPending then (if frame.leapDelete then 2 else 1) else 0)
      else s
    .next (s.measured refIRIG (((mark : Nat) : Int) - nsPerS * tai))

/-- The distance of an instant from the nearest whole second, in ns. -/
def secondOffset (t : Instant) : Int :=
  let n := t % nsPerS
  if n < 500000000 then (n : Int) else (n : Int) - nsPerS

/-- The offset that an edge of PPS_IN shows (R55): the seconds are taken from IRIG-B while it decodes, else from the time base. -/
def State.ppsOffset (s : State) : Int :=
  match (if s.refLost refIRIG then none else s.tb.refs.irigLast) with
  | some (tai, mark) => ((s.now : Nat) : Int) - nsPerS * (tai + (s.now - mark + 500000000) / nsPerS)
  | none => secondOffset s.now

/-- PPS_IN_EDGE (R51, R63): the edge is time-stamped into TB_PPS_TS and counts where it lies 1 s after the one before,
within 1 ms; where an edge is missing before it, event 57 (R67). -/
def execPpsInEdge (s : State) : Result :=
  if s.dark then .next s else
  let q := s.tb.refs
  let near := match q.ppsLast with
    | some t => decide (t + 999000000 ≤ s.now ∧ s.now ≤ t + 1001000000)
    | none => false
  let late := match q.ppsLast with | some t => decide (t + 1001000000 < s.now) | none => false
  let s := s.wrInstant Reg.TB_PPS_TS_S Reg.TB_PPS_TS_NS s.now
  let s := if late then s.raise 57 else s
  let s := { s with tb := { s.tb with refs := { q with ppsEdges := if near then q.ppsEdges + 1 else 1, ppsLast := some s.now } } }
  .next (s.measured refPPS s.ppsOffset)

/-- PPS_OUT_PULSE (R63, R68): at the first tick at or after an instant with N = 0, PPS_OUT rises when its mode allows; in Bivouac it
stays low. -/
def execPpsOutPulse (s : State) : Result :=
  let mode := s.cf Reg.TB_CTL_PPS_OUT_MODE
  let valid := s.tbState == tbLOCKED || (s.tbState == tbHOLDOVER && decide (s.rd Reg.TB_ERR_ERR_NS ≤ 1000))
  let rises := (mode == 1 || (mode == 2 && valid)) && !s.dark
  when s.tb.ppsDue s
    (let s := { s with tb := { s.tb with ppsDue := false } }
     if rises then
       State.emit { s with tb := { s.tb with ppsOut := true, ppsOutEnd := s.now + 1000 * s.cf Reg.TB_PPS_OUT_WIDTH_US } }
         (.ppsOut s.now)
     else s)

/-- PPS_OUT_END (R63): the pulse width expires. -/
def execPpsOutEnd (s : State) : Result :=
  when (s.tb.ppsOut && decide (s.tb.ppsOutEnd ≤ s.now)) s { s with tb := { s.tb with ppsOut := false } }

/-- REF10M_LOSS (R64): the PLL returns to REFCLK; while FREF is 1, FREF_LOST is set and event 59 raised. -/
def execRef10mLoss (s : State) : Result :=
  let t := { s with tb := { s.tb with pllRef10m := false, ref10mPresent := false } }
  .next (if s.cfOn Reg.TB_CTL_FREF && s.tb.ref10mPresent then (t.wr Reg.TB_STAT_FREF_LOST 1).raise 59 else t)

/-- REF10M_RETURN (R64): FREF_LOST clears; the PLL stays on REFCLK until a CINCH writes FREF. -/
def execRef10mReturn (s : State) : Result :=
  .next ({ s with tb := { s.tb with ref10mPresent := true } }.wr Reg.TB_STAT_FREF_LOST 0)

end Sys2Proof.Machine
end

