-- ==== Sys2Proof/Machine/Ports.lean ====
section
/-!
DEFINITION. Ports, Harnesses and the frame MAC: acceptance, PRP, classification, quench, policing, cells, transmit
queues and time-stamps (spec/04), and the sending of PTP messages (R57, R60).
-/
namespace Sys2Proof.Machine
open Sys2Proof

/-! ### Ports and Harnesses -/

/-- A port with nothing in it. -/
def Port.init : Port := ⟨0, List.replicate 8 [], 0, 0, 0, [], none⟩

/-- Port `n`. -/
def State.prt (s : State) (n : Nat) : Port := kvGetD s.port.ports n Port.init

/-- `s` with port `n` replaced. -/
def State.setPrt (s : State) (n : Nat) (p : Port) : State :=
  { s with port := { s.port with ports := kvPut s.port.ports n p Port.init } }

/-- The members of Harness `h` in a configuration, rising (R76). -/
def Cfg.members (c : Cfg) (h : Nat) : List Nat :=
  filterBelow 48 (fun n => c.fld (Reg.PORT_CFG_HARN_ID n) == h && h != 0)

/-- Port `n` is on a PRP Harness; its Harness number (R76). -/
def State.prpHarness (s : State) (n : Nat) : Option Nat :=
  if s.cf (Reg.PORT_CFG_HARN_KIND n) = 1 then some (s.cf (Reg.PORT_CFG_HARN_ID n)) else none

/-- The ports that a PORT or DEST code names: a port, or the members of a Harness (R89, R326). -/
def Cfg.destPorts (c : Cfg) (d : Nat) : List Nat :=
  if d < 48 then [d] else if 0x81 ≤ d ∧ d ≤ 0x98 then c.members (d - 0x80) else []

/-- The port's link is up. -/
def State.linkOn (s : State) (n : Nat) : Bool := s.on (Reg.PORT_STAT_LINK n)

/-- Cells a frame of `len` bytes occupies. -/
def cellsOf (len : Nat) : Nat := (len + 255) / 256

/-- CRC-16 of R85 over bytes, from value `c`: polynomial 0x1021, no reflection. -/
def crc16Byte (c : Nat) (b : Nat) : Nat :=
  (List.range 8).foldl (fun c _ => if 0x8000 ≤ c then (c * 2 % 0x10000) ^^^ 0x1021 else c * 2) (c ^^^ (b * 256))

/-- CRC-16 of R85: initial value 0xFFFF and no final XOR. -/
def crc16 (bs : List Byte) : Nat := bs.foldl (fun c b => crc16Byte c b.toNat) 0xFFFF

/-- The frame matches wake pattern `k` of port `n` (R85). -/
def State.wakeMatch (s : State) (n k : Nat) (f : Frame) : Bool :=
  let mask := s.cf (Reg.PORT_WAKE_MASK n k)
  let sel := filterBelow 128 (fun j => bitOf mask j)
  s.cf (Reg.PORT_WAKE_EN n k) == 1 && f.fcsOk && sel.all (fun j => decide (j < f.bytes.length))
    && crc16 (sel.filterMap (fun j => f.bytes[j]?)) == s.cf (Reg.PORT_WAKE_CHECK n k)

/-- Some enabled wake pattern of port `n` matches. -/
def State.wakeAny (s : State) (n : Nat) (f : Frame) : Bool := (List.range 8).any (fun k => s.wakeMatch n k f)

/-! ### Early classification (R73, R89) -/

/-- The APPID or IDCODE that early classification reads from a frame of a KIND, with the KIND's L4 port. -/
def Frame.sourceKey (f : Frame) : Option (Nat × Nat × Nat) :=
  match f.body, f.ip with
  | .c37 m, some h => if m.typ = .data ∧ !h.tcp then some (1, m.idcode.toNat, h.dstPort) else
      if h.tcp then some (2, 0, h.srcPort) else none
  | .tcp .., some h => some (2, 0, h.srcPort)
  | .spdu p, some h => some (3, p.appid.toNat, h.dstPort)
  | .sv v, _ => some (4, v.appid.toNat, 0)
  | .goose g, _ => some (5, g.appid.toNat, 0)
  | _, _ => none

/-- A record is an enabled head entry (R91). -/
def Rec.head (r : Rec) : Bool := r.bitAt 0 7 && !r.bitAt 0 5

/-- An IP source as SRC_IP writes it (R89): an IPv4 address as ::ffff:a.b.c.d. -/
def IpHdr.srcKey (h : IpHdr) : Nat := if h.v6 then h.src.toNat else h.src.toNat % 2 ^ 32 * 2 ^ 96 + 0xFFFF * 2 ^ 80

/-- A frame matches the source keys of a head entry (R73, R89). -/
def Rec.matchesFrame (r : Rec) (f : Frame) : Bool :=
  match f.sourceKey with
  | none => false
  | some (kind, id, port) =>
    r.head && r.kind == kind && (kind == 2 || r.at 6 2 == id)
      && (kind == 4 || kind == 5 || r.at 14 2 == port)
      && (r.at 8 6 == 0 || r.at 8 6 == f.src.toNat)
      && (r.at 16 16 == 0 || (match f.ip with | some h => r.at 16 16 == h.srcKey | none => false))

/-- The stream-table entry whose source keys a frame matches in a copy of the configuration. -/
def Cfg.classify (c : Cfg) (f : Frame) : Option Nat :=
  ((c.listed 1).find? (fun e => e.2.matchesFrame f)).map (·.1)

/-! ### Policing (R74) -/

/-- A bucket of `rate` frames/s and depth `burst` at instant `t`: whether it grants a token, and what is left. -/
def Bucket.take (b : Option Bucket) (rate burst : Nat) (t : Instant) : Bool × Bucket :=
  let b := b.getD ⟨burst * nsPerS, t⟩
  let n := min (burst * nsPerS) (b.tokens + rate * (t - b.last))
  if rate = 0 ∨ n < nsPerS then (false, ⟨n, t⟩) else (true, ⟨n - nsPerS, t⟩)

/-! ### Acceptance (R72) -/

/-- Broadcast and group addresses; the group bit is the lowest bit of the first transmitted byte. -/
def isMulticast (a : BitVec 48) : Bool := bitOf a.toNat 0
def isBroadcast (a : BitVec 48) : Bool := a.toNat == 2 ^ 48 - 1

/-- The counter that names why a frame is not accepted (R72), none when it is accepted. -/
def State.rejectCounter (s : State) (n : Nat) (f : Frame) : Option Nat :=
  if f.ethType = 0x8808 then some C.PORT_RX_PAUSE
  else if !f.fcsOk then some C.PORT_RX_FCS_ERR
  else if f.len < 64 then some C.PORT_RX_UNDERSIZE
  else if s.cf (Reg.PORT_CFG_MAX_FRAME n) < f.len then some C.PORT_RX_OVERSIZE
  else if !isMulticast f.dst && f.dst.toNat != s.cf (Reg.PORT_MAC_MAC n) then some C.PORT_RX_DA_FILTERED
  else none

/-! ### PRP duplicate discard (R78) -/

/-- The copy of a frame with trailer `p` for the member of LAN A of Harness `h` waits at the front of the commands, that is arrives in the
same FAB cycle (R78). -/
def State.twin (s : State) (h : Nat) (src : BitVec 48) (p : PrpTrailer) : Bool :=
  s.pending.any (fun c => match c with
    | .frameReceive m g =>
      s.prpHarness m == some h && s.cf (Reg.PORT_CFG_LAN_ID m) == 0 && g.src == src
        && (match g.prp with | some q => q.seq == p.seq | none => false) && (s.rejectCounter m g).isNone
    | _ => false)

/-- What the duplicate-discard table says of a frame with trailer `p` on the member of LAN A (`lanA`) or B: accept it
or not, whether an entry was evicted, and the table after. -/
def dupCheck (tab : List DupEntry) (src : BitVec 48) (p : PrpTrailer) (lanA : Bool) (t : Instant) :
    Bool × Bool × List DupEntry :=
  match tab.find? (fun e => e.src = src && e.seq = p.seq) with
  | some e =>
    let rest := tab.filter (fun x => x ≠ e)
    if e.lanA = lanA then (true, false, rest ++ [{ e with made := t }]) else (false, false, rest)
  | none =>
    let full := decide (4096 ≤ tab.length)
    (true, full, (if full then tab.tail else tab) ++ [⟨src, p.seq, lanA, t⟩])

/-- Stage 2 of R73 on port `n`: the frame goes on or is discarded as a duplicate; of two copies of the same FAB cycle the one on the member
with LAN_ID 0 goes on, and no entry stays. -/
def State.prpStage (s : State) (n : Nat) (f : Frame) : Bool × State :=
  match s.prpHarness n, f.prp with
  | some h, some p =>
    let lanA := s.cf (Reg.PORT_CFG_LAN_ID n) == 0
    let s := if p.lanA = lanA then s else s.portCount n C.PORT_RX_PRP_WRONG_LAN
    let (ok, evicted, tab) := dupCheck (kvGetD s.port.dup h []) f.src p lanA s.now
    if ok && !lanA && s.twin h f.src p then (false, s.portCount n C.PORT_RX_PRP_DUP) else
    let s := { s with port := { s.port with dup := kvPut s.port.dup h tab [] } }
    let s := if evicted then (s.portCount n C.PORT_PRP_EVICT).portCause n 2 else s
    (ok, if ok then s else s.portCount n C.PORT_RX_PRP_DUP)
  | _, _ => (true, s)

/-- The frame without its PRP trailer (R78). -/
def Frame.strip (f : Frame) : Frame :=
  match f.prp with
  | some _ => { f with len := f.len - 6, prp := none, bytes := f.bytes.take (f.bytes.length - 6) }
  | none => f

/-! ### The receive path (R72, R73) -/

/-- The counters of an accepted frame (R83). -/
def State.countAccepted (s : State) (n : Nat) (f : Frame) : State :=
  let s := (s.portCount n C.PORT_RX_FRAMES).portCount n C.PORT_RX_OCTETS f.len
  let s := s.portCount n (if isBroadcast f.dst then C.PORT_RX_BCAST else if isMulticast f.dst then C.PORT_RX_MCAST
    else C.PORT_RX_UCAST)
  s.portCount n (if f.len = 64 then C.PORT_RX_64 else if f.len ≤ 255 then C.PORT_RX_65_255
    else if f.len ≤ 1518 then C.PORT_RX_256_1518 else C.PORT_RX_1519_MAX)

/-- Stage 4 of R73: the frame's entry, unmatched class or port is quenched (R80). -/
def State.quenchedFrame (s : State) (n : Nat) (entry : Option Nat) : Bool :=
  s.on (Reg.PORT_STAT_QUENCH_ALL n) ||
    (match entry with
     | some e => setHas s.port.quenched e
     | none => s.on (Reg.PORT_STAT_QUENCH_UNM n))

/-- Stage 5 of R73: the bucket of the entry or of the port's unmatched class grants a token (R74). -/
def State.police (s : State) (n : Nat) (entry : Option Nat) : Bool × State :=
  match entry with
  | some e =>
    let r := s.act.tab 1 e
    let (ok, b) := Bucket.take (kvGet? s.port.buckets e) (r.bitsAt 36 0 24) (r.bitsAt 36 24 8) s.now
    (ok, { s with port := { s.port with buckets := kvSet s.port.buckets e b } })
  | none =>
    let p := s.prt n
    let (ok, b) := Bucket.take p.bucket (s.cf (Reg.PORT_POL_RATE n)) (s.cf (Reg.PORT_POL_BURST n)) s.now
    (ok, s.setPrt n { p with bucket := some b })

/-- Stages 3 to 6 of R73 for an accepted frame that is no duplicate. -/
def State.stages (s : State) (n : Nat) (f : Frame) : State :=
  let ts := Instant.shift (s.now - f.age) (s.ingressShift n)
  let f := if s.prpHarness n = none then f else f.strip
  let entry := s.act.classify f
  if s.quenchedFrame n entry then s.portCount n C.PORT_RX_QUENCHED else
  let (ok, s) := s.police n entry
  if !ok then s.portCount n (if entry.isSome then C.PORT_RX_POLICED else C.PORT_RX_UNM_POLICED) else
  let p := s.prt n
  let c := cellsOf f.len
  if s.cf (Reg.PORT_RX_LIM_RX_LIMIT n) < p.rxCells + c then (s.portCount n C.PORT_RX_NOCELL).portCause n 4 else
  let s := s.setPrt n { p with rxCells := p.rxCells + c }
  { s with port := { s.port with inq := s.port.inq ++ [⟨n, entry, ts, c, f⟩] } }

/-- Received frames have no effect: in the Cairn condition (R453), in QUARANTINE (R408), during the start and in Bivouac (R421),
where a wake port judges a frame by WAKE_PATTERN_MATCH. -/
def State.deaf (s : State) : Bool :=
  s.on Reg.ERR_STAT_FATAL || s.quarantine || decide (s.rd Reg.PWR_STAT_PHASE < 6) || s.dark

/-- PCS code and block errors are counted one by one (R83), and a wake pattern that matches under WAKE_TEST too (R85). -/
def State.countLine (s : State) (n : Nat) (f : Frame) : State :=
  let s := if f.pcsErrs = 0 then s else s.portCount n C.PORT_RX_PCS_ERR f.pcsErrs
  if s.on (Reg.PORT_CFG_WAKE_TEST n) && s.wakeAny n f then (s.portCount n C.PORT_WAKE_MATCH).portCause n 5 else s

/-- FRAME_RECEIVE (R72 to R75, R78, R80, R85, R240): a frame completes on a port whose MODE is not 0.  A PAUSE or PFC frame counts in
RX_PAUSE only. -/
def execFrameReceive (port : Fin 48) (frame : Frame) (s : State) : Result :=
  let n := port.val
  if s.cf (Reg.PORT_CFG_MODE n) = 0 || s.deaf then .next s else
  let s := s.capFrame n frame
  let s := if frame.ethType = 0x8808 then s else s.countLine n frame
  match s.rejectCounter n frame with
  | some i => .next (s.portCount n i)
  | none =>
    let s := s.countAccepted n frame
    let (go, s) := s.prpStage n frame
    .next (if go then s.stages n frame else s)

/-- PRP_ENTRY_AGE (R78): entries that reached AGE_MS without a duplicate are removed. -/
def execPrpEntryAge (harness : Fin 25) (s : State) : Result :=
  let h := harness.val
  let age := match s.act.members h with | n :: _ => s.cf (Reg.PORT_PRP_AGE_MS n) | [] => 0
  let tab := (kvGetD s.port.dup h []).filter (fun e => decide (s.now < e.made + age * 1000000))
  .next { s with port := { s.port with dup := kvPut s.port.dup h tab [] } }

/-! ### Transmit queues (R76, R81, R82) -/

/-- A frame for port `n` is discarded (R82): TX_DROP, and the counter of what it carries (R221, R255). -/
def State.dropTx (s : State) (n : Nat) (f : TxFrame) : State :=
  let s := s.portCount n C.PORT_TX_DROP
  match f.body with
  | .output .. | .outputSpdu .. => s.bump .pub C.PUB_OUT_DROPPED
  | .goose _ p .. => (s.bump .isl C.ISL_GOOSE_DROP p).raise 121 [(Reg.ISL_EVT_IDX_INDEX 9, p)]
  | _ => s

/-- Frame `f` enters queue `q` of port `n`, when its link is up and cells remain; else it is discarded and counted in
TX_DROP (R75, R76, R82). -/
def State.enqueue1 (s : State) (n q : Nat) (f : TxFrame) : State :=
  let p := s.prt n
  let c := cellsOf f.len
  let fits := if q = 7 then decide (p.q7Cells + c ≤ s.cf (Reg.PORT_TX_LIM_Q7_RES n))
    else decide (p.txCells + c ≤ s.cf (Reg.PORT_TX_LIM_TX_LIMIT n))
  if s.linkOn n && fits then
    s.setPrt n { p with
      queues := p.queues.modify q (· ++ [f])
      q7Cells := if q = 7 then p.q7Cells + c else p.q7Cells
      txCells := if q = 7 then p.txCells else p.txCells + c }
  else s.dropTx n f

/-- A device-generated frame is queued on queue `q` of the ports of a destination code; every copy for a Harness has the
PORT_MAC of its lowest-numbered member as source address (R76). -/
def State.send (s : State) (dest q : Nat) (f : TxFrame) : State :=
  let ports := s.act.destPorts dest
  let f := { f with
    harness := if dest < 48 then 0 else dest - 0x80
    ident := s.port.nextIdent
    src := BitVec.ofNat 48 (match ports with | n :: _ => s.cf (Reg.PORT_MAC_MAC n) | [] => 0) }
  let s := { s with port := { s.port with nextIdent := s.port.nextIdent + 1 } }
  ports.foldl (fun s n => s.enqueue1 n q f) s

/-- A firmware frame with the given content and length. -/
def fwFrame (body : TxBody) (len : Nat) : TxFrame :=
  { body, len, source := .firmware, harness := 0, ident := 0, src := 0, twoStep := false, oneStep := false,
    ptpType := 0xF, seqId := 0, reqTs := none }

/-- The highest-numbered non-empty queue of a port, with its head. -/
def Port.top (p : Port) : Option (Nat × TxFrame) :=
  (List.range 8).reverse.findSome? (fun q => match p.queues[q]? with | some (f :: _) => some (q, f) | _ => none)

/-- A port without the head of queue `q`, its cells freed. -/
def Port.pop (p : Port) (q : Nat) (f : TxFrame) : Port :=
  let c := cellsOf f.len
  { p with
    queues := p.queues.modify q List.tail
    q7Cells := if q = 7 then p.q7Cells - c else p.q7Cells
    txCells := if q = 7 then p.txCells else p.txCells - c }

/-- A transmit completion (R327). -/
def txCpl (st : Status) (tsrec : Bool) (tag dest queue : Nat) : Nat :=
  st.code + 2 ^ 8 * natOf tsrec + 2 ^ 16 * tag + 2 ^ 32 * dest + 2 ^ 40 * queue

/-- The transmit time-stamp record of R61. -/
def tsRecord (ts : Instant) (seqId msgType port tag : Nat) : Nat :=
  ts % nsPerS + 2 ^ 32 * (ts / nsPerS) + 2 ^ 80 * (seqId % 2 ^ 16) + 2 ^ 96 * msgType + 2 ^ 104 * port + 2 ^ 112 * tag

/-- A frame that leaves with a two-step request takes an entry of the port's queue of 64, or loses its time-stamp
(R61).  DESIGN CHOICE (notes/assumptions/34.md): Warden firmware reads the entry of a frame of its own at once, so that it is never held. -/
def State.twoStep (s : State) (n : Nat) (ts : Instant) (f : TxFrame) (tag : Nat) : Option Nat × State :=
  let p := s.prt n
  let r := tsRecord ts f.seqId f.ptpType n tag
  if 64 ≤ p.tsq.length then
    (none, ((s.wr (Reg.TB_TSQ_LOST_COUNT n) (s.rd (Reg.TB_TSQ_LOST_COUNT n) + 1)).wr Reg.TB_STAT_TSQ_OVF 1).raise 55)
  else (some r, if tag = 0xFFFF then s else s.setPrt n { p with tsq := p.tsq ++ [r] })

/-- The messageType of a PTP message (IEEE 1588, PRESUMED, notes/assumptions/33.md). -/
def PtpKind.num : PtpKind → Nat
  | .sync => 0 | .delayReq => 1 | .pdelayReq => 2 | .pdelayResp => 3 | .followUp => 8 | .delayResp => 9 | .pdelayRespFollowUp => 10
  | .announce => 11 | .signaling => 12 | .management => 13 | .reserved n => n.toNat

/-- The follow-up kind of a two-step event message. -/
def PtpKind.followUpKind : PtpKind → Option PtpKind
  | .sync => some .followUp
  | .pdelayResp => some .pdelayRespFollowUp
  | _ => none

/-- The completion of a transmit-ring frame that left or was discarded. -/
def State.txDone (s : State) (f : TxFrame) (st : Status) (record : Option Nat) : State :=
  match f.source with
  | .firmware => s
  | .ring r tag dest queue =>
    let s := s.complete r (txCpl st record.isSome tag dest queue)
    match record with
    | some v => s.complete r v
    | none => s

/-- Frames `f` and `g` are copies of one Harness frame. -/
def TxFrame.copyOf (f g : TxFrame) : Bool := g.ident == f.ident && g.harness == f.harness

/-- Port `n` holds a copy of a Harness frame. -/
def State.holdsCopy (s : State) (f : TxFrame) (n : Nat) : Bool := (s.prt n).queues.any (fun l => l.any f.copyOf)

/-- A frame of queue `q` of port `n` is discarded (R71, R82): counted, and its descriptor completes with DEGRADED; that of a Harness
frame with its last copy. -/
def State.discardTx (s : State) (n q : Nat) (f : TxFrame) : State :=
  let s := (s.setPrt n ((s.prt n).pop q f)).dropTx n f
  if f.harness != 0 && (List.range 48).any (s.holdsCopy f) then s else s.txDone f .degraded none

/-- Every frame queued on port `n` is discarded (R71, R420). -/
def State.discardQueued (s : State) (n : Nat) : State :=
  (s.prt n).queues.zipIdx.foldl (fun s l => l.1.foldl (fun s f => s.discardTx n l.2 f) s) s

/-- The value inserted one-step as a frame leaves (R60): the egress time-stamp into a Sync, the turnaround time or, for
a frame of host software, the egress time-stamp into a Pdelay_Resp. -/
def oneStepValue (f : TxFrame) (ts : Instant) : Option Nat :=
  if f.oneStep then some (match f.reqTs with | some r => ts - r | none => ts) else none

/-- The redundancy control trailer of a frame on port `n` with sequence number `seq` (R79): sequence number, LanId, LSDU size (the frame's
payload with the trailer) and suffix. -/
def State.prpTrailer (s : State) (n seq : Nat) (f : TxFrame) : List Byte :=
  beBytes 2 (seq % 2 ^ 16) ++ beBytes 2 ((if s.cf (Reg.PORT_CFG_LAN_ID n) = 0 then 0xA000 else 0xB000) + (f.len - 12) % 2 ^ 12)
    ++ beBytes 2 0x88FB

/-- Frame `f`, head of queue `q`, leaves on port `n` now: counters, time-stamps, follow-ups (R60, R61, R79, R83).
`first` tells the one copy of a Harness frame that completes its descriptor. -/
def State.leave (s : State) (n q : Nat) (f : TxFrame) (prp : Option (List Byte)) (first : Bool) : State :=
  let ts := Instant.shift s.now (s.egressShift n)
  let s := s.setPrt n ((s.prt n).pop q f)
  let s := (s.portCount n C.PORT_TX_FRAMES).portCount n C.PORT_TX_OCTETS (f.len + (if prp.isSome then 6 else 0))
  let s := if q = 7 then s.portCount n C.PORT_TX_Q7 else s
  let s := s.emit (.frame n q ts f prp (oneStepValue f ts))
  let tag := match f.source with | .firmware => 0xFFFF | .ring r _ _ _ => r
  let (record, s) := if f.twoStep then s.twoStep n ts f tag else (none, s)
  let s := if first then s.txDone f (if f.twoStep && record.isNone then .tsLost else .ok) record else s
  match f.source, f.body, record with
  | .firmware, .ptp kind seq off leap inacc alt, some _ =>
    match kind.followUpKind with
    | some k => s.send n 7 { fwFrame (.ptp k seq off leap inacc alt) 64 with seqId := seq, ptpType := k.num }
    | none => s
  | _, _, _ => s

/-- Copies of a Harness frame that has left no longer stand for its descriptor, which completed (R82). -/
def State.copiesDone (s : State) (f : TxFrame) : State :=
  ((List.range 48).filter (s.holdsCopy f)).foldl (fun s n =>
    let p := s.prt n
    s.setPrt n { p with queues := p.queues.map (fun l => l.map (fun g => if f.copyOf g then { g with source := .firmware } else g)) }) s

/-- FRAME_TRANSMIT (R76, R79, R81, R82): the head of the port's highest non-empty queue starts.  With the link down it
is discarded; a copy of a Harness frame starts together with the others, once every member whose link is up and that holds a copy has
it at the head of its highest non-empty queue. -/
def execFrameTransmit (port : Fin 48) (s : State) : Result :=
  let n := port.val
  if s.dark then .next s else
  match (s.prt n).top with
  | none => .next s
  | some (q, f) =>
    if !s.linkOn n then
      .next (s.discardTx n q f)
    else if f.harness = 0 then .next (s.leave n q f none true)
    else
      let up := filterBelow 48 (fun m => s.linkOn m && s.holdsCopy f m)
      let ready := up.all (fun m => match (s.prt m).top with | some (q', g) => q' == q && f.copyOf g | none => false)
      if !ready then .next s else
      let prp := (s.prpHarness n).isSome
      let seq := kvGetD s.port.prpSeq f.harness 0
      let s := if prp then { s with port := { s.port with prpSeq := kvSet s.port.prpSeq f.harness ((seq + 1) % 2 ^ 16) } } else s
      .next ((up.foldl (fun s m =>
        s.leave m q f (if prp then some (s.prpTrailer m seq f) else none) (up.head? == some m)) s).copiesDone f)

/-- PRP_SUPERVISION (R79): every 2 s a supervision frame on the PRP Harness. -/
def execPrpSupervision (harness : Fin 25) (s : State) : Result :=
  let h := harness.val
  let prp := match s.act.members h with | n :: _ => s.cf (Reg.PORT_CFG_HARN_KIND n) == 1 | [] => false
  let due := match kvGet? s.port.prpSupLast h with | some t => decide (t + 2 * nsPerS ≤ s.now) | none => true
  when (prp && due && !s.dark) s
    (State.send { s with port := { s.port with prpSupLast := kvSet s.port.prpSupLast h s.now } } (0x80 + h) 7
      (fwFrame .prpSupervision 64))

/-! ### Links -/

/-- Auto-negotiation takes place in the mode (R70). -/
def hasAn (mode : Nat) : Bool := mode == 1 || mode == 2 || mode == 5

/-- The rate shown for a mode (R70): the negotiated one where auto-negotiation resolves a rate, else the mode's. -/
def speedOf (mode : Nat) (an : Bool) (negotiated : Nat) : Nat :=
  match mode with
  | 1 => 2
  | 2 => if an then min negotiated 2 else 2
  | 3 => 3
  | 4 => 5
  | 5 => if an then negotiated else 5
  | _ => 0

/-- The wake ports enabled (R421, R432). -/
def State.wakePorts (s : State) : List Nat :=
  let v := s.cf Reg.PWR_WAKE_PORT_SEL
  ((List.range 4).filter (fun w => bitOf v (8 * w + 7))).map (fun w => bits v (8 * w) 6)

/-- LINK_UP (R70, R71, R86, R87): training ended; LINK changes and its cause is set.  In Bivouac the wake ports alone train. -/
def execLinkUp (port : Fin 48) (speed : Fin 6) (anDone : Bool) (s : State) : Result :=
  let n := port.val
  let mode := s.cf (Reg.PORT_CFG_MODE n)
  let an := s.cfOn (Reg.PORT_CFG_AN_EN n) && hasAn mode
  when (mode != 0 && (!s.dark || (s.wakePorts.contains n && s.rd Reg.PWR_STAT_PHASE != 0)) && !s.linkOn n && decide ((s.prt n).idleUntil ≤ s.now)) s
    (((((s.wr (Reg.PORT_STAT_LINK n) 1).wr (Reg.PORT_STAT_PCS_LOCK n) 1).wrB (Reg.PORT_STAT_AN_DONE n) (an && anDone)).wr
      (Reg.PORT_STAT_SPEED n) (speedOf mode an speed)).portCause n 0)

/-- Port `n` drops its link (R71, R82, R87). -/
def State.dropLink (s : State) (n : Nat) : State :=
  let up := s.linkOn n
  let s := ((s.wr (Reg.PORT_STAT_LINK n) 0).wr (Reg.PORT_STAT_PCS_LOCK n) 0).wr (Reg.PORT_STAT_AN_DONE n) 0
  if up then s.portCause n 0 else s

/-- LINK_DOWN (R82, R87): LINK changes; frames that then reach queue heads are discarded by FRAME_TRANSMIT. -/
def execLinkDown (port : Fin 48) (s : State) : Result :=
  let n := port.val
  when (s.linkOn n) s (s.dropLink n)

/-! ### QUENCH (R80) -/

/-- Whether a QUENCH target is quenched; none where kind or target is out of range. -/
def State.quenchState (s : State) (kind target : Nat) : Option Bool :=
  match kind with
  | 0 => if target < 8192 then some (setHas s.port.quenched target) else none
  | 1 => if target < 48 then some (s.on (Reg.PORT_STAT_QUENCH_UNM target)) else none
  | 2 => if target < 48 then some (s.on (Reg.PORT_STAT_QUENCH_ALL target)) else none
  | _ => none

/-- The quench state of a target is set. -/
def State.setQuench (s : State) (kind target : Nat) (b : Bool) : State :=
  match kind with
  | 0 => { s with port := { s.port with quenched := if b then setAdd s.port.quenched target else setDel s.port.quenched target } }
  | 1 => s.wrB (Reg.PORT_STAT_QUENCH_UNM target) b
  | _ => s.wrB (Reg.PORT_STAT_QUENCH_ALL target) b

/-- QUENCH (R80, R331): the target is quenched; QUENCHED where it already was. -/
def execQuench (tag : BitVec 16) (kind : BitVec 8) (target : BitVec 16) (s : State) : Result :=
  s.served .quench tag (match s.quenchState kind.toNat target.toNat with
    | none => .next (s.mgmtDone .quench tag.toNat .invalid)
    | some true => .next (s.mgmtDone .quench tag.toNat .quenched)
    | some false => .next ((s.setQuench kind.toNat target.toNat true).mgmtDone .quench tag.toNat .ok))

/-- QUENCH with the release action (R80): OK whether or not the target was quenched. -/
def execQuenchRelease (tag : BitVec 16) (kind : BitVec 8) (target : BitVec 16) (s : State) : Result :=
  s.served .quench tag (match s.quenchState kind.toNat target.toNat with
    | none => .next (s.mgmtDone .quench tag.toNat .invalid)
    | some _ => .next ((s.setQuench kind.toNat target.toNat false).mgmtDone .quench tag.toNat .ok))

/-! ### PTP sending (R57, R60) -/

/-- The interval of a PTP message that firmware sends. -/
def State.ptpInterval (s : State) (k : PtpKind) : Nat :=
  match k with
  | .sync => s.syncInterval
  | .pdelayReq => nsPerS / 2 ^ ((16 - s.cf Reg.TB_PTP_CFG_LOG_PDELAY) % 16)
  | _ => nsPerS

/-- PTP_SEND (R57, R60): Sync and Announce on a master port, Pdelay_Req on a port with a role, each at its interval;
Pdelay_Resp in answer to a Pdelay_Req received.  Sync and Pdelay_Resp leave one-step or two-step as TWO_STEP says. -/
def execPtpSend (port : Fin 48) (kind : PtpKind) (s : State) : Result :=
  let n := port.val
  let role := s.cf (Reg.TB_PTP_PORT_ROLE n)
  let key := 16 * n + kind.num
  let due := match kvGet? s.tb.ptpSent key with | some t => decide (t + s.ptpInterval kind ≤ s.now) | none => true
  let request := kvGet? s.tb.ptpSeq (1000 + n)
  let allowed := match kind with
    | .sync | .announce => role == 1 && due
    | .pdelayReq => role != 0 && due
    | .pdelayResp => role != 0 && request.isSome
    | _ => false
  when (allowed && !s.dark) s
    (let seq := if kind == PtpKind.pdelayResp then request.getD 0 else kvGetD s.tb.ptpSeq key 0
     let s := { s with tb := { s.tb with
       ptpSent := kvSet s.tb.ptpSent key s.now
       ptpSeq := if kind == PtpKind.pdelayResp then kvDel s.tb.ptpSeq (1000 + n) else kvSet s.tb.ptpSeq key ((seq + 1) % 2 ^ 16) } }
     let event := kind == .sync || kind == .pdelayResp
     let two := s.cfOn (Reg.TB_PTP_PORT_TWO_STEP n)
     let inacc := if s.cf Reg.TB_PTP_CFG_PROFILE = 1 then s.tb.ptpInacc + s.cf Reg.TB_PTP_CFG_OWN_INACC_NS else 0
     let body := TxBody.ptp kind seq (s.rd Reg.TB_UTC_OFFSET) (s.rd Reg.TB_UTC_LEAP_PEND) inacc s.tb.ptpAlt
     s.send n 7 { fwFrame body 64 with
       twoStep := event && two, oneStep := event && !two, ptpType := kind.num, seqId := seq
       reqTs := if kind == PtpKind.pdelayResp then kvGet? s.tb.ptpSent (16 * n + 15) else none })

end Sys2Proof.Machine
end

