-- ==== Sys2Proof/Machine/Hif.lean ====
section
/-!
DEFINITION. The host interface: nudges, doorbells, descriptors, completions, interrupts, event entries, ring enabling
and the PCIe function (spec/15), and receive rings (R84).
-/
namespace Sys2Proof.Machine
open Sys2Proof

/-- NOP (R330): completes at once with OK. -/
def execNop (tag : BitVec 16) (s : State) : Result := s.dequeued (.next (s.mgmtDone .nop tag.toNat .ok))

/-! ### Nudges and doorbells (R317, R319) -/

/-- A read of the doorbell block (`none`) or of one word becomes due. -/
def State.dueDoorbell (s : State) (r : Option Nat) : State :=
  { s with hif := { s.hif with dbDue := s.hif.dbDue ++ [r] } }

/-- NUDGE_MMIO_ONE (R319): a HIF_NUDGE_MMIO write with ONE 1. -/
def execNudgeMmioOne (ring : Fin 64) (s : State) : Result :=
  when (s.barOpen 0x10024) s ((s.bump .hif C.HIF_MMIO_NUDGES ring).dueDoorbell (some ring.val))

/-- NUDGE_MMIO_ALL (R319): a HIF_NUDGE_MMIO write with ONE 0. -/
def execNudgeMmioAll (s : State) : Result :=
  when (s.barOpen 0x10024) s ((s.bump .hif C.HIF_MMIO_NUDGES).dueDoorbell none)

/-- NUDGE_POLL (R319): the nudge word is read at the poll period; a changed value makes the whole block due. -/
def execNudgePoll (value : BitVec 64) (dma : Dma) (s : State) : Result :=
  let due := decide (s.hif.nudgeAt + 500 * s.rd Reg.HIF_NUDGE_CFG_PERIOD ≤ s.now)
  if !(s.on Reg.HIF_NUDGE_CFG_POLL_EN && due && s.hostUp && s.chanFree 64) then .next s else
  let s := { s with hif := { s.hif with nudgeAt := s.now } }.bump .hif C.HIF_POLLS
  let (ok, s) := s.dma 64 3 false 0 0 (8 * s.rd Reg.HIF_NUDGE_ADDR_ADDR) dma
  if !ok then .next s
  else if value.toNat = s.hif.nudgeLast then .next s
  else .next (State.dueDoorbell ({ s with hif := { s.hif with nudgeLast := value.toNat } }.bump .hif C.HIF_POLL_HITS) none)

/-- Doorbell word `w` of ring `r` is acted on (R317): SQ_TAIL and CQ_HEAD are taken, or the broken rule stops the
ring. -/
def State.doorbell (s : State) (r w : Nat) : State :=
  let g := s.ring r
  let tail := w % 2 ^ 16
  let head := w / 2 ^ 16 % 2 ^ 16
  let fill := (tail + 65536 - s.rd (Reg.HIF_RING_STAT_SQ_HEAD r)) % 65536
  let unread := (g.cqTail + 65536 - g.cqHead) % 65536
  let left := (g.cqTail + 65536 - head) % 65536
  if !s.on (Reg.HIF_RING_CFG_EN r) || g.stopped then s
  else if tail = g.sqTail ∧ head = g.cqHead then s
  else if 2 ^ s.rd (Reg.HIF_RING_CFG_SQ_LOG2 r) < fill ∨ unread < left then
    (((s.setRing r { g with stopped := true }).wr (Reg.HIF_RING_STAT_DB_ERR r) 1).bump .hif C.HIF_DB_ERRORS r).raise 241
      [(Reg.HIF_EVT_IDX_RING 1, r)]
  else (s.setRing r { g with sqTail := tail, cqHead := head }).backlog r

/-- The words read are acted on for ring `r` and the rings after it. -/
def State.doorbells (s : State) : Nat → List (BitVec 32) → State
  | _, [] => s
  | r, w :: ws => State.doorbells (s.doorbell r w.toNat) (r + 1) ws

/-- DOORBELL_READ (R317, R319): the block or word that is due returns. -/
def execDoorbellRead (words : List (BitVec 32)) (dma : Dma) (s : State) : Result :=
  if !(s.hostUp && s.chanFree 64) then .next s else
  match s.hif.dbDue with
  | [] => .next s
  | d :: rest =>
    let s := { s with hif := { s.hif with dbDue := rest } }
    let (ok, s) := s.dma 64 3 false 0 0 (256 * s.rd Reg.HIF_DB_BASE_ADDR + 4 * d.getD 0) dma
    if !ok then .next s else
    match d with
    | none => .next (s.doorbells 0 (words.take 64))
    | some r => .next (s.doorbells r (words.take 1))

/-! ### Descriptors (R323, R328 to R332) -/

/-- The bytes of a management descriptor that its opcode's arguments use (R331, R332), as (offset, size). -/
def argBytes : Nat → Option (List (Nat × Nat))
  | 0x00 => some []
  | 0x01 => some [(8, 8), (16, 4)]
  | 0x02 => some [(4, 4), (8, 4), (12, 6), (18, 2), (20, 1)]
  | 0x03 => some [(4, 1), (5, 1), (6, 2)]
  | 0x04 => some [(4, 1), (5, 1), (6, 2), (8, 4), (12, 6)]
  | 0x05 => some [(4, 1), (5, 1), (6, 1), (8, 8), (16, 4), (20, 12)]
  | 0x06 => some [(4, 1), (6, 2), (8, 8), (16, 4), (20, 4), (24, 6)]
  | 0x07 => some [(4, 1), (6, 2), (8, 4), (12, 6)]
  | 0x08 => some [(4, 1), (8, 8), (16, 4)]
  | 0x09 => some [(8, 8), (16, 4)]
  | 0x0A => some [(4, 1), (5, 1)]
  | 0x0B => some [(4, 2), (6, 1)]
  | _ => none

/-- Byte `k` of a descriptor. -/
def descByte (d k : Nat) : Nat := d / 2 ^ (8 * k) % 256

/-- A management descriptor is well formed (R328, R330 to R332): a known OPCODE, no reserved field set, and no
sub-operation, action or kind that its table lists as reserved. -/
def mgmtWellFormed (d : Nat) : Bool :=
  match argBytes (descByte d 0) with
  | none => false
  | some used =>
    let free := (List.range 32).filter (fun k => decide (4 ≤ k) && !used.any (fun p => p.1 ≤ k && k < p.1 + p.2))
    let sub := descByte d 4
    descByte d 1 == 0 && free.all (fun k => descByte d k == 0) &&
      (match descByte d 0 with
       | 0x02 => decide (descByte d 20 < 2)
       | 0x03 => decide (sub < 3) && decide (descByte d 5 < 2)
       | 0x04 => decide (sub < 3) && decide (descByte d 5 < 8)
       | 0x05 => decide (sub < 8)
       | 0x06 => decide (1 ≤ sub) && decide (sub ≤ 6)
       | 0x07 => decide (sub < 2)
       | 0x08 => decide (1 ≤ sub) && decide (sub ≤ 3)
       | 0x0A => decide (sub < 8) && decide (descByte d 5 < 4)
       | 0x0B => decide (descByte d 6 < 2)
       | _ => true)

/-- A buffer descriptor is well formed (R323). -/
def bufWellFormed (d : Nat) : Bool :=
  descByte d 0 == 0x10 && bits d 8 56 == 0 && bits d 112 16 == 0 && bits d 128 128 == 0 && bits d 64 6 == 0

/-- DESCRIPTOR_FETCH (R323, R328, R329): the next submission entry that is posted and not yet fetched returns.  A
management descriptor is dequeued, and completes with INVALID when malformed (a well-formed one is started by its own
command), and none is dequeued from acceptance of a SLEEP to the resumption (R423); a buffer descriptor is kept for its turn, or skipped when malformed; a transmit descriptor is kept for
TX_DESCRIPTOR. -/
def execDescriptorFetch (ring : Fin 64) (desc : BitVec 256) (dma : Dma) (s : State) : Result :=
  let r := ring.val
  let g := s.ring r
  let kind := s.rd (Reg.HIF_RING_CFG_KIND r)
  let idx := (s.rd (Reg.HIF_RING_STAT_SQ_HEAD r) + g.fetched.length) % 65536
  let served := kind ≠ 5 ∧ (kind ≠ 0 ∨ r = 0)
  if !(s.hostUp && s.on (Reg.HIF_RING_CFG_EN r) && !g.stopped && s.chanFree r && decide served
      && decide (g.fetched.length < s.sqFill r) && decide (s.rd (Reg.HIF_RING_STAT_BACKLOG r) < 256) && (r != 0 || s.pwr.sleep.isNone)) then .next s else
  let dva := 64 * s.rd (Reg.HIF_RING_SQ_ADDR r) + 32 * (idx % 2 ^ s.rd (Reg.HIF_RING_CFG_SQ_LOG2 r))
  let (ok, s) := s.dma r 0 false idx 0 dva dma
  if !ok then .next s else
  let s := s.bump .hif C.HIF_DESCRIPTORS r
  let d := desc.toNat
  if r = 0 then
    let s := s.wr (Reg.HIF_RING_STAT_SQ_HEAD 0) ((idx + 1) % 65536)
    if mgmtWellFormed d then .next s
    else .next (s.complete 0 (Status.invalid.code + 2 ^ 8 * descByte d 0 + 2 ^ 16 * bits d 16 16))
  else if kind = 1 then .next (s.setRing r { s.ring r with fetched := (s.ring r).fetched ++ [some d] })
  else if bufWellFormed d then .next (s.setRing r { s.ring r with fetched := (s.ring r).fetched ++ [some (bits d 64 48)] })
  else
    .next (((s.setRing r { s.ring r with fetched := (s.ring r).fetched ++ [none] }).bump .hif C.HIF_DESC_INVALID r).raise 241
      [(Reg.HIF_EVT_IDX_RING 1, r)])

/-! ### Buffers (R323) -/

/-- The valid buffers fetched on ring `r`. -/
def State.buffers (s : State) (r : Nat) : Nat := ((s.ring r).fetched.filter Option.isSome).length

/-- Buffers of ring `r` that a poll reported are not yet fetched (R84). -/
def State.moreBuffers (s : State) (r : Nat) : Bool :=
  !(s.ring r).stopped && s.on (Reg.HIF_RING_CFG_EN r) && decide ((s.ring r).fetched.length < s.sqFill r)

/-- How many fetched entries hold the next `n` valid buffers, skipped ones before them included. -/
def spanOf : List (Option Nat) → Nat → Nat
  | [], _ => 0
  | _, 0 => 0
  | none :: l, n => 1 + spanOf l n
  | some _ :: l, n + 1 => 1 + spanOf l n

/-- The next `n` buffers of ring `r` are taken: SQ_HEAD advances over them. -/
def State.takeBuffers (s : State) (r n : Nat) : State :=
  let g := s.ring r
  let k := spanOf g.fetched n
  (s.setRing r { g with fetched := g.fetched.drop k }).wr (Reg.HIF_RING_STAT_SQ_HEAD r)
    ((s.rd (Reg.HIF_RING_STAT_SQ_HEAD r) + k) % 65536)

/-- Address of the `n`-th valid buffer fetched on ring `r`. -/
def State.bufferAddr (s : State) (r n : Nat) : Nat :=
  (((s.ring r).fetched.filterMap id)[n]?).getD 0

/-- Bytes of one buffer of ring `r`. -/
def State.bufSize (s : State) (r : Nat) : Nat := 2 ^ s.rd (Reg.HIF_RING_CFG_BUF_LOG2 r)

/-- A receive completion (R324). -/
def rxCpl (st : Status) (source len port nbuf : Nat) (ts : Instant) : Nat :=
  st.code + 2 ^ 8 * source + 2 ^ 16 * len + 2 ^ 32 * port + 2 ^ 40 * nbuf + 2 ^ 48 * (ts % nsPerS) + 2 ^ 80 * (ts / nsPerS)

/-- The first frame waiting for receive ring `r` leaves the queue, its cells freed. -/
def State.dropRx (s : State) (i : RxItem) : State :=
  let p := s.prt i.port
  let s := s.setPrt i.port { p with rxCells := p.rxCells - i.cells }
  { s with port := { s.port with rxq := s.port.rxq.erase i } }

/-- RX_RING_DELIVER (R84, R316, R346): the oldest frame for a receive ring is written, whole or truncated, or is dropped:
as misrouted where the ring is not an enabled receive ring, else in RX_RING_NOBUF where the ring has no buffer for its
first byte, its channel is suspended, or the host does not answer.  While buffers that a poll reported are still to be fetched, it
waits for them. -/
def execRxRingDeliver (ring : Fin 64) (dma : Dma) (s : State) : Result :=
  let r := ring.val
  match s.port.rxq.find? (fun i => i.ring = r) with
  | none => .next s
  | some i =>
    let len := i.frame.len - 4
    let size := s.bufSize r
    let need := (len + size - 1) / size
    let have_ := s.buffers r
    if !s.ringIs r 2 then .next ((s.dropRx i).bump .hif C.HIF_MISROUTED r)
    else if !s.chanFree r then
      -- the suspended frame stays in its cells; a later one is dropped whole
      match (s.port.rxq.filter (fun i => i.ring = r))[1]? with
      | some j => .next ((s.dropRx j).portCount j.port C.PORT_RX_RING_NOBUF)
      | none => .next s
    else if s.hostUp && s.moreBuffers r && decide (have_ < need) then .next s
    else if have_ = 0 || !s.hostUp then .next ((s.dropRx i).portCount i.port C.PORT_RX_RING_NOBUF)
    else
      let n := min need have_
      let (ok, t) := s.dma r 1 true (s.rd (Reg.HIF_RING_STAT_SQ_HEAD r)) (min n (dma.offset / size + 1))
        (s.bufferAddr r (dma.offset / size)) ⟨dma.offset % size, dma.walk⟩
      if !ok then .next t else
      let bytes := min len (n * size)
      let t := ((t.takeBuffers r n).dropRx i).emit (.rxFrame r n bytes i.frame)
      if n < need then
        .next (((t.complete r (rxCpl .truncated i.source bytes i.port n i.ts)).portCount i.port C.PORT_RX_TRUNC).portCause i.port 3)
      else .next (t.complete r (rxCpl .ok i.source bytes i.port n i.ts))

/-! ### Completions and interrupts (R318, R321, R322) -/

/-- Ring `r`'s vector is signalled and counting starts afresh. -/
def State.signal (s : State) (r : Nat) : State :=
  (s.setRing r { s.ring r with unsig := 0 }).msi (s.rd (Reg.HIF_RING_IRQ_VEC r))

/-- `n` completions were written on ring `r`: the progress word is written over channel 64, and only after it the
vector is signalled as R322 says. -/
def State.progressed (s : State) (r n : Nat) (progress : Dma) : State :=
  let g := s.ring r
  let s := s.setRing r { g with unsig := g.unsig + n, unsigAt := if g.unsig = 0 then s.now else g.unsigAt }
  if !s.chanFree 64 then s else
  let (ok, s) := s.dma 64 2 true (s.ring r).cqTail 0 (256 * s.rd Reg.HIF_PROG_BASE_ADDR + 4 * r) progress
  if !ok then s else
  let s := s.emit (.progress r ((s.ring r).cqTail + 2 ^ 16 * s.rd (Reg.HIF_RING_STAT_SQ_HEAD r)))
  if s.on (Reg.HIF_RING_IRQ_IRQ_EN r)
      && (s.rd (Reg.HIF_RING_IRQ_COAL_US r) == 0 || decide (s.rd (Reg.HIF_RING_IRQ_COAL_N r) ≤ (s.ring r).unsig)) then
    s.signal r
  else s

/-- The time-stamp records among completions written free their entries of the port's queue (R61). -/
def State.freeStamps (s : State) (kind : Nat) (cs : List Nat) : State :=
  if kind ≠ 1 then s else
  cs.foldl (fun s c =>
    let n := c / 2 ^ 104 % 256
    if (s.prt n).tsq.contains c then s.setPrt n { s.prt n with tsq := (s.prt n).tsq.erase c } else s) s

/-- Work of ring `r` is in flight (R316): a completion to write, a frame or downlink that waits to leave, or a management command in
progress. -/
def State.inFlight (s : State) (r : Nat) : Bool :=
  let sends (f : TxFrame) : Bool := match f.source with | .ring q .. => q == r | .firmware => false
  !(s.ring r).held.isEmpty || s.port.ports.any (fun p => p.2.queues.any (fun l => l.any sends))
    || s.fsl.dls.any (fun d => d.ring == r) || (r == 0 && !s.hif.running.isEmpty)

/-- A disabled ring with nothing in flight is no longer ACTIVE (R316). -/
def State.settle (s : State) (r : Nat) : State :=
  if s.on (Reg.HIF_RING_CFG_EN r) || s.inFlight r then s else s.wr (Reg.HIF_RING_STAT_ACTIVE r) 0

/-- COMPLETION_WRITE (R318, R321, R322, R345): the completions that find entries free are written in production order,
then the progress word; on a fault the ring's channel suspends and they stay held. -/
def execCompletionWrite (ring : Fin 64) (dma : Dma) (progress : Dma) (s : State) : Result :=
  let r := ring.val
  let g := s.ring r
  let n := min g.held.length (s.cqFree r)
  if !(s.hostUp && s.chanFree r && decide (0 < n)) then .next s else
  let size := 2 ^ s.rd (Reg.HIF_RING_CFG_CQ_LOG2 r)
  let (ok, s) := s.dma r 2 true g.cqTail 0 (64 * s.rd (Reg.HIF_RING_CQ_ADDR r) + 16 * (g.cqTail % size)) dma
  if !ok then .next s else
  let cs := g.held.take n
  let s := (List.range n).foldl (fun s k => s.emit (.completion r ((g.cqTail + k) % 65536) ((cs[k]?).getD 0))) s
  let s := (s.setRing r { s.ring r with held := g.held.drop n, cqTail := (g.cqTail + n) % 65536 }).backlog r
  let s := (s.bumpBy .hif C.HIF_COMPLETIONS n r).freeStamps (s.rd (Reg.HIF_RING_CFG_KIND r)) cs
  let s := if s.rd (Reg.HIF_RING_CFG_KIND r) = 4 then s.captureWritten cs true else s
  .next ((s.progressed r n progress).settle r)

/-- IRQ_COAL_TIMEOUT (R322): COAL_US after the first completion not yet signalled. -/
def execIrqCoalTimeout (ring : Fin 64) (s : State) : Result :=
  let r := ring.val
  let g := s.ring r
  when (s.on (Reg.HIF_RING_IRQ_IRQ_EN r) && decide (0 < g.unsig)
    && decide (g.unsigAt + 1000 * s.rd (Reg.HIF_RING_IRQ_COAL_US r) ≤ s.now)) s (s.signal r)

/-- Every ring that was disabled. -/
def State.settleRings (s : State) : State :=
  (List.range 64).foldl (fun s r => if s.on (Reg.HIF_RING_STAT_ACTIVE r) then s.settle r else s) s

/-! ### Events (R335) -/

/-- An event entry (R335). -/
def evEntry (w : EvWait) : Nat :=
  Status.ok.code + 2 ^ 8 * w.src + 2 ^ 16 * w.count + 2 ^ 32 * (w.first % nsPerS) + 2 ^ 64 * (w.first / nsPerS)

/-- EVENT_ENTRY_WRITE (R335): the oldest waiting entry of an event queue is written; while none finds ring space,
event 242 is raised. -/
def execEventEntryWrite (q : Fin 4) (dma : Dma) (s : State) : Result :=
  match s.evqRing q.val, s.hif.evWait.find? (fun w => s.rd (Reg.HIF_EVT_ROUTE_EVQ w.src) == q.val) with
  | some r, some w =>
    if !(s.hostUp && s.chanFree r) then .next s
    else if s.cqFree r = 0 then .next (s.raise 242 [(Reg.HIF_EVT_IDX_RING 2, r)])
    else
      let g := s.ring r
      let size := 2 ^ s.rd (Reg.HIF_RING_CFG_CQ_LOG2 r)
      let (ok, s) := s.dma r 2 true g.cqTail 0 (64 * s.rd (Reg.HIF_RING_CQ_ADDR r) + 16 * (g.cqTail % size)) dma
      if !ok then .next s else
      let s := { s with hif := { s.hif with evWait := s.hif.evWait.erase w } }
      let s := s.emit (.eventEntry r g.cqTail (evEntry w))
      let s := (s.setRing r { s.ring r with cqTail := (g.cqTail + 1) % 65536 }).bump .hif C.HIF_COMPLETIONS r
      .next (s.progressed r 1 dma)
  | _, _ => .next s

/-! ### Ring enabling (R315, R316, R350) -/

/-- The configuration fields of HIF_RING_CFG[r] take a written word; a reserved encoding leaves its field (R4). -/
def State.ringCfg (s : State) (r v : Nat) : State :=
  let kind := bits v 28 3
  let sq := bits v 24 4
  let cq := bits v 20 4
  let buf := bits v 15 5
  let s := if r = 0 ∨ 6 ≤ kind then s else s.wr (Reg.HIF_RING_CFG_KIND r) kind
  let s := if sq < 4 then s else s.wr (Reg.HIF_RING_CFG_SQ_LOG2 r) sq
  let s := if cq < 4 then s else s.wr (Reg.HIF_RING_CFG_CQ_LOG2 r) cq
  if buf < 8 ∨ 21 < buf then s else s.wr (Reg.HIF_RING_CFG_BUF_LOG2 r) buf

/-- The word HIF_RING_CFG[r] reads, EN apart. -/
def State.ringCfgWord (s : State) (r : Nat) : Nat :=
  2 ^ 28 * s.rd (Reg.HIF_RING_CFG_KIND r) + 2 ^ 24 * s.rd (Reg.HIF_RING_CFG_SQ_LOG2 r)
    + 2 ^ 20 * s.rd (Reg.HIF_RING_CFG_CQ_LOG2 r) + 2 ^ 15 * s.rd (Reg.HIF_RING_CFG_BUF_LOG2 r)

/-- RING_ENABLE (R315, R316): a write of HIF_RING_CFG with EN 1 configures an inactive ring and sets its submission head
and completion tail to 0; while ACTIVE is 1 it is discarded and sets CFG_WR. -/
def execRingEnable (ring : Fin 64) (value : BitVec 32) (s : State) : Result :=
  let r := ring.val
  if !s.barOpen (0x11010 + 0x20 * r) then .next s
  else if s.on (Reg.HIF_RING_STAT_ACTIVE r) then .next (s.wr (Reg.HIF_RING_STAT_CFG_WR r) 1)
  else
    let s := (s.ringCfg r value.toNat).wr (Reg.HIF_RING_CFG_EN r) 1
    let s := (s.wr (Reg.HIF_RING_STAT_SQ_HEAD r) 0).wr (Reg.HIF_RING_STAT_ACTIVE r) 1
    .next ((s.setRing r Ring.init).backlog r)

/-- RING_DISABLE (R316, R350): a write of HIF_RING_CFG with EN 0 stops new fetching; a suspended ring discards the
suspended item and all later work.  On an inactive ring it only configures. -/
def execRingDisable (ring : Fin 64) (value : BitVec 32) (s : State) : Result :=
  let r := ring.val
  if !s.barOpen (0x11010 + 0x20 * r) then .next s
  else if !s.on (Reg.HIF_RING_STAT_ACTIVE r) then .next ((s.ringCfg r value.toNat).wr (Reg.HIF_RING_CFG_EN r) 0)
  else
    let s := if value.toNat % 2 ^ 31 / 2 ^ 15 = s.ringCfgWord r / 2 ^ 15 then s else s.wr (Reg.HIF_RING_STAT_CFG_WR r) 1
    let s := s.wr (Reg.HIF_RING_CFG_EN r) 0
    let kept := (s.ring r).held
    let s := s.setRing r { s.ring r with fetched := [] }
    let s := match kvGet? s.xlt.susp r with
      | none => s
      | some _ =>
        let s := { s with xlt := { s.xlt with susp := kvDel s.xlt.susp r } }
        let s := s.wr (Reg.HIF_RING_STAT_SUSP r) 0
        let s := (s.port.rxq.filter (fun (i : RxItem) => i.ring = r)).foldl State.dropRx s
        s.setRing r { s.ring r with held := [] }
    let free := s.cqFree r
    let s := if s.rd (Reg.HIF_RING_CFG_KIND r) = 4 then s.captureWritten (kept.drop ((s.ring r).held.take free).length) false
      else s
    let s := s.setRing r { s.ring r with held := (s.ring r).held.take free }
    .next (((s.backlog r).settle r).chShow)

/-! ### The PCIe function (R312, R313, R450, R477) -/

/-- The identity that configuration space presents (R312): vendor and device ID, and class code with revision ID; one 64-bit BAR of
64 MiB, 64 MSI-X vectors with the table and the PBA in it; the largest payload and read request, in bytes, and reads outstanding. -/
def State.pcieIds (s : State) : Nat × Nat := (0x1F2C + 2 ^ 16 * 0x4864, 16 * s.rd Reg.GLB_ID_STEP_MAJOR + s.rd Reg.GLB_ID_STEP_MINOR + 2 ^ 8 * 0x118000)
def barBytes : Nat := 2 ^ 26
def msixVectors : Nat := 64
def msixTableAt : Nat := 0x18000
def msixPbaAt : Nat := 0x19000
def maxPayload : Nat := 512
def maxReadRequest : Nat := 4096
def maxReads : Nat := 256

/-- The fields of the HIF and XLT blocks, and of the MSI-X table, are at their reset values. -/
def clearHifXlt (m : FMap) : FMap := m.filter (fun e => decide (e.1 < 8 * 0x10000) || decide (8 * 0x40000 ≤ e.1))

/-- HIF and XLT restart (R313): DMA stops, every ring is disabled, every HIF and XLT register returns to its reset
value, and completions not delivered are discarded; the entries of the time-stamp queues that
they carry stay held (R61, DESIGN CHOICE, notes/assumptions/34.md).  What other blocks and the management commands do runs on. -/
def State.restartHif (s : State) : State :=
  { s with
    dev := clearHifXlt s.dev
    hif := { s.hif with rings := [], evWait := [], nudgeLast := 0, nudgeAt := 0, dbDue := [], msixTable := [], msixPending := 0 }
    xlt := XltState.reset }

/-- FLR (R313). -/
def execFlr (s : State) : Result := .next s.restartHif

/-- BUS_MASTER_DISABLE (R313): the device issues no requests. -/
def execBusMasterDisable (s : State) : Result := .next { s with hif := { s.hif with busMaster := false } }

/-- BUS_MASTER_ENABLE (R313). -/
def execBusMasterEnable (s : State) : Result := .next { s with hif := { s.hif with busMaster := true } }

/-- PERST (R477): the link goes down, configuration space returns to its reset values (Bus Master Enable 0 among them), and
HIF and XLT restart. -/
def execPerst (s : State) : Result :=
  let s := s.restartHif
  .next { s with hif := { s.hif with linkUp := false, busMaster := false } }

/-- PCIE_LINK_DOWN (R450): DMA stops; the error is logged with code 0x17. -/
def execPcieLinkDown (s : State) : Result :=
  .next (State.recoverable { s with hif := { s.hif with linkUp := false } } 0xFF 0xFFFF 0x17 0)

/-- PCIE_LINK_UP (R450): the link comes up again, as for a function level reset. -/
def execPcieLinkUp (s : State) : Result :=
  let s := s.restartHif
  .next { s with hif := { s.hif with linkUp := true } }

end Sys2Proof.Machine
end

