-- ==== Sys2Proof/Machine/Float.lean ====
section
/-!
DEFINITION. FP32 arithmetic on bit patterns: exact values as a sign, a magnitude and a power of two, rounded once to
nearest, ties to even (R99, R142; the rounding is PRESUMED where the spec says only FP32: notes/assumptions/21).
-/
namespace Sys2Proof.Machine

/-- The value of an FP32 pattern: not a number, an infinity, or `m * 2^e` with a sign. -/
inductive Fp where
  | nan
  | inf (neg : Bool)
  | fin (neg : Bool) (m : Nat) (e : Int)
  deriving DecidableEq, Repr

/-- The value of a pattern. -/
def fpDecode (b : BitVec 32) : Fp :=
  let n := b.toNat
  let neg := n.testBit 31
  let ex : Nat := n / 2 ^ 23 % 256
  let m : Nat := n % 2 ^ 23
  if ex = 255 then (if m = 0 then .inf neg else .nan)
  else if ex = 0 then .fin neg m (-149)
  else .fin neg (2 ^ 23 + m) ((ex : Int) - 150)

/-- `m / 2^k` rounded to nearest, ties to even. -/
def roundShift (m k : Nat) : Nat :=
  let q := m >>> k
  let r := m % 2 ^ k
  let half := 2 ^ k / 2
  if k = 0 then m
  else if half < r ∨ (r = half ∧ q % 2 = 1) then q + 1 else q

/-- The sign bit of a pattern. -/
def signBit (neg : Bool) : Nat := if neg then 2 ^ 31 else 0

/-- The pattern nearest to a value, ties to even. -/
def fpEncode : Fp → BitVec 32
  | .nan => 0x7FC00000
  | .inf neg => BitVec.ofNat 32 (signBit neg + 0x7F800000)
  | .fin neg m e =>
    if m = 0 then BitVec.ofNat 32 (signBit neg) else
    let q := max ((Nat.log2 m : Int) + e - 23) (-149)
    let r := if q ≤ e then m * 2 ^ (e - q).toNat else roundShift m (q - e).toNat
    let (r, q) := if r = 2 ^ 24 then (2 ^ 23, q + 1) else (r, q)
    if r < 2 ^ 23 then BitVec.ofNat 32 (signBit neg + r)
    else if 104 < q then BitVec.ofNat 32 (signBit neg + 0x7F800000)
    else BitVec.ofNat 32 (signBit neg + (q + 150).toNat * 2 ^ 23 + (r - 2 ^ 23))

/-- The exact product. -/
def Fp.mul : Fp → Fp → Fp
  | .nan, _ => .nan
  | _, .nan => .nan
  | .inf a, .inf b => .inf (a != b)
  | .inf a, .fin b m _ => if m = 0 then .nan else .inf (a != b)
  | .fin a m _, .inf b => if m = 0 then .nan else .inf (a != b)
  | .fin a m e, .fin b n f => .fin (a != b) (m * n) (e + f)

/-- The exact sum. -/
def Fp.add : Fp → Fp → Fp
  | .nan, _ => .nan
  | _, .nan => .nan
  | .inf a, .inf b => if a = b then .inf a else .nan
  | .inf a, .fin .. => .inf a
  | .fin .., .inf b => .inf b
  | .fin a m e, .fin b n f =>
    let g := min e f
    let x : Int := (if a then -1 else 1) * (m * 2 ^ (e - g).toNat : Nat)
    let y : Int := (if b then -1 else 1) * (n * 2 ^ (f - g).toNat : Nat)
    let z := x + y
    .fin (if z = 0 then a && b else decide (z < 0)) z.natAbs g

/-- The value with the other sign. -/
def Fp.neg : Fp → Fp
  | .nan => .nan
  | .inf a => .inf (!a)
  | .fin a m e => .fin (!a) m e

/-- The order of two values: `none` where one is not a number. -/
def Fp.lt (x y : Fp) : Bool :=
  match Fp.add x y.neg with
  | .nan => false
  | .inf a => a
  | .fin a m _ => a && m != 0

/-- FP32 product. -/
def fpMul (a b : BitVec 32) : BitVec 32 := fpEncode (Fp.mul (fpDecode a) (fpDecode b))

/-- FP32 sum. -/
def fpAdd (a b : BitVec 32) : BitVec 32 := fpEncode (Fp.add (fpDecode a) (fpDecode b))

/-- FP32 difference. -/
def fpSub (a b : BitVec 32) : BitVec 32 := fpEncode (Fp.add (fpDecode a) (fpDecode b).neg)

/-- FP32 magnitude of one number. -/
def fpAbs (a : BitVec 32) : BitVec 32 := BitVec.ofNat 32 (a.toNat % 2 ^ 31)

/-- `a < b`; false where one is not a number. -/
def fpLt (a b : BitVec 32) : Bool := Fp.lt (fpDecode a) (fpDecode b)

/-- `a ≤ b`; false where one is not a number. -/
def fpLe (a b : BitVec 32) : Bool :=
  match fpDecode a, fpDecode b with
  | .nan, _ => false
  | _, .nan => false
  | x, y => !Fp.lt y x

/-- The pattern is not a number. -/
def fpIsNan (a : BitVec 32) : Bool := fpDecode a == .nan

/-- The FP32 number nearest to the ratio `n / d`, ties to even. -/
def fpOfRatio (n : Int) (d : Nat) : BitVec 32 :=
  if n = 0 ∨ d = 0 then 0 else
  -- the quotient to at least 64 significant bits, the last one sticky
  let k := 64 + Nat.log2 d
  let a := n.natAbs * 2 ^ k / d
  let exact := n.natAbs * 2 ^ k % d = 0
  fpEncode (.fin (decide (n < 0)) (2 * a + (if exact then 0 else 1)) (-(k + 1 : Nat)))

/-- The FP32 number nearest to an integer. -/
def fpOfInt (n : Int) : BitVec 32 := fpEncode (.fin (decide (n < 0)) n.natAbs 0)

/-- The sum of products of two lists in order, rounded once (R142 names where). -/
def fpDotExact (xs ys : List (BitVec 32)) : Fp :=
  (xs.zip ys).foldl (fun acc p => Fp.add acc (Fp.mul (fpDecode p.1) (fpDecode p.2))) (.fin false 0 0)

end Sys2Proof.Machine
end

