-- ==== Sys2Proof/Machine/Num.lean ====
section
/-!
DEFINITION. Real arithmetic behind the rules that give a formula: exact rationals, complex numbers and linear systems over them, and
square root, logarithm, circular functions and their inverse to 2^-160.  A result is rounded once, to FP32, where it leaves a block
(PRESUMED: the order and rounding of the steps between, which the spec leaves open, notes/assumptions/12.md).
-/
namespace Sys2Proof.Machine

/-! ### FP32 and rationals -/

/-- The value of an FP32 pattern, none where it is no finite number. -/
def ratOfFp (b : BitVec 32) : Option Rat :=
  match fpDecode b with
  | .fin neg m e =>
    let v : Rat := if 0 ≤ e then (m : Rat) * 2 ^ e.toNat else (m : Rat) / 2 ^ (-e).toNat
    some (if neg then -v else v)
  | _ => none

/-- The number that an analysis takes for an FP32 pattern; a pattern that is no finite number stands for a free value
(notes/assumptions/13.md). -/
def realOf (b : BitVec 32) : Rat := (ratOfFp b).getD (Config.realOf b)

/-- The FP32 pattern nearest to a rational, ties to even. -/
def fpOfRat (q : Rat) : BitVec 32 := fpOfRatio q.num q.den

/-- The pattern of a value that may be no number. -/
def fpOfRat? (q : Option Rat) : BitVec 32 := match q with | some v => fpOfRat v | none => fpEncode .nan

/-- The working precision. -/
def fxOne : Nat := 2 ^ 160

/-- A rational cut to the working precision. -/
def cut (q : Rat) : Rat := (q.num * fxOne / q.den : Int) / (fxOne : Rat)

/-- The greatest number whose square is at most `n`, bit by bit from bit `k` down. -/
def isqrtFrom : Nat → Nat → Nat → Nat
  | 0, _, r => r
  | k + 1, n, r => isqrtFrom k n (if (r + 2 ^ k) * (r + 2 ^ k) ≤ n then r + 2 ^ k else r)

/-- Integer square root. -/
def isqrt (n : Nat) : Nat := isqrtFrom (Nat.log2 n / 2 + 1) n 0

/-- Square root to the working precision; 0 for a negative number. -/
def ratSqrt (q : Rat) : Rat := (isqrt (q.num.toNat * fxOne * fxOne / q.den) : Rat) / (fxOne : Rat)

/-- The FP32 number nearest to a square root: the root to 96 significant bits, the last one sticky. -/
def fpSqrtRat (q : Rat) : BitVec 32 :=
  if q ≤ 0 then 0 else
  let k := 192 + Nat.log2 q.den
  let n := q.num.toNat * 4 ^ k / q.den
  let r := isqrt n
  fpEncode (.fin false (2 * r + (if r * r = n ∧ q.num.toNat * 4 ^ k % q.den = 0 then 0 else 1)) (-(k + 1 : Nat)))

/-- Square root, FP32: not a number for a negative number. -/
def fpSqrt (a : BitVec 32) : BitVec 32 :=
  match fpDecode a with
  | .nan => fpEncode .nan
  | .inf neg => if neg then fpEncode .nan else a
  | .fin neg m _ => if m = 0 then a else if neg then fpEncode .nan else fpSqrtRat ((ratOfFp a).getD 0)

/-! ### Circular functions and the logarithm -/

/-- π times 2^160, cut. -/
def fxPi : Nat := 0x3243F6A8885A308D313198A2E03707344A4093822

/-- π. -/
def pi : Rat := (fxPi : Rat) / (fxOne : Rat)

/-- The alternating series 1 - x/(a(a+1)) + x²/(a(a+1)(a+2)(a+3)) - … of a square `x`, from a term on: `n` terms. -/
def altSeries (x : Int) : Nat → Nat → Int → Int
  | 0, _, _ => 0
  | n + 1, a, t => t + altSeries x n (a + 2) (-(t * x / ((fxOne : Int) * ((a * (a + 1) : Nat) : Int))))

/-- Cosine and sine of an angle given in turns. -/
def cosSin (turns : Rat) : Rat × Rat :=
  let t : Rat := turns - (turns + 1 / 2).floor
  let x : Int := (2 * t * pi * (fxOne : Rat)).floor
  let sq : Int := x * x / (fxOne : Int)
  let c := altSeries sq 48 1 (fxOne : Int)
  let s := altSeries sq 48 2 (fxOne : Int)
  ((c : Rat) / (fxOne : Rat), (s * x / (fxOne : Int) : Int) / (fxOne : Rat))

/-- The odd series t + σ t³/3 + t⁵/5 + … : `n` terms from the power `p` of exponent `k`, with the sign alternating where `alt`. -/
def oddSeries (alt : Bool) (sq : Int) : Nat → Nat → Int → Int
  | 0, _, _ => 0
  | n + 1, k, p => p / (k : Int) + oddSeries alt sq n (k + 2) ((if alt then -1 else 1) * (p * sq / (fxOne : Int)))

/-- The series at a rational. -/
def odd (alt : Bool) (t : Rat) : Rat :=
  let x : Int := (t * (fxOne : Rat)).floor
  (oddSeries alt (x * x / (fxOne : Int)) 96 1 x : Rat) / (fxOne : Rat)

/-- Arc tangent of a number from 0 to 1, in radians: the angle is halved twice first. -/
def atan01 (t : Rat) : Rat :=
  let half (t : Rat) : Rat := cut (t / (1 + ratSqrt (1 + t * t)))
  4 * odd true (half (half t))

/-- The angle of `x + j y` in radians, above -π and up to π; 0 at the origin. -/
def atan2 (y x : Rat) : Rat :=
  if x = 0 ∧ y = 0 then 0 else
  let ax := |x|
  let ay := |y|
  let a := if ay ≤ ax then atan01 (ay / ax) else pi / 2 - atan01 (ax / ay)
  let a := if x < 0 then pi - a else a
  if y < 0 then -a else a

/-- ln 2. -/
def ln2 : Rat := 2 * odd false (1 / 3)

/-- Natural logarithm of a positive number. -/
def ratLn (q : Rat) : Rat :=
  let k : Int := (Nat.log2 q.num.toNat : Int) - (Nat.log2 q.den : Int)
  let m : Rat := if 0 ≤ k then q / 2 ^ k.toNat else q * 2 ^ (-k).toNat
  (k : Rat) * ln2 + 2 * odd false (cut ((m - 1) / (m + 1)))

/-! ### Complex numbers -/

/-- A complex number. -/
structure Cx where
  re : Rat
  im : Rat
  deriving DecidableEq, Repr

/-- 0. -/
def Cx.zero : Cx := ⟨0, 0⟩
/-- Sum. -/
def Cx.add (a b : Cx) : Cx := ⟨a.re + b.re, a.im + b.im⟩
/-- Difference. -/
def Cx.sub (a b : Cx) : Cx := ⟨a.re - b.re, a.im - b.im⟩
/-- Product. -/
def Cx.mul (a b : Cx) : Cx := ⟨a.re * b.re - a.im * b.im, a.re * b.im + a.im * b.re⟩
/-- Multiple. -/
def Cx.scale (k : Rat) (a : Cx) : Cx := ⟨k * a.re, k * a.im⟩
/-- Conjugate. -/
def Cx.conj (a : Cx) : Cx := ⟨a.re, -a.im⟩
/-- Square of the magnitude. -/
def Cx.sq (a : Cx) : Rat := a.re * a.re + a.im * a.im
/-- Quotient; 0 for a divisor 0. -/
def Cx.div (a b : Cx) : Cx := Cx.scale (1 / b.sq) (a.mul b.conj)
/-- A number of magnitude 1 with an angle in turns. -/
def Cx.turn (t : Rat) : Cx := let (c, s) := cosSin t; ⟨c, s⟩
/-- The angle in radians. -/
def Cx.arg (a : Cx) : Rat := atan2 a.im a.re
/-- Cut to the working precision. -/
def Cx.cut (a : Cx) : Cx := ⟨Machine.cut a.re, Machine.cut a.im⟩
/-- Sum of a list. -/
def Cx.sum (l : List Cx) : Cx := l.foldl Cx.add Cx.zero

/-- A phasor as a complex number, none where a part is no finite number. -/
def cxOfFp (p : BitVec 32 × BitVec 32) : Option Cx :=
  match ratOfFp p.1, ratOfFp p.2 with
  | some a, some b => some ⟨a, b⟩
  | _, _ => none

/-- A complex number as a phasor. -/
def Cx.fp (a : Cx) : BitVec 32 × BitVec 32 := (fpOfRat a.re, fpOfRat a.im)

/-! ### Linear systems -/

/-- The sum of products of two lists. -/
def dot (a b : List Rat) : Rat := (List.zipWith (· * ·) a b).sum

/-- `p` with `k` times `q` subtracted, without its first place. -/
def reduceRow (p q : List Rat) : List Rat := (List.zipWith (fun a b => a - p.headD 0 / q.headD 1 * b) p q).drop 1

/-- The solution of `n` equations in `n` unknowns, each as its coefficients and its right side; none where they are singular. -/
def linSolve : Nat → List (List Rat) → Option (List Rat)
  | 0, _ => some []
  | n + 1, rows =>
    match rows.find? (fun r => r.headD 0 != 0) with
    | none => none
    | some p =>
      match linSolve n ((rows.erase p).map (fun r => reduceRow r p)) with
      | none => none
      | some xs => some (((p.getLast?.getD 0) - dot (p.drop 1) xs) / p.headD 1 :: xs)

/-- A row of complex coefficients with the multiple of pivot row `p` subtracted that clears its first place, without that place. -/
def cxReduce (r p : List Cx) : List Cx :=
  let k := (r.headD Cx.zero).div (p.headD Cx.zero)
  (List.zipWith (fun a b => a.sub (k.mul b)) r p).drop 1

/-- The pivots and the solutions, one row per unknown and in it one per right side, of `n` complex equations in `n` unknowns taken in
their order; each equation is its coefficients and its right sides.  None where a pivot is 0. -/
def cxSolve : Nat → List (List Cx) → Option (List Rat × List (List Cx))
  | 0, _ => some ([], [])
  | _ + 1, [] => none
  | n + 1, p :: rest =>
    let d := p.headD Cx.zero
    if d = Cx.zero then none else
    match cxSolve n (rest.map (fun r => cxReduce r p)) with
    | none => none
    | some (ds, xs) =>
      let known := (List.zipWith (fun c row => row.map (fun v => c.mul v)) (p.drop 1) xs)
      let rhs := p.drop (n + 1)
      let x0 := (known.foldl (fun acc row => List.zipWith Cx.sub acc row) rhs).map (fun v => v.div d)
      some (d.re :: ds, x0 :: xs)

/-- The coefficients that minimise Σ w (y - b · x)² over points (w, y, b), `n` of them. -/
def leastSquares (n : Nat) (pts : List (Rat × Rat × List Rat)) : Option (List Rat) :=
  linSolve n ((List.range n).map (fun i =>
    let col := pts.map (fun p => (p.1 * (p.2.2[i]?).getD 0, p))
    (List.range n).map (fun j => (col.map (fun c => c.1 * (c.2.2.2[j]?).getD 0)).sum) ++ [(col.map (fun c => c.1 * c.2.2.1)).sum]))

/-! ### FP32 functions of phasors -/

/-- Rectangular components of a polar phasor with its angle in turns. -/
def polarRect (mag : BitVec 32) (turns : Option Rat) : BitVec 32 × BitVec 32 :=
  match ratOfFp mag, turns with
  | some m, some t => (Cx.scale m (Cx.turn t)).fp
  | _, _ => (fpEncode .nan, fpEncode .nan)

/-- Rectangular components of a polar phasor: magnitude and angle in radians (R99). -/
def polarToRect (mag ang : BitVec 32) : BitVec 32 × BitVec 32 := polarRect mag ((ratOfFp ang).map (· / (2 * pi)))

/-- The same with the angle in degrees (R102). -/
def polarDegToRect (mag ang : BitVec 32) : BitVec 32 × BitVec 32 := polarRect mag ((ratOfFp ang).map (· / 360))

/-- Magnitude of a rectangular phasor, FP32. -/
def fpMag (re im : BitVec 32) : BitVec 32 :=
  match cxOfFp (re, im) with
  | some p => fpSqrtRat p.sq
  | none => fpEncode (match fpDecode re, fpDecode im with | .inf _, _ => .inf false | _, .inf _ => .inf false | _, _ => .nan)

/-- Angle of a rectangular phasor in radians; none where it has none. -/
def ratAngle (re im : BitVec 32) : Option Rat :=
  match cxOfFp (re, im) with
  | some p => if p.sq = 0 then none else some p.arg
  | none => none

/-- Angle of a rectangular phasor in radians, FP32; the spec gives the phasor 0 none. -/
def fpAngle (re im : BitVec 32) : BitVec 32 :=
  match ratAngle re im with | some a => fpOfRat a | none => Config.noAngle re im

/-- Angle of a rectangular phasor in degrees, FP32 (R258). -/
def fpAngleDeg (re im : BitVec 32) : BitVec 32 :=
  match ratAngle re im with | some a => fpOfRat (a * 180 / pi) | none => Config.noAngle re im

/-- Natural logarithm, FP32: negative infinity at 0, not a number below. -/
def fpLn (a : BitVec 32) : BitVec 32 :=
  match fpDecode a with
  | .inf false => a
  | .fin neg m _ =>
    if m = 0 then fpEncode (.inf true) else if neg then fpEncode .nan else fpOfRat (ratLn ((ratOfFp a).getD 1))
  | _ => fpEncode .nan

end Sys2Proof.Machine
end

