-- ==== Sys2Proof/Machine/Ingest.lean ====
section
/-!
DEFINITION. Stream ingest (spec/05): the configuration that reads a frame, transport, authentication, order, time and
quality, conversion and hand-on, GOOSE status, TCP connections and configuration frames.
-/
namespace Sys2Proof.Machine
open Sys2Proof

/-! ### Status and discards (R113, R114) -/

/-- An entry's status record before anything was seen of it. -/
def EntStat.init : EntStat :=
  { last := 0, port := 0, udp := 0, seq := 0, st := 0, accepted := 0, authFail := 0, dup := 0, tq := 0, format := 0,
    other := 0, flags := 0, win := [], stat10 := false, mismatch := false, cmdAt := none, goose := none, conn := none }

/-- What ING keeps of entry `e`. -/
def State.ent (s : State) (e : Nat) : EntStat := kvGetD s.ing.ent e EntStat.init

/-- `s` with what ING keeps of entry `e` replaced. -/
def State.setEnt (s : State) (e : Nat) (x : EntStat) : State :=
  { s with ing := { s.ing with ent := kvPut s.ing.ent e x EntStat.init } }

/-- ING raises source `64 + k` for entry `e` (R113). -/
def State.ingEvent (s : State) (k e : Nat) : State := s.raise (64 + k) [(Reg.ING_EVT_ENTRY_ENTRY k, e)]

/-- The event, as its number above 64, that goes with an ING counter. -/
def ingEventOf (c : Nat) : Option Nat :=
  if c = C.ING_AUTH_FAIL then some 0 else if c = C.ING_KEY_STALE then some 1 else if c = C.ING_CONFREV then some 2
  else if c = C.ING_REPLAY ∨ c = C.ING_DUP then some 6
  else if c = C.ING_PARSE_ERR ∨ c = C.ING_FORMAT_MISMATCH then some 8 else none

/-- The status record with a discard counted under the counter `c` (R114). -/
def EntStat.count (x : EntStat) (c : Nat) : EntStat :=
  let inc (n : Nat) := (n + 1) % 2 ^ 32
  if c = C.ING_AUTH_FAIL then { x with authFail := inc x.authFail }
  else if c = C.ING_REPLAY ∨ c = C.ING_DUP then { x with dup := inc x.dup }
  else if c = C.ING_FORMAT_MISMATCH ∨ c = C.ING_CONFREV ∨ c = C.ING_PARSE_ERR then { x with format := inc x.format }
  else if c = C.ING_KEY_STALE then { x with other := inc x.other, flags := x.flags ||| 2 }
  else { x with other := inc x.other }

/-- A frame, or one sample of it, is discarded and counted under `c`, with its event; entry `none` for a frame of no
entry. -/
def State.discard (s : State) (e : Option Nat) (c : Nat) : State :=
  let s := s.bump .ing c (e.getD 0)
  let s := match e with
    | some n => s.setEnt n ((s.ent n).count c)
    | none => s
  match ingEventOf c with
  | some k => s.ingEvent k (e.getD 0)
  | none => s

/-! ### Commands to sources (R96, R97, R111) -/

/-- Firmware sends command `cmd` to the source of entry `e` (R97, R111), to SRC_IP at the UDP source port of its last frame: on the
entry's port, or the port of its last frame where any port serves, on transmit queue 7. -/
def State.sendCommand (s : State) (e cmd : Nat) : State :=
  let r := s.act.tab 1 e
  let p := r.at 2 1
  let dest := if p = 0xFF then (s.ent e).port else p
  s.send dest 7 (fwFrame (.command e cmd (s.soc s.now) (s.fracsec (r.at 60 4) s.now) (r.at 16 16) (s.ent e).udp) 64)

/-! ### TCP connections (R96) -/

/-- No connection. -/
def Conn.init : Conn := ⟨0, 0, 0, 0, [], 0, []⟩

/-- Entry `e`'s connection. -/
def State.conn (s : State) (e : Nat) : Conn := (s.ent e).conn.getD Conn.init

/-- `s` with entry `e`'s connection replaced; each change of its state raises event 71 (R113). -/
def State.setConn (s : State) (e : Nat) (c : Conn) : State :=
  let old := (s.conn e).st
  let s := s.setEnt e { s.ent e with conn := some c }
  if old = c.st then s else s.ingEvent 7 e

/-- The local address of a port, or of the lowest-numbered member of its Harness (R95, R96). -/
def State.localIp (s : State) (n : Nat) (v6 : Bool) : Nat :=
  let h := s.cf (Reg.PORT_CFG_HARN_ID n)
  let m := if h = 0 then n else (s.act.members h).headD n
  if v6 then s.cf (Reg.ING_LIP6_ADDR m) else s.cf (Reg.ING_LIP4_ADDR m)

/-- SRC_IP is an IPv6 address. -/
def Rec.ip6 (r : Rec) : Bool := r.at 16 12 != 0xFFFF * 2 ^ 80

/-- Sequence numbers that a segment takes (R96): a SYN and a FIN one, a command frame its 18 bytes and, where AUTH is set, its
trailer. -/
def tcpSpan (r : Rec) (kind : Nat) : Nat :=
  match kind with
  | 0 | 3 => 1
  | 2 => if r.bitsAt 3 0 2 = 0 then 18 else 35
  | _ => 0

/-- A segment of entry `e`'s connection with sequence number `seq` leaves (R96): from the local address of the entry's port and local
port 49,152 + e mod 16,384, with a window of 64 KiB less one and in a SYN an MSS of 1,460 or 1,440 bytes. -/
def State.putTcp (s : State) (e kind cmd seq : Nat) : State :=
  let r := s.act.tab 1 e
  let c := s.conn e
  let port := ((s.act.destPorts (r.at 2 1)).headD 0)
  s.send (r.at 2 1) 7 (fwFrame (.tcp e kind cmd (s.localIp port r.ip6) (if r.ip6 then r.at 16 16 else r.at 28 4) (49152 + e % 16384)
    (r.at 14 2) seq (if kind = 0 then 0 else c.next) 65535 (if kind != 0 then 0 else if r.ip6 then 1440 else 1460)) 78)

/-- Firmware sends a new segment on entry `e`'s connection: 0 SYN, 1 ACK, 2 data command, 3 FIN; what takes sequence numbers is kept
until it is acknowledged. -/
def State.sendTcp (s : State) (e kind cmd : Nat) : State :=
  let c := s.conn e
  let n := tcpSpan (s.act.tab 1 e) kind
  let t := s.putTcp e kind cmd c.own
  if n = 0 then t else
    t.setConn e { c with own := (c.own + n) % 2 ^ 32, unacked := c.unacked ++ [(kind, cmd, c.own, s.now)] }

/-- The peer acknowledges what lies before `ack`. -/
def Conn.acked (c : Conn) (ack : Nat) : Conn :=
  { c with unacked := c.unacked.filter (fun u => decide ((u.2.2.1 + 2 ^ 32 - ack) % 2 ^ 32 < 2 ^ 31)) }

/-- Firmware sends again what was not acknowledged within its retransmission time (R96, Config.tcpRto). -/
def State.tcpResend (s : State) : State :=
  s.ing.ent.foldl (fun s e =>
    match e.2.conn with
    | none => s
    | some c =>
      if !(c.st == 1 || c.st == 2) then s else
      match c.unacked.find? (fun u => decide (u.2.2.2 + Config.tcpRto ≤ s.now)) with
      | none => s
      | some u =>
        let again := c.unacked.map (fun v => if v = u then (v.1, v.2.1, v.2.2.1, s.now) else v)
        (s.setEnt e.1 { s.ent e.1 with conn := some { c with unacked := again } }).putTcp e.1 u.1 u.2.1 u.2.2.1) s

/-- A command to entry `e` on whichever transport it has. -/
def State.command (s : State) (e cmd : Nat) : State :=
  if (s.act.tab 1 e).kind = 2 then s.sendTcp e 2 cmd else s.sendCommand e cmd

/-- A command frame waits to be sent: ING_CMDF_STAT.BUSY. -/
def State.commandQueued (s : State) : Bool :=
  s.port.ports.any (fun p => p.2.queues.any (fun q => q.any (fun f =>
    match f.body with
    | .command .. => true
    | .tcp _ 2 .. => true
    | _ => false)))

/-- With AUTOCFG 1, firmware asks the entry's source for its configuration, at most once per second (R111). -/
def State.autoCfg (s : State) (e : Nat) : State :=
  let x := s.ent e
  let due := match x.cmdAt with | some t => decide (t + nsPerS ≤ s.now) | none => true
  if (s.act.tab 1 e).bitAt 0 6 && due then (s.setEnt e { x with cmdAt := some s.now }).command e 5 else s

/-- A frame of the wrong format or confRev is discarded; the first one asks for the configuration (R111). -/
def State.discardFormat (s : State) (e c : Nat) : State :=
  let first := !(s.ent e).mismatch
  let s := s.discard (some e) c
  let s := s.setEnt e { s.ent e with mismatch := true }
  if first then s.autoCfg e else s

/-! ### Keys and authentication (R100, R101, R107) -/

/-- The use bit of verification at ingest (R395). -/
def useIngest : Nat := 0

/-- The slot that a frame selects for its verification under an entry: none where it selects no slot of the entry. -/
def State.keySlotOf (s : State) (r : Rec) (f : Frame) : Option Nat :=
  let a := r.at 4 1
  let b := r.at 5 1
  match f.body with
  | .c37 m =>
    match m.trailer with
    | some (sel, _) => if 1 < sel.toNat then none else some (if sel = 0 then a else b)
    | none => none
  | .spdu p =>
    let has (i : Nat) : Bool := match kvGet? s.bound i with | some k => k.keyId == p.keyId.toNat | none => false
    if has a then some a else if has b then some b
    else if (kvGet? s.bound a).isNone then some a else if (kvGet? s.bound b).isNone then some b else none
  | _ => none

/-- Verification of a frame starts as the verifier dequeues it (R107), where its entry has AUTH. -/
def State.startAuth (s : State) (r : Rec) (f : Frame) : Option KeyUse × State :=
  let alg := r.bitsAt 3 0 2
  if alg = 0 then (none, s) else
  match s.keySlotOf r f with
  | none => (none, s)
  | some i => let (k, s) := s.keyStart i alg useIngest; (some k, s)

/-- The tag of a message under an algorithm: HMAC-SHA256 truncated to 16 bytes, or AES-GMAC-128. -/
def authTag (alg key : Nat) (iv msg : List Byte) : Nat :=
  if alg = 1 then hmacSha256 key msg % 2 ^ 128 else aesGmac key iv msg

/-- How a frame's authentication ends: quality bits to add, or the counter of its discard. -/
inductive AuthEnd where
  | ok (q : Nat)
  | bad (c : Nat)
  deriving DecidableEq, Repr

/-- The authentication of a frame with `alg`, the key it started with, and its tag (R100, R101, R107, R110). -/
def State.endAuth (s : State) (alg : Nat) (key : Option KeyUse) (iv msg : List Byte) (tag : Nat) : AuthEnd :=
  if alg = 0 then .ok (2 ^ 8) else
  match key with
  | none => .bad C.ING_AUTH_FAIL
  | some k =>
    if !k.usable then .bad C.ING_KEY_STALE
    else if authTag alg k.key iv msg ≠ tag then .bad C.ING_AUTH_FAIL
    else .ok (if s.keyStaleNow k then 2 ^ 7 else 0)

/-! ### Windows (R108) -/

/-- A 64-position window over numbers with `p` marked: whether `p` was free (older ones are not checked), and the window after. -/
def winMark (w : Option (Nat × Nat)) (p : Nat) : Bool × Option (Nat × Nat) :=
  match w with
  | none => (true, some (p, 1))
  | some (n, m) =>
    if n < p then (true, some (p, (if p - n < 64 then m * 2 ^ (p - n) % 2 ^ 64 else 0) ||| 1))
    else if n - p ≥ 64 then (true, w)
    else if bitOf m (n - p) then (false, w)
    else (true, some (n, m ||| 2 ^ (n - p)))

/-- `t` in its place in a list of instants, newest first. -/
def putNewest (t : Instant) : List Instant → List Instant
  | [] => [t]
  | x :: l => if x < t then t :: x :: l else x :: putNewest t l

/-- The window of an entry at `rate` positions per second with the position of instant `t` marked: whether it was free (older ones are
not checked), and the window after.  Readings have no grid (`rate` 0): their window is that of the 64 newest (notes/assumptions/40.md). -/
def posMark (rate : Nat) (w : List Instant) (t : Instant) : Bool × List Instant :=
  if w.contains t then (false, w) else
  let w := putNewest t w
  (true, if rate = 0 then w.take 64 else w.filter (fun x => decide (gridNumber rate (w.headD t) < gridNumber rate x + 64)))

/-- The position check of entry `e` at instant `t` (R108): a repeated position is counted in REPLAY where the entry is authenticated,
else in DUP. -/
def State.fresh (s : State) (e rate : Nat) (t : Instant) (auth : Bool) : Bool × State :=
  let x := s.ent e
  let (ok, w) := posMark rate x.win t
  if ok then (true, s.setEnt e { x with win := w })
  else (false, s.discard (some e) (if auth then C.ING_REPLAY else C.ING_DUP))

/-- The SPDU-number window of a key slot: a number at or below the newest minus 64, or marked, is a replay. -/
def spduMark (w : Option (Nat × Nat)) (p : Nat) : Bool × Option (Nat × Nat) :=
  match w with
  | some (n, _) => if p + 64 ≤ n then (false, w) else winMark w p
  | none => winMark w p

/-! ### Which configuration reads a frame (R93) -/

/-- The copy that reads a parsed frame. -/
def State.parseCfg (s : State) (p : Parsed) : Cfg := s.cfgOf p.epoch

/-- The epoch in force at an ingress time-stamp, and its copy (R93). -/
def State.ingressEpoch (s : State) (ts : Instant) : Nat := s.epochAt ts

/-- A C37.118.2 time as an instant (R98): rounded to the nanosecond; of two instants that repeat a SOC, the one whose
leap-occurred bit agrees with the frame's. -/
def State.c37Instant (s : State) (timeBase : Nat) (m : C37) : Instant :=
  let ns := if timeBase = 0 then 0 else (2 * m.frac * nsPerS + timeBase) / (2 * timeBase)
  let occ (t : Instant) : Bool := match s.leapAt with | some l => decide (l ≤ t) | none => false
  let c := s.ofUtc (m.soc * nsPerS + ns)
  match c.filter (fun t => occ t == bitOf m.tqFlags.toNat 5) with
  | t :: _ => t
  | [] => c.headD 0

/-- The instant of a sampled value (R104): sample `c` of the second for which the ingress time-stamp lies from 1 ms
before to 999 ms after it. -/
def svInstant (rate c : Nat) (ts : Instant) : Instant :=
  let off := (2 * c * nsPerS + rate) / (2 * rate)
  (ts + 1000000 - off) / nsPerS * nsPerS + off

/-- The measurement instant of a frame under an entry's record (R93, R98, R104, R105). -/
def State.measureInstant (s : State) (r : Rec) (ts : Instant) (f : Frame) : Option Instant :=
  let rate := r.at 40 2
  match f.body with
  | .c37 m => if rate = 0 then none else some (snap rate (s.c37Instant (r.at 60 4) m))
  | .spdu p =>
    match p.apdu with
    | .sv (some t) _ _ _ _ _ => if rate = 0 then none else some (snap rate ((s.ofUtc t).headD 0))
    | .goose g => g.t.map (fun t => (s.ofUtc t).headD 0)
    | _ => none
  | .sv v =>
    match v.asdus with
    | a :: _ => if rate = 0 then none else some (svInstant rate (a.smpCnt % rate) ts)
    | [] => none
  | .goose g => g.t.map (fun t => (s.ofUtc t).headD 0)
  | _ => none

/-- The epoch and the entry that read a frame (R93): the configuration in force at the ingress time-stamp, or the retiring copy for an
instant before its boundary; `.error true` where that copy has no entry for it (WRONG_PORT), `.error false` where no entry matches.
A sampled-value frame is read by the copy of its first sample's instant alone. -/
def State.reader (s : State) (ts : Instant) (f : Frame) : Except Bool (Nat × Nat) :=
  let now_ := s.rd Reg.GLB_EPOCH_EPOCH
  match s.ret with
  | none => (match s.act.classify f with | some e => .ok (now_, e) | none => .error false)
  | some r =>
    let isSv := match f.body with | .sv _ => true | _ => false
    let old := decide (ts < r.boundary)
    let first := if old then r.cfg else s.act
    let other := if old then s.act else r.cfg
    let inst := match first.classify f with
      | some e => s.measureInstant (first.tab 1 e) ts f
      | none => match other.classify f with | some e => s.measureInstant (other.tab 1 e) ts f | none => none
    let retiring := match inst with
      | some t => decide (t < r.boundary) || (old && !isSv)
      | none => old
    match (if retiring then r.cfg else s.act).classify f with
    | some e => .ok (if retiring then r.epoch else now_, e)
    | none => .error (retiring != old || (retiring && inst.isSome))

/-- The epoch and the entry that read a data frame `m` of a connection whose segments entry `e` takes under epoch `n` (R93, R96). -/
def State.tcpReader (s : State) (n e : Nat) (f : Frame) (m : C37) : Option (Nat × Nat) :=
  match s.ret with
  | none => some (n, e)
  | some r =>
    match s.measureInstant ((s.cfgOf n).tab 1 e) 0 { f with body := .c37 m } with
    | some t => if t < r.boundary then (r.cfg.classify f).map (fun e => (r.epoch, e)) else some (n, e)
    | none => some (n, e)

/-! ### Parsing (R94, R95) -/

/-- The counter of a transport discard (R95), none where the frame is accepted.  An IPv4 address stands in the low 32
bits of its field, first wire byte lowest. -/
def State.transport (s : State) (n : Nat) (f : Frame) : Option Nat :=
  if 1 < f.vlanTags then some C.ING_PARSE_ERR else
  match f.ip with
  | none => none
  | some h =>
    if h.fragment then some C.ING_IP_FRAG
    else if h.extHeader then some C.ING_PARSE_ERR
    else if !h.multicast && h.dst.toNat != s.localIp n h.v6 then some C.ING_PARSE_ERR
    else if h.csumZero && !h.tcp then (if h.v6 then some C.ING_L4_CSUM else none)
    else if !h.csumOk then some C.ING_L4_CSUM else none

/-- The entry's PORT admits a frame of port `n` (R94). -/
def Cfg.portAdmits (c : Cfg) (r : Rec) (n : Nat) : Bool :=
  let p := r.at 2 1
  p == 0xFF || (c.destPorts p).contains n

/-- The cells of a frame that ING has taken are free again. -/
def State.freeCells (s : State) (i : InFrame) : State :=
  let p := s.prt i.port
  s.setPrt i.port { p with rxCells := p.rxCells - i.cells }

/-- A frame goes to a receive ring in its cells, or is discarded and counted in NO_RING (R84, R114). -/
def State.copyToRing (s : State) (en : Fld) (ring : Fld) (src : Nat) (i : InFrame) : State :=
  if s.cfOn en then s.toRing src (s.cf ring) i.port i.ts i.cells i.frame else (s.freeCells i).bump .ing C.ING_NO_RING (i.entry.getD 0)

/-- The configuration entry that a configuration frame is for: a head of KIND 1 or 2 with its IDCODE and source. -/
def Cfg.cfgEntry (c : Cfg) (f : Frame) (m : C37) : Option Nat :=
  ((c.listed 1).find? (fun e =>
    let r := e.2
    r.head && (r.kind == 1 || r.kind == 2) && r.at 6 2 == m.idcode.toNat
      && (r.at 8 6 == 0 || r.at 8 6 == f.src.toNat)
      && (r.at 16 16 == 0 || (match f.ip with | some h => r.at 16 16 == h.srcKey | none => false)))).map (·.1)

/-- Number of an entry that a parsed frame of no entry carries. -/
def noEntry : Nat := 8192

/-- A parsed frame waits for its own step: entry `e` under epoch `n`. -/
def State.parse (s : State) (i : InFrame) (e n : Nat) (f : Frame) : State :=
  let (k, s) := s.startAuth ((s.cfgOf n).tab 1 e) f
  { s with ing := { s.ing with parsed := s.ing.parsed ++ [⟨i.port, e, i.ts, n, f, k, 0⟩] } }

/-- The 12-byte initialisation vector of R100. -/
def C37.iv (m : C37) : List Byte := beBytes 2 m.idcode.toNat ++ beBytes 4 m.soc ++ beBytes 4 (m.tqFlags.toNat * 2 ^ 24 + m.frac) ++ [0, 0]

/-- The tag of the trailer of R100. -/
def C37.tag (m : C37) : Nat := (m.trailer.map (·.2)).getD 0

/-- A frame without its trailer of 17 bytes, as it is copied to a ring (R100). -/
def InFrame.bare (i : InFrame) : InFrame :=
  { i with frame := { i.frame with len := i.frame.len - 17, bytes := i.frame.bytes.take (i.frame.bytes.length - 17) } }

/-- CHK holds and the SYNC version is 1 or 2 (R97). -/
def C37.sound (m : C37) : Bool := m.chkOk && (m.version == 1 || m.version == 2)

/-- A C37.118.2 frame other than a data frame arrives for entry `e` (R97, R100): configuration frames go to their ring and are parsed
for firmware, header frames go to their ring, when their CHK and their authentication hold; command frames wait for their step. -/
def State.c37Other (s : State) (i : InFrame) (m : C37) (e : Option Nat) : State :=
  if !m.sound then (s.freeCells i).discard e C.ING_PARSE_ERR else
  let n := s.ingressEpoch i.ts
  let copied (s : State) : State :=
    let alg := match e with | some e => ((s.cfgOf n).tab 1 e).bitsAt 3 0 2 | none => 0
    let i := if alg = 0 then i else i.bare
    if m.typ == .header then s.copyToRing Reg.ING_RING_HDR_EN Reg.ING_RING_HDR_RING 2 i
    else
      let s := s.copyToRing Reg.ING_RING_CFG_EN Reg.ING_RING_CFG_RING 1 i
      { s with ing := { s.ing with parsed := s.ing.parsed ++ [⟨i.port, e.getD noEntry, i.ts, n, i.frame, none, 0⟩] } }
  match m.typ with
  | .cfg1 | .cfg2 | .cfg3 | .header =>
    match e with
    | none => copied s
    | some e =>
      let r := (s.cfgOf n).tab 1 e
      let (k, s) := s.startAuth r { i.frame with body := .c37 m }
      match s.endAuth (r.bitsAt 3 0 2) k m.iv m.bytes m.tag with
      | .bad c => (s.freeCells i).discard (some e) c
      | .ok _ => copied s
  | .command | .data =>
    -- a command frame keeps its cells for the ring it may go to (R75)
    { s with ing := { s.ing with parsed := s.ing.parsed ++ [⟨i.port, noEntry, i.ts, n, i.frame, none, i.cells⟩] } }

/-- ING_PARSE (R93 to R95, R97, R101): ING dequeues the oldest frame, checks its transport, chooses the configuration
that reads it and recognises its format. -/
def execIngParse (s : State) : Result :=
  match s.port.inq with
  | [] => .next s
  | i :: rest =>
    let s := { s with port := { s.port with inq := rest } }
    let s := s.bump .ing C.ING_FRAMES (i.entry.getD 0)
    match s.transport i.port i.frame with
    | some c => .next ((s.freeCells i).discard i.entry c)
    | none =>
      let unmatched := s.copyToRing Reg.ING_RING_UNM_EN Reg.ING_RING_UNM_RING 0 i
      let stream (_ : Unit) : State :=
        match s.reader i.ts i.frame with
        | .ok (n, e) =>
          let c := s.cfgOf n
          let s := s.freeCells i
          if c.portAdmits (c.tab 1 e) i.port then s.parse i e n i.frame else s.discard (some e) C.ING_WRONG_PORT
        | .error true => (s.freeCells i).discard i.entry C.ING_WRONG_PORT
        | .error false => unmatched
      match i.frame.body with
      | .c37 m =>
        if m.typ = .data then .next (stream ())
        else .next (s.c37Other i m ((s.cfgOf (s.ingressEpoch i.ts)).cfgEntry i.frame m))
      | .spdu p =>
        let port102 := match i.frame.ip with | some h => !h.tcp && h.dstPort == 102 | none => false
        if !port102 then .next unmatched
        else if p.sessionId = 0xA2 ∨ p.sessionId = 0xA3 then .next (s.copyToRing Reg.ING_RING_HDR_EN Reg.ING_RING_HDR_RING 2 i)
        else if p.sessionId = 0xA0 ∨ p.sessionId = 0xA1 then .next (stream ())
        else .next unmatched
      | .sv _ | .goose _ | .tcp .. => .next (stream ())
      | .ptp _ => .next (if s.cf (Reg.TB_PTP_PORT_ROLE i.port) = 0 then unmatched else s.freeCells i)
      | .raw | .prpSupervision => .next unmatched

/-- The first parsed frame for which `p` holds, and the state without it. -/
def State.takeParsed (s : State) (p : Frame → Bool) : Option (Parsed × State) :=
  match s.ing.parsed.find? (fun x => p x.frame) with
  | none => none
  | some x => some (x, { s with ing := { s.ing with parsed := s.ing.parsed.erase x } })

/-! ### Acceptance and hand-on (R99, R109, R110) -/

/-- The measurement is accepted for entry `e` (R114): its status record, whose last mismatch is over. -/
def State.accept (s : State) (e : Nat) (p : Parsed) (t : Instant) (seq st : Nat) (q : Nat) : State :=
  let x := s.ent e
  s.setEnt e { x with
    last := max x.last t, port := p.port, udp := (match p.frame.ip with | some h => h.srcPort | none => 0)
    seq := seq, st := st, accepted := (x.accepted + 1) % 2 ^ 32, mismatch := false
    flags := x.flags ||| (if bitOf q 7 then 2 else 0) ||| (if bitOf q 9 then 4 else 0) }

/-- A measurement goes to the Stitcher. -/
def State.toStitcher (s : State) (m : Meas) : State :=
  { s with stch := { s.stch with inbox := s.stch.inbox ++ [m] } }

/-- The instant lies more than FUTURE_MS after the time base (R109). -/
def State.tooFar (s : State) (t : Instant) : Bool := decide (s.now + s.cf Reg.ING_CTL_FUTURE_MS * 1000000 < t)

/-- The FACTOR of scale record `i`. -/
def Cfg.factor (c : Cfg) (i : Nat) : BitVec 32 := BitVec.ofNat 32 ((c.tab 2 i).at 0 4)

/-- A phasor of the wire in rectangular form, after FACTOR (R90, R99). -/
def convPhasor (fmt : Nat) (k : BitVec 32) (p : BitVec 32 × BitVec 32) : BitVec 32 × BitVec 32 :=
  let polar := bitOf fmt 0
  if bitOf fmt 1 then
    if polar then polarToRect (fpMul p.1 k) p.2 else (fpMul p.1 k, fpMul p.2 k)
  else if polar then
    polarToRect (fpMul (fpOfInt (p.1.toNat % 2 ^ 16)) k) (fpOfRatio (signed p.2.toNat 16) 10000)
  else (fpMul (fpOfInt (signed p.1.toNat 16)) k, fpMul (fpOfInt (signed p.2.toNat 16)) k)

/-- Frequency and its rate of change as the wire gives them, in Hz and Hz/s (R99). -/
def convFreq (fmt fnom : Nat) (f r : BitVec 32) : BitVec 32 × BitVec 32 :=
  if bitOf fmt 3 then (f, r)
  else (fpOfRatio ((fnom * 1000 : Nat) + signed f.toNat 16) 1000, fpOfRatio (signed r.toNat 16) 100)

/-- An analog value after FACTOR (R99). -/
def convAnalog (fmt : Nat) (k a : BitVec 32) : BitVec 32 :=
  fpMul (if bitOf fmt 2 then a else fpOfInt (signed a.toNat 16)) k

/-- The nominal frequency of a record (R89). -/
def Rec.fnom (r : Rec) : Nat := if r.bitAt 0 4 then 60 else 50

/-- The quality bits that a STAT word sets (R110). -/
def statQuality (st : Nat) : Nat :=
  let err := bits st 14 2
  natOf (err == 1 || err == 3) + 2 * natOf (err == 2) + 4 * natOf (bitOf st 13) + 16 * natOf (bitOf st 9)
    + 32 * natOf (bitOf st 12) + 512 * natOf (bitOf st 10) + 1024 * natOf (bitOf st 11)

/-- The time-quality faults of R109 that a frame's time-quality code and leap flags show. -/
def State.tqFault (s : State) (limit : Nat) (t : Instant) (flags : Nat) : Bool :=
  let occ := match s.leapAt with | some l => decide (l ≤ t) | none => false
  let dir := bitOf (s.tqFlags t) 6
  decide (limit < flags % 16) || (bitOf flags 5 != occ)
    || ((bitOf flags 4 || bitOf flags 5) && bitOf flags 6 != dir)
    || (bitOf flags 4 && s.rd Reg.TB_UTC_LEAP_PEND == 0)

/-- The measurement of a block `b` of a data frame under its entry's record of epoch `n`; its scale records start at `base`. -/
def c37Meas (c : Cfg) (e base n : Nat) (t : Instant) (q : Nat) (b : C37Block) : Meas :=
  let r := c.tab 1 e
  let fmt := r.bitsAt 45 0 4
  let np := r.at 42 1
  let (f, d) := convFreq fmt r.fnom b.freq b.rocof
  { entry := e, epoch := n, instant := t, quality := q ||| statQuality b.stat.toNat, freq := f, rocof := d
    phasors := b.phasors.zipIdx.map (fun (p, i) => convPhasor fmt (c.factor (base + i)) p)
    analogs := b.analogs.zipIdx.map (fun (a, i) => convAnalog fmt (c.factor (base + np + i)) a)
    digitals := b.digitals.map (·.toNat) }

/-- The blocks of an accepted data frame are handed on (R91, R109): quality `q` and the fault are common to them, each block's STAT is
its own.  True where some block shows STAT bit 10 for the first time (R111). -/
def State.c37Blocks (c : Cfg) (p : Parsed) (t : Instant) (q : Nat) (fault : Bool) :
    State → Nat → Nat → List C37Block → Bool × State
  | s, _, _, [] => (false, s)
  | s, e, base, b :: bs =>
    let r := c.tab 1 e
    let st := b.stat.toNat
    let bad := fault || bitOf st 13
    let m := c37Meas c e base p.epoch t (q ||| (if bad then 8 else 0)) b
    let first := bitOf st 10 && !(s.ent e).stat10
    let s := s.accept e p t 0 0 m.quality
    let x := s.ent e
    let s := s.setEnt e { x with stat10 := bitOf st 10, tq := if bad then (x.tq + 1) % 2 ^ 32 else x.tq }
    let s := if bad then s.ingEvent 5 e else s
    let s := if first then s.ingEvent 2 e else s
    let (more, s) := State.c37Blocks c p t q fault (s.toStitcher m) (e + 1) (base + r.at 42 1 + r.at 43 1) bs
    (first || more, s)

/-- The shapes of a frame's blocks are those of the entries from `e` on (R89, R91). -/
def blocksFit (c : Cfg) : Nat → List C37Block → Bool
  | _, [] => true
  | e, b :: bs =>
    let r := c.tab 1 e
    decide (b.phasors.length = r.at 42 1) && decide (b.analogs.length = r.at 43 1)
      && decide (b.digitals.length = r.at 44 1) && blocksFit c (e + 1) bs

/-- C37118_DATA_FRAME (R97 to R100, R107 to R111). -/
def execC37118DataFrame (s : State) : Result :=
  match s.takeParsed (fun f => match f.body with | .c37 m => m.typ == .data | _ => false) with
  | none => .next s
  | some (p, s) =>
    match p.frame.body with
    | .c37 m =>
      let c := s.parseCfg p
      let e := p.entry
      let r := c.tab 1 e
      let alg := r.bitsAt 3 0 2
      if !m.sound then .next (s.discard (some e) C.ING_PARSE_ERR)
      else if m.framesize ≠ r.at 72 2 ∨ m.blocks.length ≠ r.at 46 1 ∨ !blocksFit c e m.blocks then
        .next (s.discardFormat e C.ING_FORMAT_MISMATCH)
      else
        match s.endAuth alg p.key m.iv m.bytes m.tag with
        | .bad k => .next (s.discard (some e) k)
        | .ok q =>
          let raw := s.c37Instant (r.at 60 4) m
          let t := snap (r.at 40 2) raw
          let dist := if t ≤ raw then raw - t else t - raw
          if c.fld Reg.ING_CTL_GRID_TOL_US * 1000 < dist then .next (s.discard (some e) C.ING_OFF_GRID)
          else if s.tooFar t then .next (s.discard (some e) C.ING_FUTURE)
          else
            let (ok, s) := s.fresh e (r.at 40 2) t (alg != 0)
            if !ok then .next s else
            let fault := s.tqFault (r.bitsAt 47 0 4) t m.tqFlags.toNat
            let s := if fault || m.blocks.any (fun b => bitOf b.stat.toNat 13) then s.bump .ing C.ING_TQ_FAULT e else s
            let (first, s) := State.c37Blocks c p t q fault s e (r.bitsAt 48 0 17) m.blocks
            .next (if first then s.autoCfg e else s)
    | _ => .next s

/-! ### GOOSE (R105, R106) -/

/-- Member `k`'s code in GOOSE_LAYOUT. -/
def Rec.gooseCode (r : Rec) (k : Nat) : Nat := bits (r.at 64 8) (2 * k) 2

/-- The quality bits of a 61850 quality: validity in bits [1:0] (1 invalid, 3 questionable), test in bit 11. -/
def quality61850 (q : Nat) : Nat :=
  natOf (q % 4 == 1) + 2 ^ 6 * natOf (q % 4 == 3)

/-- The members from `k` on are packed from bit `n` upward: bits packed, quality bits; none where a member's type
differs from its code. -/
def goosePack (r : Rec) : Nat → Nat → Nat → Nat → List GooseMember → Option (Nat × Nat)
  | _, _, acc, q, [] => some (acc, q)
  | k, n, acc, q, m :: ms =>
    if 32 ≤ k then some (acc, q) else
    match r.gooseCode k, m with
    | 0, _ => goosePack r (k + 1) n acc q ms
    | 1, .boolean b => goosePack r (k + 1) (n + 1) (acc + 2 ^ n * natOf b) q ms
    | 2, .dbpos v => goosePack r (k + 1) (n + 2) (acc + 2 ^ n * v.toNat) q ms
    | 3, .quality v => goosePack r (k + 1) n acc (q ||| quality61850 v.toNat) ms
    | _, _ => none

/-- Members up to the highest one with a code are there. -/
def Rec.gooseEnough (r : Rec) (n : Nat) : Bool := (List.range 32).all (fun k => r.gooseCode k == 0 || decide (k < n))

/-- `a` is greater than `b` modulo 2^32 within half range. -/
def seqGreater (a b : Nat) : Bool := let d := (a + 2 ^ 32 - b % 2 ^ 32) % 2 ^ 32; decide (0 < d ∧ d < 2 ^ 31)

/-- A GOOSE PDU of entry `e`, with quality `q` from its authentication (R105, R106, R109). -/
def State.goose (s : State) (c : Cfg) (p : Parsed) (g : GoosePdu) (q : Nat) : State :=
  let e := p.entry
  let r := c.tab 1 e
  if r.at 32 4 ≠ 0 ∧ crc32 g.gocbRef ≠ r.at 32 4 then s.discard (some e) C.ING_NAME_MISMATCH
  else if r.at 56 4 ≠ 0 ∧ g.confRev.toNat ≠ r.at 56 4 then s.discardFormat e C.ING_CONFREV
  else if !r.gooseEnough g.members.length then s.discardFormat e C.ING_FORMAT_MISMATCH
  else match goosePack r 0 0 0 0 g.members, g.t with
    | none, _ => s.discardFormat e C.ING_FORMAT_MISMATCH
    | some _, none => s.discard (some e) C.ING_PARSE_ERR
    | some (packed, q2), some utc =>
      let t := (s.ofUtc utc).headD 0
      if s.tooFar t then s.discard (some e) C.ING_FUTURE else
      let x := s.ent e
      let st := g.stNum.toNat
      let sq := g.sqNum.toNat
      -- none: duplicate; some true: new state; some false: retransmission
      let kind : Option Bool := match x.goose with
        | none => some true
        | some l =>
          if l.expiry.isNone || seqGreater st l.stNum then some true
          else if st = l.stNum ∧ l.sqNum < sq then some false else none
      match kind with
      | none => s.discard (some e) C.ING_DUP
      | some new =>
        let q := q ||| q2 ||| natOf g.ndsCom ||| (if g.simulated then 2 else 0)
        let m : Meas := { entry := e, epoch := p.epoch, instant := t, quality := q, freq := 0, rocof := 0, phasors := [], analogs := []
                          digitals := (List.range (r.at 44 1)).map (fun i => bits packed (16 * i) 16) }
        let s := s.accept e p t sq st q
        let y := s.ent e
        let s := s.setEnt e { y with
          flags := y.flags / 2 * 2
          goose := some ⟨st, sq, some (p.ts + g.talMs * 1000000), if new then m else (x.goose.map (·.meas)).getD m⟩ }
        if new then s.toStitcher m else s

/-- GOOSE_FRAME (R105, R106). -/
def execGooseFrame (s : State) : Result :=
  match s.takeParsed (fun f => match f.body with | .goose _ => true | _ => false) with
  | none => .next s
  | some (p, s) =>
    match p.frame.body with
    | .goose g => .next (s.goose (s.parseCfg p) p g (2 ^ 8))
    | _ => .next s

/-- GOOSE_TTL_EXPIRY (R106): timeAllowedToLive of entry's last frame has passed: the last values are handed on with
INVALID, TTL_EXPIRED is set and event 68 raised. -/
def execGooseTtlExpiry (entry : Fin 8192) (s : State) : Result :=
  let e := entry.val
  let x := s.ent e
  match x.goose with
  | some ⟨st, sq, some exp, m⟩ =>
    when (decide (exp ≤ s.now)) s
      (let s := s.setEnt e { x with goose := some ⟨st, sq, none, m⟩, flags := x.flags ||| 1 }
       (s.toStitcher { m with instant := exp, quality := m.quality ||| 1 }).ingEvent 4 e)
  | _ => .next s

/-! ### IEC 61850-90-5 (R101, R102) -/

/-- The measurement of a 90-5 sampled-value dataset under epoch `n` (R102). -/
def spduMeas (c : Cfg) (e n : Nat) (t : Instant) (q : Nat) (d : SpduData) : Meas :=
  let r := c.tab 1 e
  let base := r.bitsAt 48 0 17
  let np := r.at 42 1
  { entry := e, epoch := n, instant := t, quality := q, freq := d.freq, rocof := d.rocof
    phasors := d.phasors.zipIdx.map (fun (p, i) => polarDegToRect (fpMul p.1 (c.factor (base + i))) p.2)
    analogs := d.analogs.zipIdx.map (fun (a, i) => fpMul a (c.factor (base + np + i)))
    digitals := d.digitals.map (·.toNat) }

/-- The sampled-value APDU of an SPDU, authenticated, with quality `q` (R102, R109): the quality of a measurement is that of all its
members. -/
def State.spduSv (s : State) (c : Cfg) (p : Parsed) (num : Nat) (refrTm : Option Nat) (flags : Nat) (datSet : List Byte)
    (confRev : Nat) (simulated : Bool) (data : Option SpduData) (q : Nat) : State :=
  let e := p.entry
  let r := c.tab 1 e
  let rate := r.at 40 2
  if r.at 32 4 ≠ 0 ∧ crc32 datSet ≠ r.at 32 4 then s.discard (some e) C.ING_NAME_MISMATCH
  else if r.at 56 4 ≠ 0 ∧ confRev ≠ r.at 56 4 then s.discardFormat e C.ING_CONFREV
  else match data, refrTm with
    | none, _ => s.discardFormat e C.ING_FORMAT_MISMATCH
    | some _, none => s.discard (some e) C.ING_PARSE_ERR
    | some d, some utc =>
      if d.phasors.length ≠ r.at 42 1 ∨ d.analogs.length ≠ r.at 43 1 ∨ d.digitals.length ≠ r.at 44 1
          ∨ d.quals.length ≠ r.at 42 1 + 2 + r.at 43 1 + r.at 44 1 then
        s.discardFormat e C.ING_FORMAT_MISMATCH
      else
        let raw := (s.ofUtc utc).headD 0
        let t := snap rate raw
        let dist := if t ≤ raw then raw - t else t - raw
        if c.fld Reg.ING_CTL_GRID_TOL_US * 1000 < dist then s.discard (some e) C.ING_OFF_GRID
        else if s.tooFar t then s.discard (some e) C.ING_FUTURE
        else
          let (ok, s) := s.fresh e rate t (r.bitsAt 3 0 2 != 0)
          if !ok then s else
          let fault := s.tqFault 15 t (flags / 16 * 16)
          let q := d.quals.foldl (fun q v => q ||| quality61850 v.toNat ||| (if bitOf v.toNat 11 then 2 else 0)) q
          let q := q ||| (if simulated then 2 else 0) ||| (if fault then 8 else 0)
          let s := s.accept e p t num 0 q
          let s := if fault then
              State.ingEvent ((s.bump .ing C.ING_TQ_FAULT e).setEnt e { s.ent e with tq := ((s.ent e).tq + 1) % 2 ^ 32 }) 5 e
            else s
          s.toStitcher (spduMeas c e p.epoch t q d)

/-- IEC_90_5_SPDU (R101, R102, R107, R108). -/
def execIec905Spdu (s : State) : Result :=
  match s.takeParsed (fun f => match f.body with | .spdu _ => true | _ => false) with
  | none => .next s
  | some (p, s) =>
    match p.frame.body with
    | .spdu m =>
      let c := s.parseCfg p
      let e := p.entry
      let alg := (c.tab 1 e).bitsAt 3 0 2
      if m.nApdus ≠ 1 then .next (s.discard (some e) C.ING_PARSE_ERR)
      else if m.encrypted then .next (s.discard (some e) C.ING_ENCRYPTED)
      else if m.sigAlg ≠ alg then .next (s.discard (some e) C.ING_AUTH_FAIL)
      else match s.endAuth alg p.key [] m.bytes m.tag with
        | .bad k => .next (s.discard (some e) k)
        | .ok q =>
          let slot := (p.key.map (·.slot)).getD 0
          let (ok, w) := if alg = 0 then (true, none) else spduMark (kvGet? s.ing.spdu slot) m.spduNumber
          if !ok then .next (s.discard (some e) C.ING_REPLAY) else
          let s := match w with
            | some v => { s with ing := { s.ing with spdu := kvSet s.ing.spdu slot v } }
            | none => s
          match m.sessionId == 0xA1, m.apdu with
          | true, .sv t fl ds cr sim d => .next (s.spduSv c p m.spduNumber t fl.toNat ds cr.toNat sim d q)
          | false, .goose g => .next (s.goose c p g q)
          | _, _ => .next (s.discardFormat e C.ING_FORMAT_MISMATCH)
    | _ => .next s

/-! ### Sampled values (R103, R104) -/

/-- The quality bits that smpSynch sets (R104, R110). -/
def synchQuality (v : Nat) : Nat := if v = 2 then 0 else if v = 0 then 2 ^ 2 + 2 ^ 3 else 2 ^ 3

/-- One ASDU of a sampled-value frame (R93, R104, R108, R109): a sample for PHE and for raw history, scaled under the
epoch of its own instant (R122).  True where it is accepted. -/
def State.asdu (s : State) (c : Cfg) (p : Parsed) (sim : Bool) (a : SvAsdu) : Bool × State :=
  let e := p.entry
  let rate := (c.tab 1 e).at 40 2
  if rate ≤ a.smpCnt then (false, s.discard (some e) C.ING_PARSE_ERR) else
  let t := svInstant rate a.smpCnt p.ts
  if s.tooFar t then (false, s.discard (some e) C.ING_FUTURE) else
  let (ok, s) := s.fresh e rate t false
  if !ok then (false, s) else
  let d := s.cfgAt t
  match d.classify p.frame with
  | none => (false, s.discard (some e) C.ING_WRONG_PORT)
  | some f =>
    let r := d.tab 1 f
    let base := r.bitsAt 48 0 17
    let q := 2 ^ 8 ||| synchQuality a.smpSynch ||| (if sim then 2 else 0)
    let ks := a.values.zipIdx.map (fun (_, i) => d.factor (base + i))
    let smp : PheSmp := ⟨r.at 52 2, t / nsPerS * rate + a.smpCnt, t,
      (a.values.zip ks).map (fun (v, k) => fpMul (fpOfInt (signed v.1.toNat 32)) k), ks, a.values.map (·.2), q⟩
    let x := s.ent e
    let s := s.setEnt e { x with last := max x.last t, port := p.port, seq := a.smpCnt }
    let s := s.pruneRaw
    (true, { s with
      phe := { s.phe with inbox := s.phe.inbox ++ [smp] }
      rawSv := s.rawSv ++ [⟨f, t, a.smpCnt, a.values, q⟩] })

/-- SV_FRAME (R93, R103, R104). -/
def execSvFrame (s : State) : Result :=
  match s.takeParsed (fun f => match f.body with | .sv _ => true | _ => false) with
  | none => .next s
  | some (p, s) =>
    match p.frame.body with
    | .sv v =>
      let c := s.parseCfg p
      let e := p.entry
      let r := c.tab 1 e
      if v.noAsdu ≠ r.bitsAt 45 0 4 ∨ v.asdus.length ≠ v.noAsdu ∨ v.asdus.any (fun a => a.values.length ≠ r.at 54 1) then
        .next (s.discardFormat e C.ING_FORMAT_MISMATCH)
      else if r.at 32 4 ≠ 0 ∧ crc32 v.svId ≠ r.at 32 4 then .next (s.discard (some e) C.ING_NAME_MISMATCH)
      else if r.at 56 4 ≠ 0 ∧ v.confRev.toNat ≠ r.at 56 4 then .next (s.discardFormat e C.ING_CONFREV)
      else
        let s := s.setEnt e { s.ent e with mismatch := false }
        let (some_, s) := v.asdus.foldl (fun (x : Bool × State) a =>
          let (ok, s) := x.2.asdu c p v.simulated a
          (x.1 || ok, s)) (false, s)
        .next (if some_ then s.setEnt e { s.ent e with accepted := ((s.ent e).accepted + 1) % 2 ^ 32 } else s)
    | _ => .next s

/-! ### TCP connections (R96) -/

/-- Firmware opens entry `e`'s connection. -/
def State.openConn (s : State) (e : Nat) : State :=
  (s.setConn e { s.conn e with st := 1, buf := [], own := 0, unacked := [] }).sendTcp e 0 0

/-- TCP_ESTABLISHED (R96): the connection opened by firmware is established, with the peer's next sequence number;
firmware sends 0x0005 when AUTOCFG is 1, then 0x0002. -/
def execTcpEstablished (entry : Fin 8192) (next : BitVec 32) (s : State) : Result :=
  let e := entry.val
  when ((s.conn e).st == 1) s
    (let s := s.setConn e { s.conn e with st := 2, next := next.toNat, retryAt := 0, wait := 0, unacked := [] }
     let s := if (s.act.tab 1 e).bitAt 0 6 then s.sendTcp e 2 5 else s
     s.sendTcp e 2 2)

/-- TCP_CONNECTION_LOSS (R96): the retry comes after 1 s, the wait doubling up to 32 s. -/
def execTcpConnectionLoss (entry : Fin 8192) (s : State) : Result :=
  let e := entry.val
  let c := s.conn e
  let w := if c.wait = 0 then 1 else min 32 (2 * c.wait)
  when (c.st == 1 || c.st == 2) s (s.setConn e { c with st := 3, wait := w, retryAt := s.now + w * nsPerS })

/-- TCP_RETRY (R96). -/
def execTcpRetry (entry : Fin 8192) (s : State) : Result :=
  let e := entry.val
  let c := s.conn e
  when (c.st == 3 && decide (c.retryAt ≤ s.now)) s (s.openConn e)

/-- The frames that lie complete at the front of a byte stream, and the rest (R96): each has FRAMESIZE bytes, and `extra` more of a
trailer; a FRAMESIZE below that of the smallest frame ends the framing, and the bytes are dropped. -/
def tcpFrames (extra : Nat) : Nat → List Byte → List (List Byte) × List Byte
  | 0, l => ([], l)
  | n + 1, l =>
    let size := beNat ((l.drop 2).take 2)
    if l.length < 4 then ([], l)
    else if size < 16 then ([], [])
    else if l.length < size + extra then ([], l)
    else
      let (fs, rest) := tcpFrames extra n (l.drop (size + extra))
      (l.take (size + extra) :: fs, rest)

/-- A frame cut from a connection of entry `e` goes on as a received one (R96): in its decoded form, with its trailer read from the
bytes; without one it is a parse error. -/
def State.tcpFrame (s : State) (p : Parsed) (frames : List C37) (bytes : List Byte) : State :=
  let size := beNat ((bytes.drop 2).take 2)
  let tail := bytes.drop size
  match frames.find? (fun m => m.bytes == bytes.take size) with
  | none => s.discard (some p.entry) C.ING_PARSE_ERR
  | some m =>
    let m := { m with trailer := if tail.isEmpty then none else some (BitVec.ofNat 8 (leNat (tail.take 1)), leNat (tail.drop 1)) }
    let i : InFrame := ⟨p.port, some p.entry, p.ts, 0, { p.frame with body := .c37 m, bytes }⟩
    if m.typ != .data then s.c37Other i m (some p.entry) else
    match s.tcpReader p.epoch p.entry p.frame m with
    | some (n, e) => s.parse i e n i.frame
    | none => s.discard (some p.entry) C.ING_WRONG_PORT

/-- TCP_SEGMENT (R96): an in-order segment's payload is framed, each frame going on as a received one; a segment out of
order is counted in TCP_OOO.  Firmware acknowledges either way. -/
def execTcpSegment (s : State) : Result :=
  match s.takeParsed (fun f => match f.body with | .tcp .. => true | _ => false) with
  | none => .next s
  | some (p, s) =>
    match p.frame.body with
    | .tcp seq ack payload frames =>
      let e := p.entry
      let c := (s.conn e).acked ack.toNat
      if c.st ≠ 2 then .next s
      else if seq.toNat ≠ c.next then .next (State.sendTcp ((s.setConn e c).bump .ing C.ING_TCP_OOO e) e 1 0)
      else
        let extra := if (s.act.tab 1 e).bitsAt 3 0 2 = 0 then 0 else 17
        let bytes := c.buf ++ payload
        let (fs, buf) := tcpFrames extra bytes.length bytes
        let s := s.setConn e { c with next := (c.next + payload.length) % 2 ^ 32, buf }
        .next ((fs.foldl (fun s b => s.tcpFrame p frames b) s).sendTcp e 1 0)
    | _ => .next s

/-! ### Configuration frames (R112) -/

/-- `r` with `size` bytes at `off` replaced. -/
def Rec.put (r : Rec) (off size v : Nat) : Rec := { r with val := setBits r.val (8 * off) (8 * size) v }

/-- What a block of a configuration frame makes of its entry's record (R89, R112). -/
def cfgRecord (old : Rec) (k : Nat) (info : CfgInfo) (b : CfgBlock) (frameLen : Nat) (confRev : Option Nat) : Rec :=
  let r := old.put 42 1 b.nphasor
  let r := ((r.put 43 1 b.nanalog).put 44 1 b.ndigital).put 45 1 b.format.toNat
  let r := { r with val := setBits r.val 4 1 (natOf info.fnom60) }
  let r := (r.put 6 2 b.idcode.toNat).put 60 4 info.timeBase
  let r := r.put 40 2 info.rate
  if k = 0 then
    let r := (r.put 46 1 info.blocks.length).put 72 2 frameLen
    match confRev with | some v => r.put 56 4 v | none => r
  else r

/-- Bytes of a block in a data frame (R92). -/
def blockBytes (b : CfgBlock) : Nat :=
  let f := b.format.toNat
  2 + b.nphasor * (if bitOf f 1 then 8 else 4) + (if bitOf f 3 then 8 else 4) + b.nanalog * (if bitOf f 2 then 4 else 2)
    + 2 * b.ndigital

/-- The shadow as a configuration frame of entry `e` makes it. -/
def cfgStaged (shd : Cfg) (e : Nat) (info : CfgInfo) (cfg3 : Bool) : Cfg :=
  let head := shd.tab 1 e
  let len := 16 + (info.blocks.map blockBytes).sum
  let c := info.blocks.zipIdx.foldl (fun c (b, k) =>
    c.setTab 1 (e + k) (cfgRecord (c.tab 1 (e + k)) k info b len (if cfg3 then some info.cfgcnt else none))) shd
  let scales := (info.blocks.map (·.scales)).flatten
  scales.zipIdx.foldl (fun c (sc, i) =>
    c.setTab 2 (head.bitsAt 48 0 17 + i) ⟨1, sc.1.toNat + 2 ^ 32 * (sc.2 % 256)⟩) c

/-- A configuration frame's result is within the entry's reservation and R10. -/
def cfgWithin (head : Rec) (info : CfgInfo) : Bool :=
  decide (info.blocks.length ≤ head.at 55 1) && decide (1 ≤ info.blocks.length)
    && decide (((info.blocks.map (·.scales)).flatten).length ≤ head.at 74 2)
    && info.blocks.all (fun b => decide (b.nphasor ≤ 32) && decide (b.nanalog ≤ 8) && decide (b.ndigital ≤ 4))
    && decide (1 ≤ info.rate) && decide (info.rate ≤ 240)

/-- Records `first` to `first + n - 1` of the stream table (code 1) or scale table (code 2) that firmware wrote to an Active's
shadow go to the Belay's too (R38). -/
def State.forwardRecords (s : State) (code first n : Nat) : State :=
  if !s.forwards || n == 0 then s else
  s.toPeer 3 (.tableForward none (firmwareImage (if code = 1 then 0x4D525453 else 0x4C414353) (if code = 1 then 128 else 8) first
    ((List.range n).map (fun k => (s.shd.tab code (first + k)).val))))

/-- Firmware compares a configuration frame's content with the shadow and records the outcome (R112); `again` marks the
one retry after an unseal. -/
def State.stageCfg (s : State) (e : Nat) (info : CfgInfo) (cfg3 again : Bool) : State :=
  let done (s : State) (r : Nat) := (s.wr Reg.ING_CFG_STAT_ENTRY e).wr Reg.ING_CFG_STAT_RESULT r
  if s.belay then done s 5
  else if s.glb.sealed then
    if again then done s 4
    else done { s with ing := { s.ing with stage := s.ing.stage ++ [(e, info, cfg3)] } } 4
  else
    let new := cfgStaged s.shd e info cfg3
    if new = s.shd then done s 1
    else if cfgWithin (s.shd.tab 1 e) info then
      let s := State.forwardRecords { s with shd := new } 1 e info.blocks.length
      let s := s.forwardRecords 2 ((new.tab 1 e).bitsAt 48 0 17) (info.blocks.map (·.scales)).flatten.length
      (done s 2).ingEvent 3 e
    else (done s 3).ingEvent 2 e

/-- The shadow unseals: results that waited are tried once more (R112). -/
def State.unseal (s : State) : State :=
  let waiting := s.ing.stage
  let s := { s with glb := { s.glb with sealed := false }, ing := { s.ing with stage := [] } }
  waiting.foldl (fun s w => s.stageCfg w.1 w.2.1 w.2.2 true) s

/-- CFG_FRAME (R97, R112): the frame is already on its way to the configuration ring; with FW_STAGE 1 and AUTOCFG 1,
firmware reads a CFG-2 or CFG-3 frame of an entry. -/
def execCfgFrame (s : State) : Result :=
  match s.takeParsed (fun f => match f.body with | .c37 m => m.typ == .cfg1 || m.typ == .cfg2 || m.typ == .cfg3 | _ => false) with
  | none => .next s
  | some (p, s) =>
    match p.frame.body with
    | .c37 m =>
      let auto := (s.act.tab 1 p.entry).bitAt 0 6
      match m.cfg with
      | some info =>
        if m.chkOk && m.typ != .cfg1 && s.cfOn Reg.ING_CTL_FW_STAGE && decide (p.entry < noEntry) && auto then
          .next (s.stageCfg p.entry info (m.typ == .cfg3) false)
        else .next s
      | none => .next s
    | _ => .next s

end Sys2Proof.Machine
end

