-- ==== Sys2Proof/Machine/Phe.lean ====
section
/-!
DEFINITION. Phasor estimation from sampled values (spec/06): windows, starts, outputs and their quality.
-/
namespace Sys2Proof.Machine
open Sys2Proof

/-! ### What feeds a SAFETY rule (R483) -/

/-- Rule record fields (R206). -/
def Rec.ruleOn (r : Rec) : Bool := r.bitAt 1 7
def Rec.ruleSafety (r : Rec) : Bool := r.bitAt 1 6
def Rec.ruleKind (r : Rec) : Nat := r.at 0 1

/-- Some enabled SAFETY rule takes stream-table entry `e` as an input (R483). -/
def Cfg.safetyFed (c : Cfg) (e : Nat) : Bool :=
  let signal := (c.listed 13).any (fun x => x.2.bitAt 3 7 && x.2.at 0 2 == e)
  let device := (c.listed 7).any (fun x => x.2.bitAt 7 7 && decide (2 ≤ x.2.bitsAt 7 0 3) && x.2.at 4 2 == e)
  (c.listed 12).any (fun x =>
    let r := x.2
    r.ruleOn && r.ruleSafety &&
      ((decide (r.ruleKind ≤ 3) && (r.at 4 2 == e || (r.ruleKind == 1 && r.at 8 2 == e)))
        || ((r.ruleKind == 5 || r.ruleKind == 6) && signal) || ((r.ruleKind == 4 || r.ruleKind == 6) && device)))

/-! ### Channel records (R116) -/

/-- A channel record is enabled. -/
def Rec.pheOn (r : Rec) : Bool := r.bitAt 0 7

/-- The SV channels of group `g`. -/
def Rec.pheGroup (r : Rec) (g : Nat) : List Nat := [r.at (16 + 3 * g) 1, r.at (17 + 3 * g) 1, r.at (18 + 3 * g) 1]

/-- The SV channels that a record uses (R116), rising. -/
def Rec.pheUsed (r : Rec) : List Nat :=
  let groups := ((List.range (min 8 (r.at 1 1))).map r.pheGroup).flatten
  let phs := (List.range (min 32 (r.at 8 1))).filterMap (fun k => if r.bitsAt (40 + k) 6 2 = 0 then some (r.bitsAt (40 + k) 0 5) else none)
  let f := if r.bitAt 2 7 then [r.bitsAt 2 0 5] else []
  filterBelow 24 (fun c => (groups ++ phs ++ f).contains c)

/-- The window length L (R118). -/
def windowLength (mClass : Bool) (rate fnom fs : Nat) : Nat :=
  let c := if mClass then max 3 ((4 * fnom + fs - 1) / fs) else 2
  (2 * c * rate + fnom) / (2 * fnom)

/-- First sample position of the window of instant `t`: the run of `len` samples whose mean lies nearest to `t`, the
earlier of two equally near (R118). -/
def windowStart (rate len : Nat) (t : Instant) : Int :=
  -(((len * nsPerS : Nat) - (2 * t * rate : Nat) : Int) / (2 * nsPerS : Nat))

/-- Rate, length and first position of channel `ch`'s window of `t`, under the configuration of `t`. -/
def State.pheWindow (s : State) (ch : Nat) (t : Instant) : Nat × Nat × Int :=
  let c := s.cfgAt t
  let r := c.tab 3 ch
  let e := c.tab 1 (r.at 6 2)
  let len := windowLength (r.bitAt 0 6) (e.at 40 2) e.fnom c.fs
  (e.at 40 2, len, windowStart (e.at 40 2) len t)

/-! ### Channels -/

/-- A channel that has done nothing. -/
def PheChan.init : PheChan :=
  { samples := [], next := none, done := [], runs := [], last := 0, freq := 0, rocof := 0, outputs := 0, bridged := 0,
    noOutput := 0, lateSmp := 0, mismatch := 0, flags := 0 }

/-- Channel `ch`. -/
def State.pheChan (s : State) (ch : Nat) : PheChan := kvGetD s.phe.chans ch PheChan.init

/-- `s` with channel `ch` replaced, EMITTING kept in step (R131). -/
def State.setPheChan (s : State) (ch : Nat) (x : PheChan) : State :=
  let s := { s with phe := { s.phe with chans := kvPut s.phe.chans ch x PheChan.init } }
  s.wr Reg.PHE_STAT_EMITTING (s.phe.chans.filter (fun e => bitOf e.2.flags 0)).length

/-- PHE raises source `124 + k` for a channel (R130). -/
def State.pheEvent (s : State) (k ch : Nat) : State := s.raise (124 + k) [(Reg.PHE_EVT_CHAN_CHAN k, ch)]

/-- The earliest instant not yet started moves over started ones. -/
def State.skipDone (s : State) (done : List Instant) : Nat → Instant → Instant
  | 0, t => t
  | n + 1, t => if done.contains t then s.skipDone done n (s.nextSlice t) else t

/-- The computation of output instant `t` starts with the samples held (R123). -/
def State.pheStart (s : State) (ch : Nat) (t : Instant) : State :=
  let x := s.pheChan ch
  let (_, len, a) := s.pheWindow ch t
  let smp := x.samples.filter (fun p => decide (a ≤ (p.pos : Int)) && decide ((p.pos : Int) < a + len))
  let done := t :: x.done.filter (fun u => decide (s.now ≤ u + 2 * nsPerS))
  s.setPheChan ch { x with
    runs := x.runs ++ [⟨t, s.now, smp⟩], done := done, next := x.next.map (s.skipDone done 1024) }

/-- The slice instants from `t` on whose window starts at or before position `p`. -/
def State.pheCandidates (s : State) (ch p : Nat) : Nat → Instant → List Instant
  | 0, _ => []
  | n + 1, t => if (s.pheWindow ch t).2.2 ≤ (p : Int) then t :: s.pheCandidates ch p n (s.nextSlice t) else []

/-- Every sample of the window of `t` has arrived. -/
def State.pheComplete (s : State) (ch : Nat) (t : Instant) : Bool :=
  let (_, len, a) := s.pheWindow ch t
  let ps := (s.pheChan ch).samples.map (fun p => (p.pos : Int))
  (List.range len).all (fun m => ps.contains (a + m))

/-- The channel computes output instant `t`: it is enabled in the configuration of `t`, with slices produced. -/
def State.pheActive (s : State) (ch : Nat) (t : Instant) : Bool :=
  let c := s.cfgAt t
  (c.tab 3 ch).pheOn && c.fld Reg.STCH_CTL_EN == 1

/-- PHE_SAMPLE (R122 to R124): a sample is held; one of a window already started counts once in LATE_SMP; a window that
it completes starts. -/
def execPheSample (s : State) : Result :=
  match s.phe.inbox with
  | [] => .next s
  | p :: rest =>
    let ch := p.chan
    let s := { s with phe := { s.phe with inbox := rest } }
    if 1024 ≤ ch then .next s else
    let s := s.bump .phe C.PHE_SAMPLES ch
    let x := s.pheChan ch
    let late := x.done.any (fun t =>
      let (_, len, a) := s.pheWindow ch t
      decide (a ≤ (p.pos : Int)) && decide ((p.pos : Int) < a + len))
    let s := if late then s.bump .phe C.PHE_LATE_SMP ch else s
    let s := s.setPheChan ch { x with
      samples := x.samples.filter (fun q => decide (s.now ≤ q.instant + nsPerS)) ++ [p]
      lateSmp := if late then (x.lateSmp + 1) % 2 ^ 32 else x.lateSmp }
    match x.next with
    | none => .next s
    | some t0 =>
      let ts := (s.pheCandidates ch p.pos 1024 t0).filter (fun t => !x.done.contains t && s.pheActive ch t)
      .next (ts.foldl (fun s t => if s.pheComplete ch t then s.pheStart ch t else s) s)

/-- PHE_WAIT_EXPIRY (R123): WAIT_US after the last sample instant of the channel's earliest window not started. -/
def execPheWaitExpiry (ch : Fin 1024) (s : State) : Result :=
  let c := ch.val
  match (s.pheChan c).next with
  | none => .next s
  | some t =>
    if !s.pheActive c t then
      -- the channel computes no output at this instant
      .next (s.setPheChan c { s.pheChan c with next := if (s.act.tab 3 c).pheOn then some (s.nextSlice t) else none })
    else
      let (rate, len, a) := s.pheWindow c t
      let last := (a + len - 1).toNat
      let due := (2 * last * nsPerS + rate) / (2 * rate) + s.cf Reg.PHE_CTL_WAIT_US * 1000
      when (decide (due ≤ s.now)) s (s.pheStart c t)

/-! ### Outputs (R119 to R125, R128) -/

/-- The value of sample `p` for SV channel `c` in a window computed with FACTOR `k`: none when it counts as missing
(R122, R124). -/
def PheSmp.value (p : PheSmp) (k : BitVec 32) (c : Nat) : Option (BitVec 32 × BitVec 32) :=
  match p.values[c]?, p.factors[c]?, p.quals[c]? with
  | some v, some f, some q =>
    if q.toNat % 4 = 1 ∨ (f ≠ k ∧ f.toNat % 2 ^ 31 = 0) then none else some (v, f)
  | _, _, _ => none

/-- Longest run of `true` in a list. -/
def longestRun (l : List Bool) : Nat :=
  (l.foldl (fun (p : Nat × Nat) b => if b then (p.1 + 1, max p.2 (p.1 + 1)) else (0, p.2)) (0, 0)).2

/-- What one used SV channel brings to a window: its samples for the estimator, missing samples and longest run of them. -/
def pheChannel (k : BitVec 32) (len : Nat) (a : Int) (smp : List PheSmp) (c : Nat) :
    List (Nat × Instant × BitVec 32 × BitVec 32 × BitVec 32) × Nat × Nat :=
  let at_ (m : Nat) : Option (Nat × Instant × BitVec 32 × BitVec 32 × BitVec 32) :=
    match smp.find? (fun p => decide ((p.pos : Int) = a + m)) with
    | some p => (p.value k c).map (fun v => (m, p.instant, v.1, v.2, k))
    | none => none
  let xs := (List.range len).map at_
  (xs.filterMap id, (xs.filter Option.isNone).length, longestRun (xs.map Option.isNone))

/-! ### The estimator (R118 to R122) -/

/-- What the estimator gives (R119): frequency, rate of change of frequency and phasors. -/
structure PheResult where
  freq : Rat
  rocof : Rat
  phasors : List (BitVec 32 × BitVec 32)
  deriving DecidableEq, Repr

/-- The weight of position `m` in a window of `len` (R118): the triangle of P class, the 4-term Blackman–Harris weighting of M class. -/
def pheWeight (mClass : Bool) (len m : Nat) : Rat :=
  if mClass then
    let c (k : Nat) : Rat := (cosSin ((k * m : Nat) / ((len : Rat) - 1))).1
    35875 / 100000 - 48829 / 100000 * c 1 + 14128 / 100000 * c 2 - 1168 / 100000 * c 3
  else 1 - |(m : Rat) - ((len : Rat) - 1) / 2| / ((len : Rat) / 2)

/-- A sample as the fit takes it: its weight, its corrected instant s in seconds from the second of the output, and its value. -/
structure PhePoint where
  w : Rat
  s : Rat
  y : Rat
  deriving DecidableEq, Repr

/-- The points of SV channel `c` of a window of `t` (R119, R121, R122): none where a value is no finite number.  `gain` and `delay` are
GAIN_PPM and DELAY_NS; a sample holds its position, instant, value, and the FACTORs of its scaling and of the epoch of the output. -/
def phePoints (mClass : Bool) (len : Nat) (t : Instant) (gain delay : Int)
    (xs : List (Nat × Instant × BitVec 32 × BitVec 32 × BitVec 32)) : Option (List PhePoint) :=
  let from_ := t / nsPerS * nsPerS
  xs.mapM (fun x =>
    match ratOfFp x.2.2.1, ratOfFp x.2.2.2.1, ratOfFp x.2.2.2.2 with
    | some v, some f, some k =>
      let y := if x.2.2.2.1 = x.2.2.2.2 then v else v * k / f
      some ⟨pheWeight mClass len x.1, ((x.2.1 : Rat) - from_ - delay) / nsPerS, y * (1 + gain / 1000000)⟩
    | _, _, _ => none)

/-- The weighted least-squares fit of R119 about an instant `t` (seconds) at frequency `f1`: a0, a1 and a2. -/
def pheFit (f1 t : Rat) (pts : List PhePoint) : Option (List Cx) :=
  let rows := pts.map (fun p =>
    let (c, s) := cosSin (f1 * p.s)
    let d := p.s - t
    (p.w, p.y, [c, -s, d * c, -(d * s), d * d * c, -(d * d * s)]))
  match leastSquares 6 rows with
  | some [x0, x1, x2, x3, x4, x5] =>
    let r := ratSqrt (1 / 2)
    some [(Cx.scale r ⟨x0, x1⟩).cut, (Cx.scale r ⟨x2, x3⟩).cut, (Cx.scale r ⟨x4, x5⟩).cut]
  | _ => none

/-- Combination `kind` of a group's phases (R120): 1 positive, 2 negative, 3 zero sequence. -/
def sequenceOf (kind : Nat) (a b c : Cx) : Cx :=
  let k (n : Nat) : Cx := Cx.turn ((n : Rat) / 3)
  let w := match kind with | 1 => (k 1, k 2) | 2 => (k 2, k 1) | _ => (k 0, k 0)
  Cx.scale (1 / 3) (a.add ((w.1.mul b).add (w.2.mul c)))

/-- What a PHDEF byte, or FREQ_SRC as one, names among the values of the SV channels: kind 0 a channel, else a group's sequence. -/
def pheTake (r : Rec) (vals : Nat → Option Cx) (kind n : Nat) : Option Cx :=
  if kind = 0 then vals n else
  match (r.pheGroup n).map vals with
  | [some a, some b, some c] => some (sequenceOf kind a b c)
  | _ => none

/-- FREQ_SRC's kind and number. -/
def Rec.freqSrc (r : Rec) : Nat × Nat := (if r.bitAt 2 7 then 0 else 1, r.bitsAt 2 0 5)

/-- The two passes of R119 over the points of the SV channels: a0, a1 and a2 of every channel from the second pass, those of the
FREQ_SRC signal, and f1 after it; none where a0 of that signal is 0 or not formed in either pass (R120). -/
def phePasses (r : Rec) (t : Rat) (pts : List (Nat × Option (List PhePoint))) :
    Nat → Rat → Option (KV (List Cx) × List Cx × Rat)
  | 0, _ => none
  | n + 1, f1 =>
    let fits : KV (List Cx) := pts.filterMap (fun p => (p.2.bind (pheFit f1 t)).map (fun a => (p.1, a)))
    let part (i c : Nat) : Option Cx := (kvGet? fits c).bind (·[i]?)
    match [0, 1, 2].mapM (fun i => pheTake r (part i) r.freqSrc.1 r.freqSrc.2) with
    | some [a0, a1, a2] =>
      if a0.sq = 0 then none else
      let f1 := cut (f1 + (a1.div a0).im / (2 * pi))
      if n = 0 then some (fits, [a0, a1, a2], f1) else phePasses r t pts n f1
    | _ => none

/-- The estimate of an output instant (R119, R120): frequency, rate of change of frequency, and the phasors in the order of PHDEF. -/
def pheEstimate (r : Rec) (fnom : Nat) (t : Instant) (pts : List (Nat × Option (List PhePoint))) : Option PheResult :=
  let ts : Rat := ((t % nsPerS : Nat) : Rat) / nsPerS
  match phePasses r ts pts 2 fnom with
  | some (fits, [a0, a1, a2], f1) =>
    let u := a1.div a0
    let rocof := ((Cx.scale 2 (a2.div a0)).sub (u.mul u)).im / (2 * pi)
    let turn := Cx.turn ((f1 - fnom) * ts)
    let phasor (k : Nat) : BitVec 32 × BitVec 32 :=
      match pheTake r (fun c => (kvGet? fits c).bind (·[0]?)) (r.bitsAt (40 + k) 6 2) (r.bitsAt (40 + k) 0 5) with
      | some p => (p.mul turn).fp
      | none => (fpEncode .nan, fpEncode .nan)
    some ⟨f1, rocof, (List.range (min 32 (r.at 8 1))).map phasor⟩
  | _ => none

/-- The quality word of an output, the QUESTIONABLE of R120 apart (R125). -/
def pheQuality (used : List Nat) (smp : List PheSmp) (bridged : Bool) : Nat :=
  let any (p : PheSmp → Bool) := smp.any p
  let q (p : PheSmp) (c : Nat) : Nat := match p.quals[c]? with | some v => v.toNat | none => 0
  2 ^ 8 ||| 2 * natOf (any (fun p => bitOf p.q 1 || used.any (fun c => bitOf (q p c) 11)))
    ||| 4 * natOf (any (fun p => bitOf p.q 2)) ||| 8 * natOf (any (fun p => bitOf p.q 3)) ||| 16 * natOf bridged
    ||| 64 * natOf (any (fun p => used.any (fun c => q p c % 4 == 3)))

/-- An output instant of the channel without an output (R124): NO_OUTPUT, and the latest instant produced none. -/
def State.pheNone (s : State) (ch : Nat) : State :=
  let x := s.pheChan ch
  (s.bump .phe C.PHE_NO_OUTPUT ch).setPheChan ch
    { x with noOutput := (x.noOutput + 1) % 2 ^ 32, flags := x.flags / 2 * 2 }

/-- A DUAL comparison fails (R128): no output, MISMATCH, event 125, and the fault's reaction or report (R383, R384). -/
def State.pheMismatch (s : State) (ch : Nat) (t : Instant) : State :=
  let c := s.cfgAt t
  let x := s.pheChan ch
  let s := (s.bump .phe C.PHE_MISMATCH ch).setPheChan ch { x with mismatch := (x.mismatch + 1) % 2 ^ 32 }
  let s := (s.pheNone ch).pheEvent 1 ch
  if c.safetyFed ((c.tab 3 ch).at 6 2) then s.enterSafe 0x0A else s.report 0x0A

/-- No output under R120: OUT_OF_RANGE and event 126. -/
def State.pheOutOfRange (s : State) (ch : Nat) : State :=
  let x := s.pheChan ch
  let s := (s.bump .phe C.PHE_OUT_OF_RANGE ch).setPheChan ch { x with flags := x.flags ||| 2 }
  (s.pheNone ch).pheEvent 2 ch

/-- The output of instant `t` is emitted (R117, R120, R125). -/
def State.pheEmit (s : State) (ch : Nat) (t : Instant) (entry q : Nat) (bridged : Bool) (o : PheResult) : State :=
  let s := s.bump .phe C.PHE_OUTPUTS ch
  let s := if bridged then s.bump .phe C.PHE_BRIDGED ch else s
  let x := s.pheChan ch
  let s := s.setPheChan ch { x with
    last := t, freq := fpOfRat o.freq, rocof := fpOfRat o.rocof, outputs := (x.outputs + 1) % 2 ^ 32
    bridged := if bridged then (x.bridged + 1) % 2 ^ 32 else x.bridged, flags := x.flags ||| 1 }
  s.toStitcher ⟨entry, s.epochAt t, t, q, fpOfRat o.freq, fpOfRat o.rocof, o.phasors, [], []⟩

/-- The computation of a run ends (R119, R120, R124). -/
def State.pheFinish (s : State) (ch : Nat) (run : PheRun) (agree : Bool) : State :=
  let c := s.cfgAt run.t
  let r := c.tab 3 ch
  let e := r.at 6 2
  let er := c.tab 1 e
  let (_, len, a) := s.pheWindow ch run.t
  let used := r.pheUsed
  let base := er.bitsAt 48 0 17
  let chans := used.map (fun k => pheChannel (c.factor (base + k)) len a run.samples k)
  let bridged := chans.any (fun x => decide (0 < x.2.1))
  if chans.any (fun x => decide (r.at 4 2 < x.2.1) || decide (r.at 3 1 < x.2.2)) then
    let was := bitOf (s.pheChan ch).flags 0
    let s := s.pheNone ch
    if was then s.pheEvent 0 ch else s
  else if c.fld Reg.PHE_CTL_DUAL = 1 ∧ !agree then s.pheMismatch ch run.t
  else
    let points := used.zip (chans.map (·.1)) |>.map (fun x =>
      (x.1, phePoints (r.bitAt 0 6) len run.t (signed (r.at (72 + 4 * x.1) 2) 16) (signed (r.at (74 + 4 * x.1) 2) 16) x.2))
    match pheEstimate r er.fnom run.t points with
    | none => s.pheOutOfRange ch
    | some o =>
      let off := |o.freq - er.fnom|
      if 10 < off then s.pheOutOfRange ch
      else
        let q := pheQuality used run.samples bridged ||| (if off ≤ 5 then 0 else 2 ^ 6)
        s.pheEmit ch run.t e q bridged o

/-- The channel without its oldest computation. -/
def State.popRun (s : State) (ch : Nat) : State :=
  let x := s.pheChan ch
  s.setPheChan ch { x with runs := x.runs.tail }

/-- PHE_OUTPUT (R117 to R128): the channel's oldest computation ends; under DUAL, `agree` tells whether the two
instances' results are equal. -/
def execPheOutput (ch : Fin 1024) (agree : Bool) (s : State) : Result :=
  match (s.pheChan ch).runs with
  | [] => .next s
  | run :: _ => .next ((s.popRun ch).pheFinish ch run agree)

/-- PHE_DUAL_TIMEOUT (R128): one instance's result is missing 20 us after the computation started. -/
def execPheDualTimeout (ch : Fin 1024) (s : State) : Result :=
  match (s.pheChan ch).runs with
  | [] => .next s
  | run :: _ =>
    when ((s.cfgAt run.t).fld Reg.PHE_CTL_DUAL == 1 && decide (run.start + 20000 ≤ s.now)) s
      ((s.popRun ch).pheMismatch ch run.t)

/-! ### The configuration in force -/

/-- The load of a channel, in samples per second (R128). -/
def Cfg.pheLoad (c : Cfg) (r : Rec) : Nat :=
  let e := c.tab 1 (r.at 6 2)
  r.pheUsed.length * windowLength (r.bitAt 0 6) (e.at 40 2) e.fnom c.fs * c.fs

/-- The clusters that compute distinct channels (R128). -/
def Cfg.pheClusters (c : Cfg) : Nat :=
  let n := c.fld Reg.PHE_CTL_NCLU
  if c.fld Reg.PHE_CTL_DUAL = 1 then n / 2 else n

/-- Enabled channels of a configuration. -/
def Cfg.pheChannels (c : Cfg) : List (Nat × Rec) := (c.listed 3).filter (fun e => e.2.pheOn)

/-- PHE takes the configuration applied at `boundary` (R122, R128, R131): ENABLED, LOAD and CAPACITY, and the first
output instant of each newly enabled channel. -/
def State.pheApply (s : State) (old : Cfg) (boundary : Instant) : State :=
  let on := s.act.pheChannels
  let load := (on.map (fun e => s.act.pheLoad e.2)).sum
  let s := (s.wr Reg.PHE_STAT_ENABLED on.length).wr Reg.PHE_LOAD_LOAD ((load + 999999) / 1000000)
  let s := s.wr Reg.PHE_LOAD_CAPACITY (1500 * s.act.pheClusters)
  let first := gridFrom s.act.fs boundary
  on.foldl (fun s e =>
    if (old.tab 3 e.1).pheOn && old.fld Reg.STCH_CTL_EN == 1 then s
    else s.setPheChan e.1 { s.pheChan e.1 with next := some first }) s

end Sys2Proof.Machine
end

