-- ==== Sys2Proof/Machine/Stitcher.lean ====
section
/-!
DEFINITION. The Stitcher (spec/07): what each stream contributes, placing, decimation, revisions, their store and their
horizon.
-/
namespace Sys2Proof.Machine
open Sys2Proof

/-! ### Records (R134, R150) -/

/-- The four treatments of R134. -/
inductive Treat where
  | direct | held | decimated | event
  deriving DecidableEq, Repr

/-- The treatment of an entry at slice rate `fs` (R134). -/
def Rec.treat (r : Rec) (fs : Nat) : Treat :=
  if r.kind = 5 ∨ r.kind = 6 then .event
  else if r.kind = 4 ∨ r.at 40 2 = fs then .direct
  else if r.at 40 2 < fs then .held else .decimated

/-- A record with nothing in it. -/
def SRec.absent : SRec := ⟨false, false, false, false, false, false, false, 0, 0, 0, 0, [], [], []⟩

/-- The absent record of an entry: every value 0 (R150). -/
def Rec.blank (r : Rec) : SRec :=
  { SRec.absent with
    phasors := List.replicate (r.at 42 1) (0, 0), analogs := List.replicate (r.at 43 1) 0, digitals := List.replicate (r.at 44 1) 0 }

/-- The record that carries a measurement. -/
def Meas.toRec (m : Meas) : SRec :=
  { SRec.absent with
    present := true, quality := m.quality, freq := m.freq, rocof := m.rocof, phasors := m.phasors, analogs := m.analogs
    digitals := m.digitals }

/-- The bytes of a record (R150). -/
def SRec.bytes (r : SRec) (e : Nat) : List Byte :=
  let b := leBytes 2 e ++ leBytes 2 r.quality
    ++ leBytes 1 (natOf r.present + 2 * natOf r.held + 4 * natOf r.decim + 8 * natOf r.new + 16 * natOf r.quenched
        + 32 * natOf r.excluded + 64 * natOf r.event)
    ++ leBytes 1 r.age ++ leBytes 1 r.phasors.length ++ leBytes 1 (r.analogs.length + 16 * r.digitals.length)
    ++ leBytes 4 r.freq.toNat ++ leBytes 4 r.rocof.toNat
    ++ (r.phasors.map (fun p => leBytes 4 p.1.toNat ++ leBytes 4 p.2.toNat)).flatten
    ++ (r.analogs.map (fun a => leBytes 4 a.toNat)).flatten ++ (r.digitals.map (leBytes 2)).flatten
  b ++ List.replicate ((8 - b.length % 8) % 8) 0

/-- The bytes of a revision's records (R149). -/
def Revision.recBytes (r : Revision) : List Byte := (r.recs.map (fun e => e.2.bytes e.1)).flatten

/-- The header of a revision (R149), DIGEST and CRC included. -/
def Revision.header (r : Revision) : List Byte :=
  let b := leBytes 4 (if r.team then 0x4D544C53 else 0x45434C53) ++ leBytes 2 1 ++ leBytes 1 r.rev
    ++ leBytes 1 (natOf r.material + 2 * natOf r.complete + 4 * natOf r.deadline + 8 * natOf r.step + 16 * natOf r.final
        + 32 * natOf r.retiring + 64 * natOf r.gap)
    ++ leBytes 4 (r.instant % nsPerS) ++ leBytes 6 (r.instant / nsPerS) ++ leBytes 2 r.k ++ leBytes 4 r.epoch
    ++ leBytes 4 (r.release % nsPerS) ++ leBytes 6 (r.release / nsPerS) ++ leBytes 2 r.fs ++ leBytes 2 r.recs.length
    ++ leBytes 2 r.expected ++ leBytes 2 (r.recs.filter (fun e => e.2.present)).length
    ++ leBytes 2 (r.recs.filter (fun e => e.2.new)).length ++ leBytes 4 r.length ++ List.replicate 16 0
    ++ leBytes 32 (sha256 r.recBytes) ++ List.replicate 28 0
  b ++ leBytes 4 (crc32 b)

/-- A revision as it stands in the store and is published (R149). -/
def Revision.bytes (r : Revision) : List Byte := r.header ++ r.recBytes

/-! ### Decimation (R142, R143) -/

/-- The decimation record that serves an entry: the lowest-numbered one that matches. -/
def Cfg.decimRec (c : Cfg) (r : Rec) : Option Rec :=
  ((c.listed 4).find? (fun d =>
    d.2.at 0 2 == r.at 40 2 && d.2.at 2 2 == c.fs && bitOf (d.2.at 4 1) r.cls)).map (·.2)

/-- K of a decimation record. -/
def Rec.decimK (d : Rec) : Nat := (d.at 5 1 - 1) / 2

/-- Coefficient H[j]. -/
def Rec.decimH (d : Rec) (j : Nat) : BitVec 32 := BitVec.ofNat 32 (d.at (16 + 4 * j) 4)

/-- The measurement that a stream's inputs hold at grid number `n` of its rate. -/
def inputAt (xs : List Meas) (rate n : Nat) : Option Meas :=
  let t := gridAt rate (n / rate) (n % rate)
  xs.find? (fun m => m.instant = t)

/-- One filtered value: the centre, then the pairs for j = 1 to K in turn, every operation rounded (R142). -/
def decimSum (d : Rec) (x0 : BitVec 32) (pairs : List (BitVec 32 × BitVec 32)) : BitVec 32 :=
  pairs.zipIdx.foldl (fun acc (p, i) => fpAdd acc (fpMul (d.decimH (i + 1)) (fpAdd p.1 p.2))) (fpMul (d.decimH 0) x0)

/-- One component of measurements, filtered. -/
def decimPart (d : Rec) (x0 : Meas) (pairs : List (Meas × Meas)) (f : Meas → BitVec 32) : BitVec 32 :=
  decimSum d (f x0) (pairs.map (fun p => (f p.1, f p.2)))

/-- The record of a Decimated stream at slice instant `t` (R142, R143): filtered when every input is present, `x(t)`
unfiltered with MODIFIED when only it is, absent without it. -/
def decimated (d e : Rec) (xs : List Meas) (t : Instant) : SRec :=
  let rate := e.at 40 2
  let n := gridNumber rate t
  match inputAt xs rate n with
  | none => e.blank
  | some x0 =>
    let pairs := (List.range d.decimK).map (fun j => (inputAt xs rate (n - (j + 1)), inputAt xs rate (n + (j + 1))))
    let full := pairs.filterMap (fun p => match p with | (some a, some b) => some (a, b) | _ => none)
    if full.length = d.decimK then
      { Meas.toRec x0 with
        decim := true
        quality := full.foldl (fun q p => q ||| p.1.quality ||| p.2.quality) x0.quality
        freq := decimPart d x0 full (·.freq)
        rocof := decimPart d x0 full (·.rocof)
        phasors := (List.range x0.phasors.length).map (fun i =>
          (decimPart d x0 full (fun m => ((m.phasors[i]?).getD (0, 0)).1),
           decimPart d x0 full (fun m => ((m.phasors[i]?).getD (0, 0)).2)))
        analogs := (List.range x0.analogs.length).map (fun i => decimPart d x0 full (fun m => (m.analogs[i]?).getD 0)) }
    else { Meas.toRec x0 with quality := x0.quality ||| 16 }

/-- The record of Decimated stream `e` in a slice of instant `t` and epoch `n`, with the inputs held now. -/
def State.decimatedRec (s : State) (n e : Nat) (t : Instant) : SRec :=
  let c := s.cfgOf n
  match c.decimRec (c.tab 1 e) with
  | none => (c.tab 1 e).blank
  | some d => decimated d (c.tab 1 e) ((kvGetD s.stch.decim e []).filter (fun m => s.fits m n)) t

/-! ### Slices -/

/-- The slice of an instant. -/
def State.slice? (s : State) (t : Instant) : Option Slice := s.stch.slices.find? (fun x => x.instant = t)

/-- `s` with the slice of an instant replaced. -/
def State.setSlice (s : State) (x : Slice) : State :=
  { s with stch := { s.stch with slices := s.stch.slices.map (fun y => if y.instant = x.instant then x else y) } }

/-- `s` without the slice of an instant. -/
def State.dropSlice (s : State) (t : Instant) : State :=
  { s with stch := { s.stch with slices := s.stch.slices.filter (fun y => y.instant ≠ t) } }

/-- STCH raises source `80 + k` for an entry (R154). -/
def State.stchEvent (s : State) (k e : Nat) : State := s.raise (80 + k) [(Reg.STCH_EVT_ENTRY_ENTRY k, e)]

/-- Stream `e` is expected in the slice of `t` under its record (R135). -/
def State.expects (s : State) (fs : Nat) (t : Instant) (e : Nat × Rec) : Bool :=
  (match e.2.treat fs with
   | .direct | .decimated => true
   | .held => onGrid (e.2.at 40 2) t
   | .event => false)
  && !setHas s.port.quenched e.1 && !setHas s.stch.excluded e.1

/-- The streams expected in a slice. -/
def State.expectedIn (s : State) (x : Slice) : List Nat :=
  let c := s.sliceCfg x
  (c.entries.filter (s.expects c.fs x.instant)).map (·.1)

/-- Stream `e` is present in an OPEN slice (R138). -/
def State.presentIn (s : State) (x : Slice) (e : Nat) : Bool :=
  let c := s.sliceCfg x
  if (c.tab 1 e).treat c.fs = .decimated then (s.decimatedRec (s.sliceEpoch x) e x.instant).decim
  else (kvGet? x.placed e).isSome

/-- The deadline of a slice (R137). -/
def State.deadlineOf (s : State) (x : Slice) : Instant :=
  let c := s.sliceCfg x
  x.instant + 1000 * (s.expectedIn x).foldl (fun m e => max m (c.fld (Reg.STCH_CLASS_WAIT_US (c.tab 1 e).cls))) 0

/-- Horizon of a slice (R146). -/
def State.horizonOf (s : State) (x : Slice) : Instant := x.instant + 1000000 * (s.sliceCfg x).fld Reg.STCH_CTL_HORIZON_MS

/-- A new slice of an instant. -/
def Slice.fresh (t : Instant) (gap : Bool) : Slice :=
  { instant := t, phase := .opened, home := none, final := false, placed := [], deadline := false, waited := false, step := false
    stalled := false, gap, latest := none, expected := [], gathered := [], arrivals := 0, gatherAt := 0, gatherDue := false }

/-- The next slice opens (R147). -/
def State.openNext (s : State) : State :=
  let t := s.stch.next
  let x := Slice.fresh t s.stch.gap
  { s with stch := { s.stch with slices := s.stch.slices ++ [x], next := s.nextSlice t, gap := false } }

/-- The Stitcher produces slices (R133). -/
def State.producing (s : State) : Bool := s.on Reg.STCH_STAT_PRODUCING

/-- The next slice instant is at most FUTURE_MS ahead. -/
def State.openDue (s : State) : Bool :=
  s.producing && decide (s.stch.next ≤ s.now + 1000000 * s.cf Reg.ING_CTL_FUTURE_MS)

/-- SLICE_OPEN (R133, R140, R147). -/
def execSliceOpen (s : State) : Result := when s.openDue s s.openNext

/-- Every slice that is due up to instant `t` is open. -/
def State.openTo (t : Instant) : Nat → State → State
  | 0, s => s
  | n + 1, s => if s.openDue && decide (s.stch.next ≤ t) then State.openTo t n s.openNext else s

/-! ### The slice store (R151) -/

/-- Bytes held. -/
def storeBytes (l : List Revision) : Nat := (l.map (·.length)).sum

/-- The store with room for `len` bytes: the oldest revisions that are not frozen are overwritten first; none where
that does not suffice. -/
def makeRoom (frozen : Revision → Bool) (cap len : Nat) : Nat → List Revision → Option (List Revision)
  | 0, l => if storeBytes l + len ≤ cap then some l else none
  | n + 1, l =>
    if storeBytes l + len ≤ cap then some l else
    match l.find? (fun x => !frozen x) with
    | none => none
    | some x => makeRoom frozen cap len n (l.erase x)

/-- The store is replaced by the part `l` of it that remains: captures that lose a slice (R242) and
publication items that lose their revision (R261) are dropped. -/
def State.keepStore (s : State) (l : List Revision) : State :=
  let gone := (s.stch.store.map (·.instant)).filter (fun t => !l.any (fun r => r.instant == t))
  let lost := s.stch.store.filter (fun r => !l.contains r)
  let s := lost.foldl State.revisionGone { s with stch := { s.stch with store := l } }
  gone.foldl State.sliceOverwritten s

/-- A revision is never overwritten (R151): a capture froze its slice, or a suspended publication reads it. -/
def State.revFrozen (s : State) (r : Revision) : Bool := s.sliceFrozen r.instant || s.revRead r

/-- Capacity of the store. -/
def State.storeCap (s : State) : Nat := s.cf Reg.STCH_STORE_SIZE_64M * 2 ^ 26

/-- DEPTH_MS kept in step with the store (R155). -/
def State.setDepth (s : State) : State :=
  let ts := s.stch.store.map (fun x => x.instant)
  let d := match ts with
    | [] => 0
    | t :: l => l.foldl max t - l.foldl min t
  s.wr Reg.STCH_STORE_STAT_DEPTH_MS (min (2 ^ 32 - 1) (d / 1000000))

/-- The package is the time master of a team with team slices (R376). -/
def State.teamMaster (s : State) : Bool :=
  s.on Reg.PAIR_CTL_ENABLE && s.rd Reg.PAIR_CTL_MODE == 2 && s.on Reg.PAIR_CTL_TSLICE
    && s.rd Reg.PAIR_CTL_UNIT_ID == s.rd Reg.PAIR_CTL_MASTER

/-- The revisions held on which analyses and slice capture act: on a time master with team slices, the team slices in place
of its own revisions (R376). -/
def State.acted (s : State) : List Revision := s.stch.store.filter (fun r => r.team == s.teamMaster)

/-- The consumers that act on a revision (R148, R376). -/
def State.consumers (s : State) (r : Revision) : List Consumer :=
  (if (decide (r.rev = 0) || r.material) && r.team == s.teamMaster then [.topo, .rules, .osc, .graphs] else [])
    ++ (if r.team then [] else [.outputs])

/-- A revision is written to the store and handed to its consumers, publication among them (R148, R260, R376); none where the
release has to wait for space (R151). -/
def State.storeRev (s : State) (r : Revision) : Option State :=
  match makeRoom s.revFrozen s.storeCap r.length s.stch.store.length s.stch.store with
  | none => none
  | some l =>
    let s := s.keepStore l
    let s := State.setDepth { s with stch := { s.stch with
      store := l ++ [r]
      work := s.stch.work ++ (s.consumers r).map (fun w => ⟨w, r⟩) } }
    some (if r.team == s.teamMaster then s.produce (revisionItem r) else s)

/-! ### Team slices (R375 to R377) -/

/-- Team slices under assembly that are kept. -/
def teamKeep : Nat := 64

/-- The part of a team slice under assembly. -/
def State.teamSlice (s : State) (t : Instant) : TeamSlice := kvGetD s.pair.team t ⟨none, 0, []⟩

/-- The team slice of an instant is under assembly with parts `x`. -/
def State.setTeam (s : State) (t : Instant) (x : TeamSlice) : State :=
  let l := kvSet s.pair.team t x
  { s with pair := { s.pair with team := l.drop (l.length - teamKeep) } }

/-- Members whose revision 0 of an instant counts: those not known to hold another epoch for it (R40). -/
def State.teamWants (s : State) (t : Instant) : List Nat :=
  s.partners.filter (fun u => match kvGet? s.pair.heard u with | some (h, _) => h.epoch == s.epochAt t | none => true)

/-- The records of two revisions by entry. -/
def mergeRecs (a b : KV SRec) : KV SRec := b.foldl (fun m e => kvSet m e.1 e.2) a

/-- The team slice of an instant is assembled from what is there (R376); an absent member raises event 205 (R375). -/
def State.assemble (s : State) (t : Instant) : State :=
  let x := s.teamSlice t
  match x.own with
  | none => s
  | some own =>
    let missing := s.partners.filter (fun u => (kvGet? x.parts u).isNone)
    let rev : Revision := { own with
      team := true, complete := own.complete && missing.isEmpty && x.parts.all (fun p => p.2.complete)
      deadline := own.deadline || x.parts.any (fun p => p.2.deadline)
      expected := own.expected + (x.parts.map (fun p => p.2.expected)).sum
      length := own.length + (x.parts.map (fun p => p.2.length - 128)).sum
      release := s.now, recs := x.parts.foldl (fun m p => mergeRecs m p.2.recs) own.recs }
    match s.storeRev rev with
    | none => s
    | some s =>
      let s := { s with pair := { s.pair with team := kvDel s.pair.team t } }
      if missing.isEmpty then s else s.raise 205

/-- A team slice is assembled once every member's revision 0 is there (R376). -/
def State.tryAssemble (s : State) (t : Instant) : State :=
  if (s.teamWants t).all (fun u => (kvGet? (s.teamSlice t).parts u).isSome) then s.assemble t else s

/-- A revision 0 goes to the team (R375, R376): the time master keeps its own for the team slice, a member that has not lost the
time master sends it. -/
def State.toTeam (s : State) (v : Revision) : State :=
  if s.teamMaster then
    (s.setTeam v.instant { s.teamSlice v.instant with own := some v, ownAt := s.now }).tryAssemble v.instant
  else if s.on Reg.PAIR_CTL_ENABLE && s.rd Reg.PAIR_CTL_MODE == 2 && s.on Reg.PAIR_CTL_TSLICE
      && !s.pair.lost.contains (s.rd Reg.PAIR_CTL_MASTER) then
    s.sendHjel (s.rd Reg.PAIR_CTL_MASTER) 2 (.revision v)
  else s

/-- A release that finds no space waits (R151). -/
def State.stall (s : State) (x : Slice) : State :=
  if x.stalled then s else ((s.bump .stch C.STCH_STORE_STALL).setSlice { x with stalled := true }).stchEvent 3 0

/-! ### Revision 0 (R134 to R139) -/

/-- The latest state accepted of an Event stream at or before `t` that holds under epoch `n`. -/
def State.eventAt (s : State) (n e : Nat) (t : Instant) : Option Meas :=
  (kvGetD s.stch.events e []).find? (fun m => decide (m.instant ≤ t) && s.fits m n)

/-- The record that an Event stream's state gives at `t`. -/
def eventRec (fs : Nat) (m : Meas) (t : Instant) : SRec :=
  { m.toRec with event := true, age := min 255 (ageOf fs m.instant t) }

/-- The record of an entry in revision 0 of a slice (R134 to R136, R143): a quenched stream has values only where a measurement of
the slice instant was placed. -/
def State.firstRec (s : State) (c : Cfg) (x : Slice) (e : Nat × Rec) : SRec :=
  let t := x.instant
  let n := s.sliceEpoch x
  let quenched := setHas s.port.quenched e.1
  let placed := match kvGet? x.placed e.1 with | some m => m.toRec | none => e.2.blank
  let r := match e.2.treat c.fs with
    | .direct => placed
    | .decimated => s.decimatedRec n e.1 t
    | .held =>
      if onGrid (e.2.at 40 2) t then placed
      else
        match kvGet? s.stch.held e.1 with
        | none => e.2.blank
        | some m =>
          let age := gridNumber c.fs t - gridNumber c.fs m.instant
          if quenched || 255 < age || t < m.instant || !s.fits m n then e.2.blank else { m.toRec with held := true, age }
    | .event =>
      match s.eventAt n e.1 t with
      | none => { e.2.blank with event := true }
      | some m => if quenched then { e.2.blank with event := true } else eventRec c.fs m t
  { r with quenched, excluded := setHas s.stch.excluded e.1 }

/-- Held values after revision 0 of a slice of `t` held the records `recs` (R134, R136). -/
def State.keepHeld (s : State) (c : Cfg) (n : Nat) (t : Instant) (recs : List (Nat × SRec)) : State :=
  recs.foldl (fun s e =>
    let m : Meas := ⟨e.1, n, t, e.2.quality, e.2.freq, e.2.rocof, e.2.phasors, e.2.analogs, e.2.digitals⟩
    if (c.tab 1 e.1).treat c.fs == .held && e.2.present && !e.2.held then
      { s with stch := { s.stch with held := kvSet s.stch.held e.1 m } }
    else s) s

/-- Consecutive absences after revision 0 (R135): a stream absent ABSENT_N times in a row is excluded from the next slice
on. -/
def State.countAbsent (s : State) (c : Cfg) (expected : List Nat) (present : Nat → Bool) : State :=
  expected.foldl (fun s e =>
    if present e then { s with stch := { s.stch with absent := kvDel s.stch.absent e } }
    else
      let n := min 65535 (kvGetD s.stch.absent e 0 + 1)
      let lim := c.fld (Reg.STCH_CLASS_ABSENT_N (c.tab 1 e).cls)
      let s := { s with stch := { s.stch with absent := kvSet s.stch.absent e n } }
      if 0 < lim ∧ lim ≤ n then
        State.stchEvent { s with stch := { s.stch with excluded := setAdd s.stch.excluded e } } 6 e
      else s) s

/-- A record shows its stream present (R138): a Decimated one only as the output of its filter. -/
def countsPresent (c : Cfg) (e : Nat) (r : SRec) : Bool := r.present && (r.decim || (c.tab 1 e).treat c.fs != .decimated)

/-- A slice of an earlier epoch is built under a retiring copy (R149). -/
def State.retired (s : State) (x : Slice) : Bool := s.sliceEpoch x != s.rd Reg.GLB_EPOCH_EPOCH

/-- DECIM_FALLBACK and event 85 for the records of Decimated streams that went unfiltered (R143). -/
def State.countFallbacks (s : State) (c : Cfg) (recs : KV SRec) : State :=
  (recs.filter (fun e => e.2.present && !e.2.decim && (c.tab 1 e.1).treat c.fs == .decimated)).foldl
    (fun s e => (s.bump .stch C.STCH_DECIM_FALLBACK).stchEvent 5 e.1) s

/-- Revision 0 of an OPEN slice is built and released (R138, R139, R35).  Without space in the store the release waits. -/
def State.release0 (s : State) (x : Slice) : State :=
  let t := x.instant
  let n := s.sliceEpoch x
  let c := s.sliceCfg x
  let expected := s.expectedIn x
  let recs := c.entries.map (fun e => (e.1, s.firstRec c x e))
  let missing := expected.filter (fun e => !countsPresent c e (kvGetD recs e SRec.absent))
  let complete := missing.isEmpty
  let deadline := x.step || x.deadline || !complete
  let rev : Revision := ⟨t, gridIndex c.fs t, 0, n, c.fs, true, complete, deadline, x.step, x.final, s.retired x, x.gap, false,
    expected.length, c.sliceLength, s.now, recs⟩
  match s.storeRev rev with
  | none => s.stall x
  | some s =>
    let s := s.bump .stch C.STCH_SLICES
    let s := if complete then s.bump .stch C.STCH_COMPLETE else s
    let s := if deadline then s.bump .stch C.STCH_DEADLINE else s
    let s := if x.step then (s.bump .stch C.STCH_STEP_RELEASE).stchEvent 8 0 else s
    let s := match missing with
      | e :: _ => s.stchEvent 0 e
      | [] => s
    let s := if x.waited then s.stchEvent 4 0 else s
    let s := s.countFallbacks c recs
    let s := (s.keepHeld c n t recs).countAbsent c expected (fun e => !missing.contains e)
    let s := s.wrInstant Reg.STCH_LAST_REL_S Reg.STCH_LAST_REL_NS t
    let s : State := (s.setSlice { x with phase := .released, placed := [], stalled := false, latest := some rev, expected }).toTeam rev
    if x.final || decide (s.horizonOf x ≤ s.now) then s.dropSlice t else s

/-- The slice meets its own conditions of R138: its instant is reached, and every expected stream is present or the
deadline reached. -/
def State.sliceReady (s : State) (x : Slice) : Bool :=
  decide (x.instant ≤ s.now)
    && (x.deadline || decide (s.deadlineOf x ≤ s.now) || (s.expectedIn x).all (s.presentIn x))

/-- OPEN slices, in instant order. -/
def State.openSlices (s : State) : List Slice := s.stch.slices.filter (fun x => x.phase == .opened)

/-- SLICE_DEADLINE (R137, R138): the earliest OPEN slice whose deadline is reached with an expected stream missing. -/
def execSliceDeadline (s : State) : Result :=
  match s.openSlices.find? (fun x => !x.deadline && decide (s.deadlineOf x ≤ s.now)
      && decide (x.instant ≤ s.now) && !(s.expectedIn x).all (s.presentIn x)) with
  | none => .next s
  | some x => .next (s.setSlice { x with deadline := true })

/-- The first OPEN slice is released; later slices that meet their own conditions already are then known to have waited
(event 84). -/
def State.releaseOpen (s : State) (x : Slice) : State :=
  let waiting := s.openSlices.filter (fun y => decide (x.instant < y.instant) && s.sliceReady y)
  (waiting.foldl (fun s y => s.setSlice { y with waited := true }) s).release0 x

/-- The first OPEN slice is released when its conditions hold (R138): true where it was. -/
def State.releaseFirst (s : State) : Bool × State :=
  match s.openSlices with
  | [] => (false, s)
  | x :: _ => if s.sliceReady x then (true, s.releaseOpen x) else (false, s)

/-- REVISION_0_RELEASE (R138). -/
def execRevision0Release (s : State) : Result := .next s.releaseFirst.2

/-! ### Steps of the time base (R48, R139) -/

/-- Slices that are ready are released in instant order, at most `n` of them. -/
def State.releaseAll : Nat → State → State
  | 0, s => s
  | n + 1, s =>
    match s.releaseFirst with
    | (true, t) => State.releaseAll n t
    | (false, _) => s

/-- A step from `old` to the present instant passes over slices: those whose deadline or instant lies in it are released at the step
tick, in instant order, with STEP and DEADLINE. -/
def State.stepSlices (s : State) (old : Instant) : State :=
  if !s.producing then s else
  let s := State.openTo s.now ((s.now - s.stch.next) * s.act.fs / nsPerS + 2) s
  let passed (t : Instant) : Bool := decide (old < t) && decide (t ≤ s.now)
  (s.openSlices.filter (fun x => decide (x.instant ≤ s.now) && (passed x.instant || passed (s.deadlineOf x)))).foldl
    (fun s x => s.release0 { x with deadline := true, step := true }) s

/-! ### Later revisions (R144 to R146) -/

/-- A late arrival is gathered for a slice's next revision (R144). -/
def State.gather (s : State) (x : Slice) (e : Nat) (r : SRec) : State :=
  let s := s.bump .stch C.STCH_LATE_ARR
  s.setSlice { x with
    phase := .gathering, gathered := kvSet x.gathered e { r with new := true }, arrivals := x.arrivals + 1
    gatherAt := if x.phase = .gathering then x.gatherAt else s.now }

/-- Record `e` of a slice's latest revision. -/
def Slice.rcd (x : Slice) (e : Nat) : SRec :=
  match x.latest with
  | some r => kvGetD r.recs e SRec.absent
  | none => SRec.absent

/-- Record `e` of a slice's next revision, as gathered so far. -/
def Slice.nextRcd (x : Slice) (e : Nat) : SRec := (kvGet? x.gathered e).getD (x.rcd e)

/-- Every expected stream of a slice is present in its next revision (R138, R144). -/
def Slice.allThere (c : Cfg) (x : Slice) : Bool := x.expected.all (fun e => countsPresent c e (x.nextRcd e))

/-- The pending revision of a GATHERING slice is released (R144, R145); revision 15 closes the slice. -/
def State.releaseNext (s : State) (x : Slice) : State :=
  match x.latest with
  | none => s
  | some old =>
    let c := s.sliceCfg x
    let recs := old.recs.map (fun e => (e.1, match kvGet? x.gathered e.1 with
      | some r => { r with quenched := e.2.quenched, excluded := e.2.excluded }
      | none => { e.2 with new := false }))
    let min_ := c.fld Reg.STCH_CTL2_MAT_MIN
    let material := x.gathered.any (fun g => c.fld (Reg.STCH_CLASS_MAT (c.tab 1 g.1).cls) == 1)
      || (min_ != 0 && decide (min_ ≤ x.arrivals))
    let n := old.rev + 1
    let rev : Revision := { old with
      rev := n, material, complete := x.allThere c, deadline := false, step := false, final := n == 15
      retiring := s.retired x, release := s.now, recs }
    match s.storeRev rev with
    | none => s.stall x
    | some s =>
      let s := s.bump .stch C.STCH_REVISIONS
      let s := if material then s.bump .stch C.STCH_MATERIAL else s
      let s := s.countFallbacks c x.gathered
      let s := if n = 15 then { s with stch := { s.stch with limited := setAdd s.stch.limited x.instant } } else s
      s.setSlice { x with
        phase := if n = 15 then .closed else .released, stalled := false, latest := some rev, gathered := [], arrivals := 0
        gatherDue := false }

/-- REV_GATHER_EXPIRY (R144): REV_GATHER_US after the first gathered arrival. -/
def execRevGatherExpiry (s : State) : Result :=
  match s.stch.slices.find? (fun x => x.phase == .gathering && !x.gatherDue
      && decide (x.gatherAt + 1000 * (s.sliceCfg x).fld Reg.STCH_CTL2_REV_GATHER_US ≤ s.now)) with
  | none => .next s
  | some x => .next (s.setSlice { x with gatherDue := true })

/-- REVISION_RELEASE (R144 to R146): a slice whose gathering time is over, or whose expected streams are all present,
releases its next revision; revision 15 closes it. -/
def execRevisionRelease (s : State) : Result :=
  match s.stch.slices.find? (fun x => x.phase == .gathering && !x.stalled && (x.gatherDue || x.allThere (s.sliceCfg x))) with
  | none => .next s
  | some x => .next (s.releaseNext x)

/-- A GATHERING slice releases its pending revision and closes (R146); where the release waits for space, it closes later. -/
def State.finish (s : State) (x : Slice) : State :=
  let s := if x.phase = .gathering then s.releaseNext x else s
  match s.slice? x.instant with
  | some y => if y.stalled then s else s.dropSlice x.instant
  | none => s

/-- SLICE_HORIZON (R146, R147): a released slice's horizon is reached; a pending revision is released first, and the
slice closes. -/
def execSliceHorizon (s : State) : Result :=
  match s.stch.slices.find? (fun x => x.phase != .opened && decide (s.horizonOf x ≤ s.now)) with
  | none => .next s
  | some x => .next (s.finish x)

/-- STORE_STALL_CLEAR (R151): space freed; the first stalled release proceeds. -/
def execStoreStallClear (s : State) : Result :=
  match s.stch.slices.find? (fun x => x.stalled) with
  | none => .next s
  | some x =>
    when (makeRoom s.revFrozen s.storeCap (s.sliceCfg x).sliceLength s.stch.store.length s.stch.store).isSome s
      (if x.phase = .opened then s.releaseOpen x else s.releaseNext x)

/-! ### Placing (R140, R141, R143, R484) -/

/-- An arrival is discarded beyond the horizon (R140). -/
def State.beyond (s : State) (e : Nat) : State := (s.bump .stch C.STCH_BEYOND_HORIZON).stchEvent 2 e

/-- A placement makes an excluded stream expected again (R135). -/
def State.unexclude (s : State) (e : Nat) : State :=
  if setHas s.stch.excluded e then
    State.stchEvent { s with stch := { s.stch with excluded := setDel s.stch.excluded e, absent := kvDel s.stch.absent e } } 7 e
  else s

/-- An arrival for an instant without an open, released or gathering slice (R140). -/
def State.tooLate (s : State) (e : Nat) (t : Instant) : State :=
  if setHas s.stch.limited t then (s.bump .stch C.STCH_REV_LIMIT).stchEvent 1 e else s.beyond e

/-- A measurement read under another epoch than `n`, that of its slice (R35, R484): one read under an earlier configuration is removed
like a placement made before the boundary, one read under a later one is beyond the horizon of the closed epoch. -/
def State.foreign (s : State) (m : Meas) (n : Nat) : State := if m.epoch < n then s else s.beyond m.entry

/-- A Direct or Held measurement at a slice instant (R140). -/
def State.placeAt (s : State) (m : Meas) : State :=
  let e := m.entry
  let s := State.openTo m.instant 512 s
  match s.slice? m.instant with
  | none => s.tooLate e m.instant
  | some x =>
    if !s.fits m (s.sliceEpoch x) then s.foreign m (s.sliceEpoch x) else
    match x.phase with
    | .opened =>
      if (kvGet? x.placed e).isSome then s.bump .stch C.STCH_DUP_DISCARD
      else (s.unexclude e).setSlice { x with placed := kvSet x.placed e m }
    | .released | .gathering =>
      if (x.nextRcd e).present then s.bump .stch C.STCH_DUP_DISCARD else (s.unexclude e).gather x e m.toRec
    | .closed => s.tooLate e m.instant

/-- A measurement of a Decimated stream becomes a filter input (R142, R143), and where it changes the record of a slice already
released, the new record is gathered. -/
def State.addInput (s : State) (m : Meas) : State :=
  let e := m.entry
  let keep := (kvGetD s.stch.decim e []).filter (fun y => decide (s.now ≤ y.instant + 34 * nsPerS))
  let s := State.unexclude { s with stch := { s.stch with decim := kvSet s.stch.decim e (keep ++ [m]) } } e
  s.stch.slices.foldl (fun s x =>
    if x.phase = .released ∨ x.phase = .gathering then
      let before := x.nextRcd e
      let after := s.decimatedRec (s.sliceEpoch x) e x.instant
      if after.present && (!before.present || (after.decim && !before.decim)) then s.gather x e after else s
    else s) s

/-- A measurement of a Decimated stream (R140, R142, R143). -/
def State.placeInput (s : State) (c : Cfg) (m : Meas) : State :=
  let e := m.entry
  let n := s.epochAt m.instant
  if (kvGetD s.stch.decim e []).any (fun y => y.instant == m.instant && s.fits y m.epoch) then s.bump .stch C.STCH_DUP_DISCARD else
  let s := State.openTo m.instant 512 s
  match s.slice? m.instant with
  | some x =>
    if !s.fits m (s.sliceEpoch x) then s.foreign m (s.sliceEpoch x)
    else if x.phase = .closed then s.tooLate e m.instant else s.addInput m
  | none =>
    if !s.fits m n then s.foreign m n
    else if onGrid c.fs m.instant && decide (m.instant < s.stch.next) then s.tooLate e m.instant else s.addInput m

/-- Accepted states of an Event stream that some slice may still need: of those at or before the oldest such slice, the latest of each
epoch. -/
def neededEvents (floor : Instant) : List Meas → List Nat → List Meas
  | [], _ => []
  | m :: ms, seen =>
    if m.instant ≤ floor then
      if seen.contains m.epoch then neededEvents floor ms seen else m :: neededEvents floor ms (m.epoch :: seen)
    else m :: neededEvents floor ms seen

/-- The oldest slice instant whose records may still be built. -/
def State.oldestSlice (s : State) : Instant :=
  s.stch.slices.foldl (fun t x => min t x.instant) (if s.producing then min s.now s.stch.next else s.now)

/-- A state change of an Event stream (R141): kept for the slices not yet built; for every released slice at or after it whose latest
revision it alters it is a late arrival, and it takes the place of a pending record that it supersedes. -/
def State.placeEvent (s : State) (m : Meas) : State :=
  let e := m.entry
  let kept := neededEvents s.oldestSlice (m :: kvGetD s.stch.events e []) []
  let s := { s with stch := { s.stch with events := kvSet s.stch.events e kept } }
  s.stch.slices.foldl (fun s x =>
    let n := s.sliceEpoch x
    if (x.phase = .released ∨ x.phase = .gathering) ∧ m.instant ≤ x.instant ∧ s.eventAt n e x.instant = some m then
      let now_ := eventRec (s.sliceCfg x).fs m x.instant
      if { x.rcd e with new := false, quenched := false, excluded := false } != now_ then s.gather x e now_
      else match kvGet? x.gathered e with
        | some _ => s.setSlice { x with gathered := kvSet x.gathered e { now_ with new := true } }
        | none => s
    else s) s

/-- The configuration under which a measurement is placed: that of the slice of its instant, else that of its instant. -/
def State.placeCfg (s : State) (t : Instant) : Cfg := match s.slice? t with | some x => s.sliceCfg x | none => s.cfgAt t

/-- A measurement reaches its place, or is discarded (R140). -/
def State.place (s : State) (m : Meas) : State :=
  let c := s.placeCfg m.instant
  let r := c.tab 1 m.entry
  if !r.on then s else
  match r.treat c.fs with
  | .event => s.placeEvent m
  | .decimated => s.placeInput c m
  | _ => if onGrid c.fs m.instant then s.placeAt m else s.bump .stch C.STCH_OFF_SLICE

/-- MEASUREMENT_PLACE (R140 to R143): the oldest measurement handed on reaches the Stitcher. -/
def execMeasurementPlace (s : State) : Result :=
  match s.stch.inbox with
  | [] => .next s
  | m :: rest => .next ({ s with stch := { s.stch with inbox := rest } }.place m)

/-! ### Boundaries and starts (R35, R133, R152, R484) -/

/-- Slices of an epoch older than the retiring one close (R35, R146): revision 0 first where it is not yet released,
with FINAL; gathered arrivals are discarded and counted. -/
def State.closeBefore (s : State) (b : Instant) : State :=
  (s.stch.slices.filter (fun x => decide (x.instant < b))).foldl (fun s x =>
    if x.phase = .opened then s.release0 { x with final := true }
    else
      let s := x.gathered.foldl (fun s g => s.beyond g.1) s
      s.dropSlice x.instant) s

/-- The stored measurements of epoch `a` that hold under epoch `b` too become measurements of it. -/
def State.retag (s : State) (a b : Nat) : State :=
  let f (m : Meas) : Meas := if m.epoch = a ∧ s.fits m b then { m with epoch := b } else m
  { s with stch := { s.stch with
    inbox := s.stch.inbox.map f
    held := s.stch.held.map (fun e => (e.1, f e.2))
    events := s.stch.events.map (fun e => (e.1, e.2.map f))
    decim := s.stch.decim.map (fun e => (e.1, e.2.map f)) } }

/-- Epochs that a slice or a revision in work still refers to. -/
def State.epochsUsed (s : State) : List Nat :=
  s.stch.slices.filterMap (·.home) ++ s.stch.work.map (·.rev.epoch) ++ s.sched.runs.map (·.epoch)
    ++ s.osc.sets.filterMap (fun g => g.2.run.map (·.epoch))

/-- The retiring copy is dropped (R35): its configuration stays as that of the slices and revisions of its epoch that are not yet done
(R33). -/
def State.retire (s : State) : State :=
  match s.ret with
  | none => s
  | some r =>
    let s := s.retag r.epoch (s.rd Reg.GLB_EPOCH_EPOCH)
    let slices := s.stch.slices.map (fun x => if x.instant < r.boundary ∧ x.home = none then { x with home := some r.epoch } else x)
    let s := { s with stch := { s.stch with slices }, glb := { s.glb with past := kvSet s.glb.past r.epoch r.cfg }, ret := none }
    { s with glb := { s.glb with past := s.glb.past.filter (fun e => s.epochsUsed.contains e.1) } }

/-- The Stitcher starts producing from the first slice instant at or after `t` (R133): the first slice carries GAP.  In the Cairn
condition it stays stopped (R453). -/
def State.startProducing (s : State) (t : Instant) : State :=
  if s.on Reg.ERR_STAT_FATAL then s else
  let s := s.wr Reg.STCH_STAT_PRODUCING 1
  { s with stch := { s.stch with next := gridFrom s.act.fs t, gap := true } }

/-- The Stitcher stops producing: no slice from `t` on exists. -/
def State.stopProducing (s : State) (t : Instant) : State :=
  let s := s.wr Reg.STCH_STAT_PRODUCING 0
  { s with stch := { s.stch with slices := s.stch.slices.filter (fun x => decide (x.instant < t)) } }

/-- The Stitcher takes the configuration that applies at `b` in place of `old` (R133, R152, R484): placements made early
are kept or removed, slices follow a changed rate, and the store a changed size. -/
def State.stchApply (s : State) (old : Cfg) (b : Instant) : State :=
  let new := s.act
  let same := sameEntry old new
  let stch := s.stch
  let slices := stch.slices.filterMap (fun x =>
    if x.instant < b then some x
    else if !onGrid new.fs x.instant then none
    else some { x with placed := x.placed.filter (fun p => same p.1) })
  let s := { s with stch := { stch with
    slices
    excluded := stch.excluded.filter (fun e => (new.tab 1 e).on)
    absent := stch.absent.filter (fun p => (new.tab 1 p.1).on) } }
  let s := s.wr Reg.STCH_STAT_ENABLED new.entries.length
  let s := if old.fs = new.fs then s else
    -- slices opened ahead on the old grid alone are gone, and opening goes on from the boundary
    { s with stch := { s.stch with
        slices := s.stch.slices.filter (fun x => decide (x.instant < b)), next := gridFrom new.fs b
        gap := s.stch.gap || stch.slices.any (fun x => decide (b ≤ x.instant) && x.gap) } }
  let s := match old.fld Reg.STCH_CTL_EN == 1, new.fld Reg.STCH_CTL_EN == 1 with
    | false, true => s.startProducing b
    | true, false => s.stopProducing b
    | _, _ => s
  match makeRoom s.revFrozen s.storeCap 0 s.stch.store.length s.stch.store with
  | some l => (s.keepStore l).setDepth
  | none => (s.keepStore (s.stch.store.filter s.revFrozen)).setDepth

end Sys2Proof.Machine
end

