-- ==== Sys2Proof/Machine/Cap.lean ====
section
/-!
DEFINITION. The commands of capture (spec/11): arming, triggers, hold-off, copying, draining, calibration, and SCHEDULE
(R36, R37, R248, R331).
-/
namespace Sys2Proof.Machine
open Sys2Proof

/-! ### Arming (R236, R238, R239, R247) -/

/-- ACTION ARM (R236, R247): from IDLE, HOLDOFF with its counts satisfied.  The status is BUSY in any other state. -/
def State.capArm (s : State) (c : Nat) : Status × State :=
  let x := s.capChan c
  if !(s.capCfg c).capOn then (.invalid, s)
  else if x.phase = .idle then
    (.ok, s.setCapChan c { x with
      phase := .holdoff, satisfied := true, holdAt := s.now, holdCount := 0, left := s.now, notArmed := some s.now, dead := 0
      missed := 0 })
  else (.busy, s)

/-- ACTION DISARM (R236, R247): to IDLE, after a record in progress. -/
def State.capDisarm (s : State) (c : Nat) : Status × State :=
  let x := s.capChan c
  if !(s.capCfg c).capOn then (.invalid, s)
  else if x.phase = .recording then (.ok, s.setCapChan c { x with disarm := true })
  else (.ok, s.setCapChan c { x with phase := .idle, frames := [] })

/-- A CAPTURE_ARM completes with the state of its channel (R333). -/
def State.capDone (s : State) (tag : BitVec 16) (c : Nat) (st : Status) : State :=
  s.mgmtDone .captureArm tag.toNat st (s.capChan c).phase.code

/-- CAPTURE_ARM with ACTION ARM (R247). -/
def execCaptureArmArm (tag : BitVec 16) (ch : Fin 8) (s : State) : Result :=
  let (st, t) := s.capArm ch
  s.served .captureArm tag (.next (t.capDone tag ch st))

/-- CAPTURE_ARM with ACTION DISARM (R247). -/
def execCaptureArmDisarm (tag : BitVec 16) (ch : Fin 8) (s : State) : Result :=
  let (st, t) := s.capDisarm ch
  s.served .captureArm tag (.next (t.capDone tag ch st))

/-- CAPTURE_ARM with ACTION FIRE (R230, R247): trigger 9 at the acceptance instant. -/
def execCaptureArmFire (tag : BitVec 16) (ch : Fin 8) (s : State) : Result :=
  s.served .captureArm tag (
    if !(s.capCfg ch).capOn then .next (s.capDone tag ch .invalid) else
    let (f, s) := s.capTrigger ch [⟨s.now, 9, 0, false⟩] (s.trigPoint s.now)
    .next (s.capDone tag ch (if f = .fired ∨ f = .merged then .ok else .degraded)))

/-- CAPTURE_ARM with ACTION ABORT (R247). -/
def execCaptureArmAbort (tag : BitVec 16) (ch : Fin 8) (s : State) : Result :=
  s.served .captureArm tag (
    if (s.capCfg ch).capOn && (s.capChan ch).phase == .recording then
      .next ((s.capComplete ch false true).capDone tag ch .ok)
    else .next (s.capDone tag ch .invalid))

/-- HOLDOFF_SATISFIED (R236, R238): the hold-off's time and triggers are reached, and for GUARANTEED the worst record fits;
the channel re-arms, or waits for XARM. -/
def execHoldoffSatisfied (ch : Fin 8) (s : State) : Result :=
  let x := s.capChan ch
  let r := s.capCfg ch
  let held := x.satisfied || (decide (x.holdAt + r.at 32 4 * 1000000 ≤ s.now) && decide (r.at 30 2 ≤ x.holdCount))
  let room := !r.capGuar || decide (s.act.capWorst r ≤ s.capFree ch)
  let waits := r.capXarm && !s.on Reg.CAP_X_XARM_IN
  when (x.phase == .holdoff && held && room) s
    ((if waits then s.setCapChan ch { x with phase := .waitXarm } else s.capArmed ch).capEvent 6 ch)

/-- XARM_CHANGE (R234, R236): the level at the XARM ball changes, which is the level driven where this unit is the master. -/
def execXarmChange (level : Bool) (s : State) : Result :=
  let ours := !s.cfOn Reg.CAP_X_XARM_MASTER || s.dark || s.on Reg.CAP_X_XARM_LEVEL == level
  when (ours && s.on Reg.CAP_X_XARM_IN != level) s (s.xarmChange level)

/-! ### Triggers (R230 to R235) -/

/-- An edge on TRIG_IN[n] that a measurement takes (R232): its delay after the pulse before it. -/
def State.calEdge (s : State) (n : Nat) (raw : Instant) : State :=
  match s.cap.cal with
  | none => s
  | some (start, sums) =>
    let p := (raw - start) / 10000
    let (sum, seen) := kvGetD sums n (0, 0)
    if !bitOf (s.rd Reg.CAP_CAL_IN_MASK) n || decide (raw < start) || decide (16 ≤ p) || bitOf seen p then s
    else { s with cap := { s.cap with cal := some (start, kvSet sums n (sum + ((raw - start) % 10000 : Nat), seen ||| 2 ^ p)) } }

/-- TRIG_IN_EDGE (R231): an edge on TRIG_IN[n], selected by EDGE, whose new level has persisted for MIN_NS (`held` ns since
the edge): it is time-stamped and counted, and fires channels as trigger n. -/
def execTrigInEdge (n : Fin 8) (rising : Bool) (held : Nat) (s : State) : Result :=
  let edge := s.cf (Reg.CAP_TIN_EDGE n)
  let raw := s.now - held
  let t := (((raw : Nat) : Int) - signed (s.cf (Reg.CAP_TIN_CAL_NS n)) 16).toNat
  let ok := (edge == 3 || edge == (if rising then 1 else 2)) && decide (s.cf (Reg.CAP_TIN_MIN_NS n) ≤ held)
  let s' := (s.bump .cap C.CAP_TIN_EDGES n).wrInstant (Reg.CAP_TIN_TS_S n) (Reg.CAP_TIN_TS_NS n) t
  let s' := if rising then s'.calEdge n raw else s'
  when (ok && !s.dark) s (s'.trigger [⟨t, n, 0, false⟩] (s'.trigPoint t))

/-- XFIRE_EDGE (R234): a rising edge on XFIRE is trigger 8, unless it begins while this unit drives the line. -/
def execXfireEdge (s : State) : Result :=
  let driving := match s.cap.xfire with | some (t, true) => decide (s.now < t) | _ => false
  let t := s.now - s.cf Reg.CAP_X_XFIRE_DLY_NS
  let s' := (State.wr { s with cap := { s.cap with xfire := some (s.now + 1000, false) } } Reg.CAP_X_XFIRE_IN 1).bump .cap
    C.CAP_XFIRE_EDGES
  when (!driving && !s.dark) s (s'.trigger [⟨t, 8, 0, false⟩] (s'.trigPoint t))

/-- XFIRE_PULSE_END (R234): the 1 us pulse on XFIRE ends. -/
def execXfirePulseEnd (s : State) : Result :=
  match s.cap.xfire with
  | some (t, _) =>
    when (decide (t ≤ s.now)) s (State.wr { s with cap := { s.cap with xfire := none } } Reg.CAP_X_XFIRE_IN 0)
  | none => .next s

/-- TRIG_OUT_PULSE_END (R253): the width of a pulse on TRIG_OUT[k] is over. -/
def execTrigOutPulseEnd (k : Fin 4) (s : State) : Result :=
  match kvGet? s.cap.tout k with
  | some t => when (decide (t ≤ s.now)) s { s with cap := { s.cap with tout := kvDel s.cap.tout k } }
  | none => .next s

/-! ### Calibration (R232) -/

/-- CAP_CAL_START (R232): a CAP_CAL write with START 1 begins the measurement; it is discarded while BUSY. -/
def execCapCalStart (word : BitVec 32) (s : State) : Result :=
  if !s.barOpen 0x1500D0 || s.on Reg.CAP_CAL_BUSY then .next s else
  let v := word.toNat
  let s := ((s.wr Reg.CAP_CAL_OUT (bits v 24 2)).wr Reg.CAP_CAL_IN_MASK (bits v 16 8)).wr Reg.CAP_CAL_BUSY 1
  let k := bits v 24 2
  let s := { s with cap := { s.cap with cal := some (s.now, []), tout := kvDel s.cap.tout k } }
  .next ((List.range 16).foldl (fun s p => s.emit (.trigOut k (s.now + 10000 * p))) s)

/-- CAP_CAL_DONE (R232): after the 16 pulses, the mean delay of every selected input that saw all of them is written, and
event 135 is raised with the pin. -/
def execCapCalDone (s : State) : Result :=
  match s.cap.cal with
  | none => .next s
  | some (start, sums) =>
    let t := (List.range 8).foldl (fun s n =>
      if !bitOf (s.rd Reg.CAP_CAL_IN_MASK) n then s else
      let (sum, seen) := kvGetD sums n (0, 0)
      if seen = 2 ^ 16 - 1 then
        (s.wr (Reg.CAP_CAL_RES_DELAY n) (sum % 2 ^ 24).toNat).wr (Reg.CAP_CAL_RES_VALID n) 1
      else s.wr (Reg.CAP_CAL_RES_VALID n) 0) s
    let t := State.wr { t with cap := { t.cap with cal := none } } Reg.CAP_CAL_BUSY 0
    when (decide (start + 160000 ≤ s.now)) s (t.capEvent 7 (s.rd Reg.CAP_CAL_OUT))

/-! ### Copying (R240 to R242) -/

/-- The next slice that a record takes: the earliest held in the store after the one last taken, in its highest revision. -/
def State.nextSliceItem (s : State) (c : Nat) : Option Revision :=
  let mine := s.acted.filter (fun v => s.capWants c 0 v.instant (8192 * v.instant))
  mine.foldl (fun best v => match best with
    | none => some v
    | some b => if v.instant < b.instant ∨ (v.instant = b.instant ∧ b.rev < v.rev) then some v else some b) none

/-- Some slice of the window before `t` is still to be released. -/
def State.slicesToCome (s : State) (r : CapRec) (t : Instant) : Bool :=
  s.openSlices.any (fun x => decide (r.start ≤ x.instant) && decide (x.instant ≤ r.stop) && decide (x.instant < t))
    || (s.producing && decide (s.stch.next ≤ r.stop) && decide (s.stch.next < t))

/-- The next sample that a record takes, by instant and then entry. -/
def State.nextSample (s : State) (c : Nat) : Option RawSv :=
  (s.rawSv.filter (s.wantsSample c)).foldl (fun best v => match best with
    | none => some v
    | some b => if 8192 * v.instant + v.entry < 8192 * b.instant + b.entry then some v else some b) none

/-- The record of channel `c` completes when no slice of its window is left to take. -/
def State.capFinish (s : State) (c : Nat) : State :=
  match (s.capChan c).rcd with
  | none => s
  | some r =>
    if (s.nextSliceItem c).isNone && !s.slicesToCome r (r.stop + 1) then s.capComplete c false false else s

/-- CAPTURE_COPY (R240): the next slice or sample of the window is copied once its instant lies SETTLE_MS back. -/
def execCaptureCopy (ch : Fin 8) (s : State) : Result :=
  let c := ch.val
  if s.on Reg.ERR_STAT_FATAL then .next s else
  match (s.capChan c).rcd with
  | none => .next s
  | some r =>
    match r.cfg.capSource with
    | 0 =>
      match s.nextSliceItem c with
      | none => .next (s.capFinish c)
      | some v =>
        when (decide (v.instant + r.cfg.capSettle ≤ s.now) && !s.slicesToCome r v.instant) s
          ((s.capTake c (8192 * v.instant) (.slice v)).capFinish c)
    | 1 =>
      match s.nextSample c with
      | none => .next s
      | some v =>
        when (decide (v.instant + r.cfg.capSettle ≤ s.now)) s
          (s.capTake c (8192 * v.instant + v.entry) (.sample v (s.epochAt v.instant)))
    | _ => .next s

/-- CAPTURE_WINDOW_END (R240): the time base passes the end of a raw record's window, for samples SETTLE_MS later and with
every sample held copied; recording completes. -/
def execCaptureWindowEnd (ch : Fin 8) (s : State) : Result :=
  let c := ch.val
  if s.on Reg.ERR_STAT_FATAL then .next s else
  match (s.capChan c).rcd with
  | none => .next s
  | some r =>
    let ended := match r.cfg.capSource with
      | 0 => false
      | 1 => decide (r.stop + r.cfg.capSettle < s.now) && (s.nextSample c).isNone
      | _ => decide (r.stop < s.now)
    when ended s (s.capComplete c false false)

/-! ### Drain (R246, R325) -/

/-- The bytes of a cause entry (R245). -/
def CapCause.image (k : CapCause) : List Byte :=
  instBytes k.time ++ leBytes 2 k.trigger ++ leBytes 1 k.rev ++ leBytes 1 (natOf k.late) ++ leBytes 2 0

/-- The instant of an item. -/
def CapItem.instant : CapItem → Instant
  | .slice r => r.instant
  | .sample v _ => v.instant
  | .frame f => f.ts

/-- The bytes of an item (R245). -/
def CapItem.image : CapItem → List Byte
  | .slice r => r.bytes
  | .sample v epoch =>
    instBytes v.instant ++ leBytes 2 v.entry ++ leBytes 2 v.smpCnt ++ leBytes 1 v.values.length ++ leBytes 1 v.q ++ leBytes 4 epoch
      ++ leBytes 4 0 ++ (v.values.map (fun x => beBytes 4 x.1.toNat ++ beBytes 4 x.2.toNat)).flatten
  | .frame f =>
    instBytes f.ts ++ leBytes 1 f.port ++ leBytes 1 (natOf f.snapped + 2 * natOf f.fcsErr) ++ leBytes 2 f.wireLen ++ leBytes 2 f.capLen
      ++ List.replicate 16 0 ++ (f.bytes ++ List.replicate ((f.capLen + 7) / 8 * 8) 0).take ((f.capLen + 7) / 8 * 8)

/-- An item in its place of the payload: frames stand in order of their time-stamps (R245). -/
def payloadInsert (l : List CapItem) (i : CapItem) : List CapItem :=
  l.filter (fun x => decide (x.instant ≤ i.instant)) ++ i :: l.filter (fun x => decide (i.instant < x.instant))

/-- The bytes of a record of channel `c` (R244, R245). -/
def CapRec.image (r : CapRec) (c : Nat) : List Byte :=
  let items := if r.cfg.capSource = 2 then r.items.foldl payloadInsert [] else r.items
  let first := match items.head? with | some i => i.instant | none => 0
  let last := match items.getLast? with | some i => i.instant | none => 0
  let primary := (r.causes.map (·.trigger)).foldl min 271
  let h := leBytes 4 0x52504143 ++ leBytes 2 1 ++ leBytes 1 c ++ leBytes 1 r.cfg.capSource ++ leBytes 4 r.seq
    ++ leBytes 2 (natOf r.cfg.capGuar + 2 * natOf r.overflow + 4 * natOf r.preShort + 8 * natOf r.aborted
        + 16 * natOf (r.causes.any (fun k => k.late)) + 32 * natOf r.xfireSent)
    ++ leBytes 2 primary ++ leBytes 4 r.mask ++ leBytes 4 r.epoch ++ instBytes r.tp ++ leBytes 1 r.causes.length ++ leBytes 1 0
    ++ leBytes 8 r.dead ++ leBytes 4 r.missed ++ leBytes 4 (r.cfg.at 20 4) ++ leBytes 4 (r.cfg.at 24 4)
    ++ instBytes first ++ leBytes 2 0 ++ instBytes last ++ leBytes 2 0 ++ leBytes 4 items.length ++ leBytes 8 r.bytes
    ++ leBytes 4 r.lost ++ instBytes r.done ++ List.replicate 18 0
  h ++ leBytes 4 (crc32 h) ++ (r.causes.map CapCause.image).flatten ++ (items.map CapItem.image).flatten

/-- A capture completion (R325). -/
def captureCpl (c nbuf len : Nat) : Nat := Status.ok.code + 2 ^ 8 * c + 2 ^ 32 * nbuf + 2 ^ 64 * len

/-- The drain of channel `c` waits: event 133, once for each wait. -/
def State.drainWaits (s : State) (c : Nat) : State :=
  let x := s.capChan c
  if x.waiting then s else (s.setCapChan c { x with waiting := true }).capEvent 5 c

/-- When the first record to drain of channel `c` completed, where its ring is `ring`. -/
def State.drainFrom (s : State) (ring c : Nat) : Option Instant :=
  match (s.capChan c).queue with
  | r :: _ => if r.cfg.at 1 1 = ring then some r.done else none
  | [] => none

/-- The channel whose record is drained next to a ring that several share: one whose record is there in part, else the record
completed first. -/
def State.drainer (s : State) (ring : Nat) : Option Nat :=
  let cs := capChans.filter (fun c => (s.drainFrom ring c).isSome)
  match cs.find? (fun c => decide (0 < (s.capChan c).drained)) with
  | some c => some c
  | none => cs.foldl (fun best c => match best with
      | none => some c
      | some b => if (s.drainFrom ring c).getD 0 < (s.drainFrom ring b).getD 0 then some c else some b) none

/-- CAPTURE_DRAIN (R246, R316, R345, R352): the first record to drain fills the buffers its ring has; with the last one
its completion is produced.  Without a buffer, or on a fault, the drain waits; a record whose ring serves no capture is
discarded. -/
def execCaptureDrain (ch : Fin 8) (dma : Dma) (s : State) : Result :=
  let c := ch.val
  let x := s.capChan c
  if s.on Reg.ERR_STAT_FATAL then .next s else
  match x.queue with
  | [] => .next s
  | r :: rest =>
    let ring := r.cfg.at 1 1
    let size := s.bufSize ring
    let need := (r.len + size - 1) / size
    let have_ := s.buffers ring
    if !s.ringIs ring 4 then
      .next ((s.setCapChan c { x with queue := rest, drained := 0, waiting := false }).bump .hif C.HIF_MISROUTED ring)
    else if !s.hostUp || !s.chanFree ring || s.drainer ring != some c then .next s
    else if have_ = 0 then .next (s.drainWaits c)
    else
      let n := min (need - x.drained) have_
      let first := (s.rd (Reg.HIF_RING_STAT_SQ_HEAD ring) + 65536 - x.drained % 65536) % 65536
      let (ok, t) := s.dma ring 1 true first (x.drained + min n (dma.offset / size + 1))
        (s.bufferAddr ring (dma.offset / size)) ⟨dma.offset % size, dma.walk⟩
      if !ok then .next (t.drainWaits c) else
      let t := t.takeBuffers ring n
      if x.drained + n < need then .next (t.setCapChan c { x with drained := x.drained + n, waiting := false })
      else
        let t := t.setCapChan c { x with queue := rest, drained := 0, waiting := false, sent := x.sent ++ [r] }
        .next ((t.emit (.capture ring need c (r.image c))).complete ring (captureCpl c need r.len))

/-! ### SCHEDULE (R36, R37, R248, R331) -/

/-- The grace of a GRACE field in nanoseconds (R37). -/
def State.graceNs (s : State) (g : Nat) : Nat :=
  1000000 * (if g = 0 then s.rd Reg.GLB_GRACE_GRACE_MS else if g = 0xFFFF then 0 else g)

/-- When an action scheduled for `t` takes place, accepted now (R36): at `t`, late at the next slice boundary, or not at
all. -/
def State.scheduleAt (s : State) (t : Instant) (g : Nat) : Option (Instant × Bool) :=
  if s.now ≤ t then some (t, false)
  else if s.now - t ≤ s.graceNs g then some (gridFrom s.act.fs (s.now + 1), true)
  else none

/-- A SCHEDULE is accepted or refused (R36, R331). -/
def State.schedule (s : State) (tag action : Nat) (ch : Nat) (t g : Nat) : State :=
  if s.now + 3600 * nsPerS < t then s.mgmtDone .schedule tag .invalid
  else if 32 ≤ s.hif.schedules.length then s.mgmtDone .schedule tag .busy
  else match s.scheduleAt t g with
    | none => s.mgmtDone .schedule tag .past
    | some (due, late) =>
      State.mgmtStart { s with hif := { s.hif with schedules := s.hif.schedules ++ [⟨tag, action, ch, due, late⟩] } } .schedule tag

/-- SCHEDULE_FIRE (R248, R331). -/
def execScheduleFire (tag : BitVec 16) (ch : Fin 8) (at_ : Nat) (grace : BitVec 16) (s : State) : Result :=
  s.served .schedule tag (.next (s.schedule tag.toNat 0 ch at_ grace.toNat))

/-- SCHEDULE_ARM (R331). -/
def execScheduleArm (tag : BitVec 16) (ch : Fin 8) (at_ : Nat) (grace : BitVec 16) (s : State) : Result :=
  s.served .schedule tag (.next (s.schedule tag.toNat 1 ch at_ grace.toNat))

/-- SCHEDULE_DISARM (R331). -/
def execScheduleDisarm (tag : BitVec 16) (ch : Fin 8) (at_ : Nat) (grace : BitVec 16) (s : State) : Result :=
  s.served .schedule tag (.next (s.schedule tag.toNat 2 ch at_ grace.toNat))

/-- LATE takes the place of OK (R331). -/
def Status.orLate (st : Status) (late : Bool) : Status := if late && st == .ok then .late else st

/-- SCHEDULE_DUE (R36, R248, R331): the first pending SCHEDULE whose instant or boundary is reached takes place and
completes (R333). -/
def execScheduleDue (s : State) : Result :=
  match s.hif.schedules.find? (fun x => decide (x.due ≤ s.now)) with
  | none => .next s
  | some x =>
    let s := { s with hif := { s.hif with schedules := s.hif.schedules.erase x } }
    let (st, s) := match x.action with
      | 0 =>
        let (f, s) := s.capTrigger x.chan [⟨x.due, 10, 0, x.late⟩] (s.trigPoint x.due)
        let done := decide (f = Fired.fired ∨ f = Fired.merged)
        (if done then Status.ok else .degraded, if x.late && done then s.capEvent 9 x.chan else s)
      | 1 => s.capArm x.chan
      | _ => s.capDisarm x.chan
    .next (s.mgmtDone .schedule x.tag (st.orLate x.late) (x.due % nsPerS + 2 ^ 32 * (x.due / nsPerS % 2 ^ 32)))

end Sys2Proof.Machine
end

