-- ==== Sys2Proof/Machine/Hjel.lean ====
section
/-!
DEFINITION. The digests that the units of a pair compare (R372).
-/
namespace Sys2Proof.Machine
open Sys2Proof

/-! ### Digests (R372) -/

/-- Messages kept for comparison. -/
def digestKeep : Nat := 64

/-- A list with one more entry, its oldest dropped beyond `digestKeep`. -/
def keepLast {α : Type} (l : List α) (x : α) : List α := (l ++ [x]).drop (l.length + 1 - digestKeep)

/-- Revision 0 of an instant, and of the 32 slices before it, was COMPLETE, and no material revision of them was acted on. -/
def State.runUnbroken (s : State) (t : Instant) : Bool :=
  let fs := (s.cfgAt t).fs
  ((List.range 32).foldl (fun (acc : Bool × Instant) _ =>
    let u := gridPrev fs acc.2
    (acc.1 && kvGetD s.pair.clean u false, u)) (kvGetD s.pair.clean t false, t)).1

/-- An own message and the partner's of the same instant and epoch are compared: a difference is counted, raised and
reported, and changes the state of neither unit (R384). -/
def State.compareDigests (s : State) (a b : DigestMsg) : State :=
  if !(a.complete && b.complete) then s.bump .pair C.PAIR_DIGEST_SKIPPED else
  let s := State.bump { s with pair := { s.pair with cmpAt := s.now } } .pair C.PAIR_DIGEST_CMP
  if a.digest != b.digest || (a.run && b.run && a.safeOut != b.safeOut) then
    ((s.bump .pair C.PAIR_DIGEST_MISMATCH).pairEvent 7).reportFree
  else s

/-- ISL acts on a revision (R372): a revision 0 is noted with the message that its decisions complete, a material one ends the
unbroken run. -/
def State.digestNote (s : State) (v : Revision) : State :=
  if !s.pairMode then s else
  let clean := (kvSet s.pair.clean v.instant (v.rev == 0 && v.complete))
  let s := { s with pair := { s.pair with clean := clean.drop (clean.length - digestKeep) } }
  if v.rev ≠ 0 then s else
  let d : DigestMsg := ⟨v.instant, v.complete, s.runUnbroken v.instant, v.epoch,
    sha256 (v.recBytes), 0⟩
  { s with pair := { s.pair with due := keepLast s.pair.due d } }

/-- The decisions on revision 0 of an instant are made: the message leaves with the SAFETY outputs asserted, and meets the
partner's where that came first. -/
def State.digestSend (s : State) (t : Instant) (safeOut : Nat) : State :=
  match s.pair.due.find? (fun d => d.instant == t) with
  | none => s
  | some d =>
    let m := { d with safeOut }
    let s := State.toPeer { s with pair := { s.pair with due := s.pair.due.erase d } } 0 (.digest m)
    match s.pair.peers.find? (fun p => p.instant == t && p.epoch == m.epoch) with
    | some p => State.compareDigests { s with pair := { s.pair with peers := s.pair.peers.erase p } } m p
    | none => { s with pair := { s.pair with own := keepLast s.pair.own m } }

/-- DIGEST (R372): the partner's message for a revision 0 arrives and is compared with the unit's own, once that is there. -/
def execDigest (msg : DigestMsg) (s : State) : Result :=
  if !s.pairMode then .next s else
  match s.pair.own.find? (fun d => d.instant == msg.instant && d.epoch == msg.epoch) with
  | some d => .next (State.compareDigests { s with pair := { s.pair with own := s.pair.own.erase d } } d msg)
  | none => .next { s with pair := { s.pair with peers := keepLast s.pair.peers msg } }

/-- DIGEST_TIMEOUT (R372): 10 s without a compared slice. -/
def execDigestTimeout (s : State) : Result :=
  when (s.pairMode && decide (s.pair.cmpAt + 10 * nsPerS ≤ s.now)) s
    (State.pairEvent { s with pair := { s.pair with cmpAt := s.now } } 9)

end Sys2Proof.Machine
end

