-- ==== Sys2Proof/Machine/Lse.lean ====
section
/-!
DEFINITION. Topology processing and linear state estimation (spec/08): switch states, labelling, factors, observability
and estimates.
-/
namespace Sys2Proof.Machine
open Sys2Proof

/-! ### The network model (R156 to R160) -/

def Rec.nodeOn (r : Rec) : Bool := r.bitAt 12 7
def Rec.branchOn (r : Rec) : Bool := r.bitAt 4 7
def Rec.switchOn (r : Rec) : Bool := r.bitAt 7 7
def Rec.measOn (r : Rec) : Bool := r.bitAt 6 7

/-- Enabled nodes, branches, switching devices and measurements, by number. -/
def Cfg.nodes (c : Cfg) : List (Nat × Rec) := (c.listed 5).filter (fun e => e.2.nodeOn)
def Cfg.branches (c : Cfg) : List (Nat × Rec) := (c.listed 6).filter (fun e => e.2.branchOn)
def Cfg.switches (c : Cfg) : List (Nat × Rec) := (c.listed 7).filter (fun e => e.2.switchOn)
def Cfg.meas (c : Cfg) : List (Nat × Rec) := (c.listed 8).filter (fun e => e.2.measOn)

/-- What a factor rests on: the network-model tables and BD_EN (R171). -/
def Cfg.lseModel (c : Cfg) : KV Rec :=
  c.tabs.filter (fun e => let t := e.1 / 2 ^ 20; decide (5 ≤ t) && decide (t ≤ 8)) ++ [(0, ⟨0, c.fld Reg.LSE_CTL_BD_EN⟩)]

/-- LSE raises source `96 + k` with an index (R176). -/
def State.lseEvent (s : State) (k i : Nat) : State := s.raise (96 + k) [(Reg.LSE_EVT_IDX_INDEX k, i)]

/-! ### Switch states (R161) -/

/-- A device before anything was known of it. -/
def SwState.init (r : Rec) : SwState := ⟨none, r.bitAt 7 6, 0⟩

/-- What a revision's record says of a device: `none` for an unknown value. -/
def switchValue (r : Rec) (x : SRec) : Option Bool :=
  let w := (x.digitals[r.bitsAt 6 4 2]?).getD 0
  let b := r.bitsAt 6 0 4
  if !x.present || bitOf x.quality 0 then none else
  match r.bitsAt 7 0 3 with
  | 2 => some (bitOf w b)
  | 3 => some (!bitOf w b)
  | 4 => (match bits w b 2 with | 2 => some true | 1 => some false | _ => none)
  | _ => none

/-- Device `d` after a revision: its state, and whether it is UNCERTAIN. -/
def switchStep (old : SwState) (r : Rec) (v : Revision) : SwState :=
  match r.bitsAt 7 0 3 with
  | 0 => ⟨old.known, false, 0⟩
  | 1 => ⟨old.known, true, 0⟩
  | _ =>
    match switchValue r (kvGetD v.recs (r.at 4 2) SRec.absent) with
    | some b =>
      let newer := match old.known with | some (t, _) => decide (t ≤ v.instant) | none => true
      ⟨if newer then some (v.instant, b) else old.known, b, 0⟩
    | none =>
      let last := match old.known with | some (_, b) => b | none => r.bitAt 7 6
      ⟨old.known, last, min 65535 (old.uncSlices + 1)⟩

/-- LSE_SW_STAT shows the device that LSE_SW_SEL names (R177). -/
def State.swView (s : State) : State :=
  let d := s.rd Reg.LSE_SW_SEL_SW
  let x := match kvGet? s.lse.switches d with | some x => x | none => ⟨none, false, 0⟩
  ((s.wrB Reg.LSE_SW_STAT_UNCERTAIN (decide (0 < x.uncSlices))).wrB Reg.LSE_SW_STAT_CLOSED x.closed).wr
    Reg.LSE_SW_STAT_UNC_SLICES x.uncSlices

/-- A device of two configurations is the same: NODE_A, NODE_B, ENTRY, BIT and encoding agree (R161). -/
def sameSwitch (a b : Cfg) (d : Nat) : Bool :=
  let x := a.tab 7 d
  let y := b.tab 7 d
  bits x.val 0 56 == bits y.val 0 56 && x.bitsAt 7 0 3 == y.bitsAt 7 0 3

/-- The states of the devices of configuration `k` after a revision of configuration `c`: those of the devices that are the same in
both follow it. -/
def switchMap (c k : Cfg) (v : Revision) (m : KV SwState) : KV SwState :=
  (c.switches.filter (fun d => (k.tab 7 d.1).switchOn && sameSwitch c k d.1)).foldl
    (fun m d => kvSet m d.1 (switchStep ((kvGet? m d.1).getD (SwState.init d.2)) d.2 v)) m

/-- Device states under the configuration of a revision: the active copy's, or an earlier one's. -/
def State.switchStates (s : State) (v : Revision) : KV SwState :=
  if v.epoch = s.rd Reg.GLB_EPOCH_EPOCH then s.lse.switches else s.lse.swOld

/-- State of device `d` under the configuration of a revision. -/
def State.switchState (s : State) (c : Cfg) (v : Revision) (d : Nat) : SwState :=
  (kvGet? (s.switchStates v) d).getD (SwState.init (c.tab 7 d))

/-- The states of every enabled device after revision `v`; a device that becomes UNCERTAIN raises event 101.  The revision counts under
the active copy and under the retiring one for the devices that it shares with them. -/
def State.setSwitches (s : State) (c : Cfg) (v : Revision) : State :=
  let before (d : Nat) := s.switchState c v d
  let s := { s with lse := { s.lse with
    switches := switchMap c s.act v s.lse.switches
    swOld := match s.ret with | some r => switchMap c r.cfg v s.lse.swOld | none => s.lse.swOld } }
  let unc := c.switches.filter (fun d => decide (0 < (s.switchState c v d.1).uncSlices))
  let s := s.wr Reg.LSE_TOPO_NUNC unc.length
  let s := (unc.filter (fun d => (before d.1).uncSlices == 0)).foldl (fun s d => s.lseEvent 5 d.1) s
  s.swView

/-! ### Labelling (R162) -/

/-- Labels after `a` and `b` are joined: the higher label gives way to the lower one. -/
def joinLabels (m : List (Nat × Nat)) (a b : Nat) : List (Nat × Nat) :=
  match kvGet? m a, kvGet? m b with
  | some x, some y => if x = y then m else m.map (fun e => if e.2 = max x y then (e.1, min x y) else e)
  | _, _ => m

/-- Island number of a node on an EARTHED bus or not enabled. -/
def noIsland : Nat := 0xFFFF

/-- The ends of a branch lie on different buses, neither of them earthed: the two buses. -/
def branchEnds (bus : List (Nat × Nat)) (earthed : List Nat) (r : Rec) : Option (Nat × Nat) :=
  match kvGet? bus (r.at 0 2), kvGet? bus (r.at 2 2) with
  | some x, some y => if x = y ∨ earthed.contains x ∨ earthed.contains y then none else some (x, y)
  | _, _ => none

/-- The labels of every enabled node under the given switch states. -/
def labelNodes (c : Cfg) (closed : Nat → Bool) (uncertain : Nat → Bool) : List NodeLabel :=
  let shut := c.switches.filter (fun d => closed d.1)
  let bus := (shut.filter (fun d => d.2.at 2 2 != 0xFFFF)).foldl (fun m d => joinLabels m (d.2.at 0 2) (d.2.at 2 2))
    (c.nodes.map (fun n => (n.1, n.1)))
  let earthed := (shut.filter (fun d => d.2.at 2 2 == 0xFFFF)).filterMap (fun d => kvGet? bus (d.2.at 0 2))
  let isl := (c.branches.filterMap (fun b => branchEnds bus earthed b.2)).foldl (fun m e => joinLabels m e.1 e.2)
    ((bus.filter (fun e => e.1 == e.2)).map (fun e => (e.1, e.1)))
  let touched := (c.switches.filter (fun d => uncertain d.1)).map (fun d =>
    [kvGet? bus (d.2.at 0 2), kvGet? bus (d.2.at 2 2)].filterMap id)
  bus.map (fun e =>
    let dead := earthed.contains e.2
    ⟨e.1, e.2, if dead then noIsland else kvGetD isl e.2 noIsland, dead, touched.flatten.contains e.2⟩)

/-- The topology of labels: node, bus, island. -/
def topoOf (l : List NodeLabel) : List (Nat × Nat × Nat) := l.map (fun x => (x.node, x.bus, x.island))

/-- The numbers that occur, each once. -/
def distinct (l : List Nat) : List Nat := l.foldl setAdd []

/-! ### Observability (R166) -/

/-- Buses of a topology that have a state. -/
def liveBuses (topo : List (Nat × Nat × Nat)) : List Nat :=
  distinct ((topo.filter (fun x => x.2.2 != noIsland)).map (fun x => x.2.1))

/-- The bus of a node in a topology, none when it is not enabled or EARTHED. -/
def busIn (topo : List (Nat × Nat × Nat)) (n : Nat) : Option Nat :=
  (topo.find? (fun x => x.1 == n && x.2.2 != noIsland)).map (fun x => x.2.1)

/-- The two buses of branch `b` where it is in service between different buses. -/
def endsIn (model : Cfg) (topo : List (Nat × Nat × Nat)) (b : Nat) : Option (Nat × Nat) :=
  let r := model.tab 6 b
  if !r.branchOn then none else
  match busIn topo (r.at 0 2), busIn topo (r.at 2 2) with
  | some x, some y => if x = y then none else some (x, y)
  | _, _ => none

/-- A bus has zero injection: every one of its nodes has ZERO_INJ and a ZI_SIGMA above 0 (R163). -/
def zeroInj (model : Cfg) (topo : List (Nat × Nat × Nat)) (bus : Nat) : Bool :=
  (topo.filter (fun x => x.2.1 == bus)).all (fun x =>
    let r := model.tab 5 x.1
    r.bitAt 12 0 && fpLt 0 (BitVec.ofNat 32 (r.at 8 4)))

/-- Measurement `m` lies on an EARTHED bus or is out of service: it is not used (R164). -/
def measDead (model : Cfg) (topo : List (Nat × Nat × Nat)) (m : Nat) : Bool :=
  let r := model.tab 8 m
  if r.at 3 1 = 0 then (busIn topo (r.at 4 2)).isNone
  else
    let b := model.tab 6 (r.at 4 2)
    (busIn topo (b.at 0 2)).isNone || (busIn topo (b.at 2 2)).isNone

/-- The buses that one round of the rules of R166 makes observable beyond `obs`. -/
def observeOnce (model : Cfg) (topo : List (Nat × Nat × Nat)) (set obs : List Nat) : List Nat :=
  let byMeas := set.filterMap (fun m =>
    let r := model.tab 8 m
    if r.at 3 1 = 0 then busIn topo (r.at 4 2)
    else match endsIn model topo (r.at 4 2) with
      | some (x, y) => if obs.contains x then some y else if obs.contains y then some x else none
      | none => none)
  let ends := (model.branches.filterMap (fun b => endsIn model topo b.1))
  let byZero := (liveBuses topo).filterMap (fun b =>
    if !zeroInj model topo b then none else
    let all := distinct (b :: (ends.filterMap (fun e => if e.1 = b then some e.2 else if e.2 = b then some e.1 else none)))
    match all.filter (fun x => !obs.contains x) with
    | [x] => some x
    | _ => none)
  (byMeas ++ byZero).foldl setAdd obs

/-- Propagation until no further bus becomes observable. -/
def observe (model : Cfg) (topo : List (Nat × Nat × Nat)) (set : List Nat) : Nat → List Nat → List Nat
  | 0, obs => obs
  | n + 1, obs =>
    let o := observeOnce model topo set obs
    if o = obs then obs else observe model topo set n o

/-- Live buses that the factored set leaves unobservable. -/
def unobservable (model : Cfg) (topo : List (Nat × Nat × Nat)) (set : List Nat) : List Nat :=
  let live := liveBuses topo
  let obs := observe model topo set live.length []
  live.filter (fun b => !obs.contains b)

/-- A measurement involves only buses that are not observable. -/
def measLost (model : Cfg) (topo : List (Nat × Nat × Nat)) (unobs : List Nat) (m : Nat) : Bool :=
  let r := model.tab 8 m
  let bs := if r.at 3 1 = 0 then [busIn topo (r.at 4 2)]
    else [busIn topo ((model.tab 6 (r.at 4 2)).at 0 2), busIn topo ((model.tab 6 (r.at 4 2)).at 2 2)]
  (bs.filterMap id).all (fun b => unobs.contains b)

/-- A configuration that holds a factor's model. -/
def modelCfg (m : KV Rec) : Cfg := ⟨[], m⟩

/-! ### The measurement model (R163) -/

/-- An FP32 field of a record as a number. -/
def Rec.real (r : Rec) (o : Nat) : Rat := realOf (BitVec.ofNat 32 (r.at o 4))

/-- An equation of the model: its measurement record, none for a pseudo-measurement, its row of H by bus, and σ². -/
structure LseRow where
  meas : Option Nat
  h : List (Nat × Cx)
  var : Rat
  deriving DecidableEq

/-- The rows of the currents that leave the two ends of a branch in service between buses `f` and `t`.  Of a branch with both ends on one
bus the shunt terms alone count (R162). -/
def branchRows (r : Rec) (f t : Nat) : List (Nat × Cx) × List (Nat × Cx) :=
  let y : Cx := ⟨r.real 8, r.real 12⟩
  let ysh : Cx := ⟨0, r.real 16 / 2⟩
  let m := r.real 20
  let ratio := Cx.scale m (Cx.turn (r.real 24 / 360))
  let own := if f = t then ysh else y.add ysh
  let far (d : Cx) := Cx.scale (-1) (y.div d)
  if f = t then ([(f, Cx.scale (1 / (m * m)) own)], [(t, own)])
  else ([(f, Cx.scale (1 / (m * m)) own), (t, far ratio.conj)], [(f, far ratio), (t, own)])

/-- The buses of a branch in service (R162). -/
def branchBuses (topo : List (Nat × Nat × Nat)) (r : Rec) : Option (Nat × Nat) :=
  match busIn topo (r.at 0 2), busIn topo (r.at 2 2) with
  | some x, some y => some (x, y)
  | _, _ => none

/-- The row of a measurement; none where its object has no state. -/
def measRow (model : Cfg) (topo : List (Nat × Nat × Nat)) (m : Nat) : Option LseRow :=
  let r := model.tab 8 m
  let var := r.real 8 * r.real 8
  match r.at 3 1 with
  | 0 => (busIn topo (r.at 4 2)).map (fun b => ⟨some m, [(b, ⟨1, 0⟩)], var⟩)
  | ty =>
    let b := model.tab 6 (r.at 4 2)
    (branchBuses topo b).map (fun e => ⟨some m, if ty = 1 then (branchRows b e.1 e.2).1 else (branchRows b e.1 e.2).2, var⟩)

/-- The pseudo-measurement of a bus with zero injection: the currents of its shunts and those leaving it into every branch in service,
with the least ZI_SIGMA of its nodes. -/
def zeroRow (model : Cfg) (topo : List (Nat × Nat × Nat)) (bus : Nat) : LseRow :=
  let nodes := (topo.filter (fun x => x.2.1 == bus)).map (fun x => model.tab 5 x.1)
  let shunts := nodes.map (fun n => (bus, (⟨n.real 0, n.real 4⟩ : Cx)))
  let lines := model.branches.filterMap (fun b => (branchBuses topo b.2).map (fun e =>
    let (f, t) := branchRows b.2 e.1 e.2
    (if e.1 = bus then f else []) ++ (if e.2 = bus then t else [])))
  let sigma := match nodes.map (fun n => n.real 8) with | x :: l => l.foldl min x | [] => 0
  ⟨none, shunts ++ lines.flatten, sigma * sigma⟩

/-- The coefficient of a bus in a row. -/
def LseRow.coef (r : LseRow) (b : Nat) : Cx := Cx.sum ((r.h.filter (fun e => e.1 == b)).map (·.2))

/-- The buses that a row involves. -/
def LseRow.buses (r : LseRow) : List Nat := distinct (r.h.map (·.1))

/-- The equations of a factored model: its observable buses in the order of elimination, and its rows.  Unobservable buses are
removed, and with them the rows that involve no other. -/
structure LseSys where
  buses : List Nat
  rows : List LseRow

/-- A list in the order given, where that names its members; the rest follow. -/
def arrange (order l : List Nat) : List Nat :=
  let first := (distinct order).filter l.contains
  first ++ l.filter (fun x => !first.contains x)

/-- The equations of a model (R163, R166). -/
def lseSys (model : Cfg) (topo : List (Nat × Nat × Nat)) (set unobs : List Nat) : LseSys :=
  let live := liveBuses topo
  let obs := live.filter (fun b => !unobs.contains b)
  let rows := set.filterMap (measRow model topo) ++ (live.filter (zeroInj model topo)).map (zeroRow model topo)
  let rows := (rows.map (fun r => { r with h := r.h.filter (fun e => obs.contains e.1) })).filter (fun r => !r.h.isEmpty)
  ⟨arrange (Config.lseOrder obs (rows.map LseRow.buses)) obs, rows⟩

/-- `h · x` over the buses of a system. -/
def LseSys.apply (q : LseSys) (r : LseRow) (x : List Cx) : Cx := Cx.sum (List.zipWith (fun b v => (r.coef b).mul v) q.buses x)

/-- The gain matrix G (R163). -/
def LseSys.gain (q : LseSys) : List (List Cx) :=
  q.buses.map (fun a => q.buses.map (fun b =>
    Cx.sum (q.rows.map (fun r => Cx.scale (1 / r.var) ((r.coef a).conj.mul (r.coef b))))))

/-- The pivots of G, and G⁻¹ hᴴ for every row, none where a pivot is 0. -/
def LseSys.inverse (q : LseSys) : Option (List Rat × List (List Cx)) :=
  let rows := List.zipWith (fun g b => g ++ q.rows.map (fun r => (r.coef b).conj)) q.gain q.buses
  (cxSolve q.buses.length rows).map (fun s => (s.1, (List.range q.rows.length).map (fun i => s.2.map (fun l => l.getD i Cx.zero))))

/-- Columns of the factor L: for every bus in its order, the later buses that it meets, those of the buses eliminated before it
included. -/
def fillColumns : List Nat → List (List Nat) → List (List Nat)
  | [], _ => []
  | b :: l, cliques =>
    let mine := cliques.filter (fun c => c.contains b)
    let col := (distinct mine.flatten).filter (fun x => x != b)
    col :: fillColumns l (col :: cliques.filter (fun c => !c.contains b))

/-- The bytes of L (R166), none where a pivot falls below 10⁻¹² of the largest diagonal entry of G.  How the device orders and stores L
is its own. -/
def lseFactor (q : LseSys) : Option Nat :=
  let top := ((q.gain.zipIdx).map (fun (g, i) => (g.getD i Cx.zero).re)).foldl max 0
  match q.inverse with
  | none => none
  | some (piv, _) =>
    if piv.any (fun d => decide (d < top / 1000000000000)) then none
    else some (Config.lseBytes (fillColumns q.buses (q.rows.map LseRow.buses)))

/-! ### Solving (R166 to R168) -/

/-- A solution: the voltages by bus, for every measurement present or removed its rN² (none where it is critical) and its residual,
and J. -/
structure LseAnswer where
  x : List (Nat × Cx)
  residuals : List (Nat × Option Rat × Cx)
  j : Rat

/-- The estimate over the rows with a value (R167): `y0` from them, corrected for the rows without; none where the least pivot of C is
below 10⁻⁶ of their least σ². -/
def LseSys.solve (q : LseSys) (y : List (List Cx)) (z : LseRow → Option Cx) : Option (List Cx) :=
  let all := q.rows.zip y
  let zero := q.buses.map (fun _ => Cx.zero)
  let add (a b : List Cx) := List.zipWith Cx.add a b
  let y0 := all.foldl (fun acc e => match z e.1 with
    | some v => add acc (e.2.map (fun c => (Cx.scale (1 / e.1.var) v).mul c))
    | none => acc) zero
  let gone := all.filter (fun e => (z e.1).isNone)
  match gone with
  | [] => some y0
  | e :: l =>
    let least := l.foldl (fun m e => min m e.1.var) e.1.var
    let c := gone.map (fun a => gone.map (fun b =>
      (if a.1 = b.1 then (⟨a.1.var, 0⟩ : Cx) else Cx.zero).sub (q.apply a.1 b.2)) ++ [q.apply a.1 y0])
    match cxSolve gone.length c with
    | none => none
    | some (piv, k) =>
      if piv.any (fun d => decide (d < least / 1000000)) then none
      else some ((gone.zip k).foldl (fun acc e => add acc (e.1.2.map (fun v => v.mul (e.2.headD Cx.zero)))) y0)

/-- One pass over a model (R167, R168): `z` gives the values of the measurements present, `bad` are removed. -/
def lsePass (q : LseSys) (z : Nat → Option Cx) (bad : List Nat) : Option LseAnswer :=
  match q.inverse with
  | none => none
  | some (_, y) =>
    let value (r : LseRow) : Option Cx := match r.meas with
      | none => some Cx.zero
      | some m => if bad.contains m then none else z m
    (q.solve y value).map (fun x =>
      let resid (r : LseRow) (v : Cx) := v.sub (q.apply r x)
      ⟨q.buses.zip x,
        (q.rows.zip y).filterMap (fun e => match e.1.meas with
          | none => none
          | some m => (z m).map (fun v =>
            let omega := e.1.var - (q.apply e.1 e.2).re
            let r := resid e.1 v
            (m, if omega * 10000 < e.1.var then none else some (r.sq / omega), r))),
        (q.rows.map (fun r => match value r with | some v => (resid r v).sq / r.var | none => 0)).sum⟩)

/-! ### Factors (R165, R166, R169, R170) -/

/-- The most bytes that L may need (R166). -/
def lseMaxBytes : Nat := 21021000

/-- The factored set of a configuration: the enabled measurements that have not left it (R165). -/
def State.factoredSet (s : State) (c : Cfg) : List Nat := (c.meas.map (·.1)).filter (fun m => !s.lse.left.contains m)

/-- Registers that show the current factor (R177). -/
def State.factorRegs (s : State) : State :=
  let s := s.wr Reg.LSE_STAT_FACTORS s.lse.factors.length
  match s.lse.factors with
  | [] => ((s.wr Reg.LSE_FACTOR_FACTOR_ID 0).wr Reg.LSE_FACTOR_BYTES_BYTES 0).wr Reg.LSE_STAT_PENDING 0
  | f :: _ =>
    let lost := (f.topo.filter (fun x => f.unobs.contains x.2.1)).length
    (((s.wr Reg.LSE_FACTOR_FACTOR_ID f.id).wr Reg.LSE_FACTOR_BYTES_BYTES f.bytes).wr Reg.LSE_STAT_NUNOBS lost).wrB
      Reg.LSE_STAT_PENDING (s.lse.topo != f.topo)

/-- A refactorisation of the active model starts for the newest topology and the set given, or is held while
one runs (R169).  A revision of an earlier epoch with another model triggers none. -/
def State.refactor (s : State) (c : Cfg) (set : List Nat) : State :=
  if c.lseModel ≠ s.act.lseModel then s else
  match s.lse.running with
  | some _ => { s with lse := { s.lse with held := true } }
  | none =>
    State.wr { s with lse := { s.lse with running := some ⟨c.lseModel, s.lse.topo, set, s.now, false⟩ } }
      Reg.LSE_STAT_REFACTOR_BUSY 1

/-- The topology of the newest slice differs from that of the newest factor, or of the refactorisation that runs: a
refactorisation is triggered (R169).  One that runs for the shadow model stands for the factor of the epoch to come only. -/
def State.checkTopo (s : State) (c : Cfg) : State :=
  let same : Bool := match s.lse.running.filter (fun r => !r.shadow), s.lse.factors with
    | some r, _ => decide (r.topo = s.lse.topo)
    | none, f :: _ => decide (f.topo = s.lse.topo)
    | none, [] => false
  if same || c.lseModel != s.act.lseModel then s
  else ((s.bump .lse C.LSE_TOPO_CHANGES).lseEvent 0 0).refactor c (s.factoredSet c)

/-- TOPOLOGY_LABEL (R148, R161, R162, R169): switch states and labels of the next revision that waits for them; the labels
are kept for ISL, and an estimate follows where LSE_CTL.EN is 1. -/
def execTopologyLabel (s : State) : Result :=
  match s.stch.work.find? (fun w => w.who == .topo) with
  | none => .next s
  | some w =>
    let v := w.rev
    let c := s.cfgRev v
    let en := c.fld Reg.LSE_CTL_EN == 1
    let s := { s with stch := { s.stch with
      work := s.stch.work.erase w ++ (if en then [⟨.lse, v⟩] else []) } }
    if c.nodes.isEmpty then .next s else
    let s := s.setSwitches c v
    let st (d : Nat) := s.switchState c v d
    let l := labelNodes c (fun d => (st d).closed) (fun d => decide (0 < (st d).uncSlices))
    let s := { s with lse := { s.lse with labels := (⟨v.instant, v.rev, l⟩ :: s.lse.labels).take 64 } }
    if v.instant < s.lse.newest then .next s else
    let s := { s with lse := { s.lse with newest := v.instant, topo := topoOf l } }
    let s := s.wr Reg.LSE_STAT_NBUS (distinct (l.map (·.bus))).length
    let s := s.wr Reg.LSE_TOPO_NISL (distinct ((l.filter (fun x => !x.earthed)).map (·.island))).length
    .next ((s.checkTopo c).factorRegs)

/-! ### Estimates (R164, R165, R167, R168) -/

/-- Measurement `m` is missing in a revision (R164). -/
def measMissing (c : Cfg) (model : Cfg) (v : Revision) (m : Nat) : Bool :=
  let x := kvGetD v.recs ((model.tab 8 m).at 0 2) SRec.absent
  !x.present || (x.held && decide (0 < x.age)) || bitOf x.quality 0 || bitOf x.quality 3
    || (bitOf x.quality 1 && c.fld Reg.LSE_CTL_USE_TEST == 0)

/-- The value of measurement `m` in a revision. -/
def measValue (model : Cfg) (v : Revision) (m : Nat) : Cx :=
  let r := model.tab 8 m
  let x := kvGetD v.recs (r.at 0 2) SRec.absent
  let p := (x.phasors[r.at 2 1]?).getD (0, 0)
  ⟨realOf p.1, realOf p.2⟩

/-- Counts of R165 after a revision 0: measurements that leave or re-enter the factored set, which is then a change. -/
def State.persist (s : State) (c : Cfg) (v : Revision) : Bool × State :=
  let n := c.fld Reg.LSE_CTL2_PERSIST_N
  c.meas.foldl (fun (ch, s) e =>
    let m := e.1
    let missing := measMissing c c v m
    let a := if missing then kvGetD s.lse.absent m 0 + 1 else 0
    let p := if missing then 0 else kvGetD s.lse.present m 0 + 1
    let left := s.lse.left.contains m
    let leaves := !left && decide (n ≤ a)
    let enters := left && decide (n ≤ p)
    (ch || leaves || enters,
      { s with lse := { s.lse with
          absent := kvPut s.lse.absent m (if left then 0 else min n a) 0
          present := kvPut s.lse.present m (if left then min n p else 0) 0
          left := if leaves then setAdd s.lse.left m else if enters then setDel s.lse.left m else s.lse.left } })) (false, s)

/-- MISS_EXCESS and OBS_LOST (R169): the set present in the revision is factorised, and the counts restart; not for a material
revision of an older slice. -/
def State.refactorPresent (s : State) (c : Cfg) (v : Revision) : State :=
  if (v.rev ≠ 0 ∧ v.instant < s.lse.newest) ∨ c.lseModel ≠ s.act.lseModel then s else
  let left := (c.meas.map (·.1)).filter (measMissing c c v)
  let s := { s with lse := { s.lse with left, absent := [], present := [] } }
  s.refactor c (s.factoredSet c)

/-- The factor that applies to a slice (R170, R171): the newest retained one cut over at or before it, where it holds the
model of the slice's configuration. -/
def State.factorFor (s : State) (c : Cfg) (t : Instant) : Option Factor :=
  match s.lse.factors.find? (fun f => decide (f.cutover ≤ t)) with
  | some f => if f.model = c.lseModel then some f else none
  | none => none

/-- The factor that applied to a slice is no longer retained (R170). -/
def State.factorGone (s : State) (c : Cfg) (t : Instant) : Bool :=
  s.lse.factors.all (fun f => decide (t < f.cutover))
    && (match s.lse.dropped.find? (fun d => decide (d.1 ≤ t)) with | some d => decide (d.2 = c.lseModel) | none => false)

/-- `a` comes before `b` in a selection by size: larger first, then the lower number. -/
def larger (a b : Nat × Rat) : Bool := decide (b.2 < a.2) || (decide (b.2 = a.2) && decide (a.1 < b.1))

/-- The `n` largest of a list, in their order of size. -/
def largest (n : Nat) (l : List (Nat × Rat)) : List (Nat × Rat) := (l.mergeSort larger).take n

/-- What an estimate gives: status, answer, residual records, BD_UNRESOLVED, and measurements removed. -/
structure Estimate where
  status : Nat
  answer : Option LseAnswer
  residuals : List Residual
  unresolved : Bool
  removed : List Nat

/-- Squares of the normalised residuals above the threshold in an answer (R168). -/
def suspects (c : Cfg) (a : LseAnswer) : List (Nat × Rat) :=
  let thr : Rat := (c.fld Reg.LSE_CTL2_BD_THRESH : Rat) / 100
  a.residuals.filterMap (fun x => match x.2.1 with | some rn => if thr * thr < rn then some (x.1, rn) else none | none => none)

/-- The residual records of measurements, with rN of pass 1 and residuals of the final answer (R173), at most 256 with the
largest rN (R172). -/
def residualRecs (one final : LseAnswer) (removed reported : List Nat) : List Residual :=
  let rn (m : Nat) : Rat := match one.residuals.find? (fun x => x.1 = m) with | some x => x.2.1.getD 0 | none => 0
  let keep := (largest 256 ((distinct (removed ++ reported)).map (fun m => (m, rn m)))).map (·.1)
  (distinct keep).map (fun m =>
    let r := match final.residuals.find? (fun x => x.1 = m) with | some x => x.2.2.fp | none => (0, 0)
    ⟨m, removed.contains m, fpSqrtRat (rn m), r.1, r.2⟩)

/-- The measurements of a factor's set whose object has a state (R164). -/
def Factor.used (f : Factor) : List Nat := f.set.filter (fun m => !measDead (modelCfg f.model) f.topo m)

/-- The equations of a factor. -/
def Factor.sys (f : Factor) : LseSys := lseSys (modelCfg f.model) f.topo f.used f.unobs

/-- The measurements of a factor's set that are missing in a revision. -/
def Factor.missing (f : Factor) (c : Cfg) (v : Revision) : List Nat := f.used.filter (measMissing c (modelCfg f.model) v)

/-- The estimate of a revision over factor `f` (R167, R168). -/
def estimate (c : Cfg) (f : Factor) (v : Revision) : Estimate :=
  let miss := f.missing c v
  if c.fld Reg.LSE_CTL_MISS_LR < miss.length then ⟨2, none, [], false, []⟩ else
  let q := f.sys
  let z (m : Nat) : Option Cx := if miss.contains m then none else some (measValue (modelCfg f.model) v m)
  match lsePass q z [] with
  | none => ⟨3, none, [], false, []⟩
  | some one =>
    if c.fld Reg.LSE_CTL_BD_EN = 0 then ⟨0, some one, [], false, []⟩ else
    let bad := suspects c one
    let b := (largest (c.fld Reg.LSE_CTL_BD_MAX) bad).map (·.1)
    if b.isEmpty then ⟨0, some one, residualRecs one one [] (bad.map (·.1)), false, []⟩ else
    match lsePass q z b with
    | none => ⟨0, some one, residualRecs one one [] b, true, []⟩
    | some two =>
      let rest := ((suspects c two).map (·.1)).filter (fun m => !b.contains m)
      ⟨0, some two, residualRecs one two b rest, false, b⟩

/-- One above the highest number of a table's enabled records. -/
def topOf (l : List (Nat × Rec)) : Nat := l.foldl (fun m e => max m (e.1 + 1)) 0

/-- The labels kept for a revision. -/
def State.labelsFor (s : State) (t : Instant) (rev : Nat) : List NodeLabel :=
  match s.lse.labels.find? (fun l => l.instant == t && l.rev == rev) with
  | some l => l.nodes
  | none => []

/-- The currents at the ends of a branch in an estimate (R163, R173), none where it is not in service or an end has no state. -/
def branchCurrents (model : Cfg) (topo : List (Nat × Nat × Nat)) (a : LseAnswer) (b : Nat) : Option (Cx × Cx) :=
  let r := model.tab 6 b
  match (if r.branchOn then branchBuses topo r else none) with
  | none => none
  | some (f, t) =>
    match kvGet? a.x f, kvGet? a.x t with
    | some _, some _ =>
      let at_ (l : List (Nat × Cx)) := Cx.sum (l.map (fun e => e.2.mul (kvGetD a.x e.1 Cx.zero)))
      let (i, k) := branchRows r f t
      some (at_ i, at_ k)
    | _, _ => none

/-- The result of a revision (R172, R173). -/
def State.lseResult (s : State) (c : Cfg) (v : Revision) (f : Option Factor) (e : Estimate) : LseResult :=
  let labels := s.labelsFor v.instant v.rev
  let br := c.fld Reg.LSE_CTL_BR_OUT == 1
  let ok := e.status = 0
  let nnode := topOf c.nodes
  let nbr := if br then topOf c.branches else 0
  let miss := match f with | some f => (f.missing c v).length | none => 0
  let used := match f with
    | some f => if ok then f.sys.rows.length - miss - e.removed.length else 0
    | none => 0
  let obs := match f with | some f => f.sys.buses | none => []
  let volts := match f, e.answer with
    | some f, some a => f.topo.filterMap (fun x => (kvGet? a.x x.2.1).map (fun v => (x.1, v.fp)))
    | _, _ => []
  let branches := match f, e.answer with
    | some f, some a => (List.range nbr).filterMap (fun b =>
        (branchCurrents (modelCfg f.model) f.topo a b).map (fun i => (b, i.1.fp.1, i.1.fp.2, i.2.fp.1, i.2.fp.2)))
    | _, _ => []
  { rev := v.rev, status := e.status, instant := v.instant, k := v.k, epoch := v.epoch
    factorId := match f with | some f => if e.status = 1 then 0 else f.id | none => 0
    topoPending := match f with | some f => decide (f.topo ≠ topoOf labels) | none => false
    bdUnresolved := e.unresolved, brOut := br
    retained := match f, s.lse.factors with | some f, g :: _ => decide (f.id ≠ g.id) | _, _ => false
    nmiss := miss, nused := used
    nunobs := match f with | some f => (f.topo.filter (fun x => f.unobs.contains x.2.1)).length | none => 0
    j := match e.answer with | some a => fpOfRat a.j | none => 0
    dof := 2 * used - 2 * obs.length
    elapsed := s.now - v.release
    volts, nodes := labels
    observable := match f with | some f => (f.topo.filter (fun x => obs.contains x.2.1)).map (·.1) | none => []
    zeroBus := (labels.filter (fun l => !l.earthed && zeroInj c (topoOf labels) l.bus)).map (·.node)
    residuals := e.residuals, branches, nnode, nbr
    length := 64 + 16 * nnode + 16 * e.residuals.length + 16 * nbr }

/-- A node record (R173).  A value that the spec states no meaning for is free. -/
def LseResult.nodeBytes (r : LseResult) (n : Nat) : List Byte :=
  let l := r.nodes.find? (fun x => x.node = n)
  let free (k : Nat) : Nat := Config.unstated k n
  let v := match r.volts.find? (fun x => x.1 = n) with
    | some x => (x.2.1.toNat, x.2.2.toNat)
    | none => if r.status = 0 then (free 0, free 1) else (0, 0)
  let flags := natOf l.isSome + 2 * natOf (r.observable.contains n) + 4 * natOf ((l.map (·.earthed)).getD false)
    + 8 * natOf (r.zeroBus.contains n) + 16 * natOf ((l.map (·.uncertain)).getD false)
  leBytes 4 v.1 ++ leBytes 4 v.2 ++ leBytes 2 (match l with | some l => l.bus | none => free 2)
    ++ leBytes 2 (match l with | some l => l.island | none => noIsland) ++ leBytes 1 flags ++ List.replicate 3 0

/-- A residual record (R173). -/
def Residual.bytes (r : Residual) : List Byte :=
  leBytes 2 r.meas ++ leBytes 1 (natOf r.removed) ++ leBytes 1 0 ++ leBytes 4 r.rn.toNat ++ leBytes 4 r.re.toNat ++ leBytes 4 r.im.toNat

/-- A branch record (R173). -/
def LseResult.branchBytes (r : LseResult) (b : Nat) : List Byte :=
  match r.branches.find? (fun x => x.1 = b) with
  | some x => leBytes 4 x.2.1.toNat ++ leBytes 4 x.2.2.1.toNat ++ leBytes 4 x.2.2.2.1.toNat ++ leBytes 4 x.2.2.2.2.toNat
  | none =>
    if r.status = 0 then ((List.range 4).map (fun k => leBytes 4 (Config.unstated (3 + k) b))).flatten else List.replicate 16 0

/-- The bytes of a result (R172). -/
def LseResult.bytes (r : LseResult) : List Byte :=
  let h := leBytes 4 0x5245534C ++ leBytes 2 1 ++ leBytes 1 r.rev ++ leBytes 1 r.status
    ++ leBytes 4 (r.instant % nsPerS) ++ leBytes 6 (r.instant / nsPerS) ++ leBytes 2 r.k ++ leBytes 4 r.epoch ++ leBytes 4 r.factorId
    ++ leBytes 2 (natOf r.topoPending + 2 * natOf r.bdUnresolved + 4 * natOf r.brOut + 8 * natOf r.retained)
    ++ leBytes 2 r.residuals.length ++ leBytes 2 r.nnode ++ leBytes 2 r.nmiss ++ leBytes 2 r.nused ++ leBytes 2 r.nunobs
    ++ leBytes 4 r.j.toNat ++ leBytes 4 r.dof ++ leBytes 4 r.elapsed ++ leBytes 4 r.length ++ leBytes 2 r.nbr ++ leBytes 2 0
  h ++ leBytes 4 (crc32 h) ++ ((List.range r.nnode).map r.nodeBytes).flatten ++ (r.residuals.map Residual.bytes).flatten
    ++ ((List.range r.nbr).map r.branchBytes).flatten

/-- Counters and events of a result (R167, R168, R176, R177). -/
def State.countEstimate (s : State) (e : Estimate) : State :=
  let s := s.bump .lse C.LSE_RESULTS
  let s := match e.status with
    | 1 => s.bump .lse C.LSE_NO_FACTOR
    | 2 => s.bump .lse C.LSE_MISS_EXCESS
    | 3 => s.bump .lse C.LSE_OBS_LOST
    | _ => s
  let s := if e.status = 0 then s else s.lseEvent 6 0
  let s := s.bumpBy .lse C.LSE_BAD_REMOVED e.removed.length
  let s := if e.unresolved then s.bump .lse C.LSE_BD_UNRESOLVED else s
  match e.residuals with
  | r :: _ => s.lseEvent 4 r.meas
  | [] => s

/-- LSE_ESTIMATE (R164 to R168, R170, R172): the estimate of the next revision that waits for one. -/
def execLseEstimate (s : State) : Result :=
  match s.stch.work.find? (fun w => w.who == .lse) with
  | none => .next s
  | some w =>
    let v := w.rev
    let t := v.instant
    let c := s.cfgRev v
    let s := { s with stch := { s.stch with work := s.stch.work.erase w } }
    let (changed, s) := if v.rev = 0 then
        s.persist c v
      else (false, s)
    let s := if v.rev = 0 then { s with lse := { s.lse with lastEst := max s.lse.lastEst t } } else s
    let s := if changed then s.refactor c (s.factoredSet c) else s
    if v.rev ≠ 0 ∧ s.factorGone c t then .next (s.bump .lse C.LSE_REEST_SKIPPED) else
    let f := s.factorFor c t
    let e := match f with
      | some f => estimate c f v
      | none => ⟨1, none, [], false, []⟩
    let s := s.countEstimate e
    let s := if e.status = 2 ∨ e.status = 3 then s.refactorPresent c v else s
    let r := s.lseResult c v f e
    .next ((s.produce ⟨1, t, v.k, v.rev, v.material, r.length, .lse r⟩).factorRegs)

/-- A factor is cut over (R170). -/
def State.cutOver (s : State) (f : Factor) : State :=
  let before := match s.lse.factors with | g :: _ => g.unobs | [] => []
  let gone := (s.lse.factors.drop 1).map (fun g => (g.cutover, g.model))
  let dropped := match gone, s.lse.dropped with
    | g :: _, d :: l => if d.2 = g.2 then d :: l else g :: d :: l
    | g :: _, [] => [g]
    | [], l => l
  let s := { s with lse := { s.lse with
    dropped := dropped.take 4
    factors := (f :: s.lse.factors).take 2, nextId := if f.id = 2 ^ 32 - 1 then 1 else f.id + 1 } }
  let s := (s.bump .lse C.LSE_REFACTORS).lseEvent 1 0
  let s := if before = f.unobs then s else s.lseEvent 3 0
  s.factorRegs

/-- REFACTOR_COMPLETE (R166, R169 to R171): the factor is cut over from the first slice not yet estimated, or waits for its
boundary, or fails; then a held trigger starts the next one. -/
def execRefactorComplete (s : State) : Result :=
  match s.lse.running with
  | none => .next s
  | some r =>
    let model := modelCfg r.model
    let unobs := unobservable model r.topo r.set
    let set := r.set.filter (fun m => !measLost model r.topo unobs m)
    let s := State.wr { s with lse := { s.lse with running := none } } Reg.LSE_STAT_REFACTOR_BUSY 0
    let s := s.wr Reg.LSE_LAST_REFAC_DURATION_US ((s.now - r.start) / 1000)
    let made := match lseFactor (lseSys model r.topo (set.filter (fun m => !measDead model r.topo m)) unobs) with
      | some n => if n ≤ lseMaxBytes then some n else none
      | none => none
    let s : State := match made with
      | none => (s.bump .lse C.LSE_REFACTOR_FAIL).lseEvent 2 0
      | some n =>
        let cut := if s.lse.lastEst = 0 then 0 else s.nextSlice s.lse.lastEst
        let f : Factor := ⟨s.lse.nextId, r.model, r.topo, set, unobs, n, cut⟩
        if r.shadow then { s with lse := { s.lse with staged := some f } } else s.cutOver f
    let again := s.lse.held
    let s := { s with lse := { s.lse with held := false } }
    .next (if again then s.refactor s.act (s.factoredSet s.act) else s)

/-! ### CINCH (R161, R171) -/

/-- A CINCH is accepted (R171): where the shadow changes the network model or BD_EN, it is factorised at once, with the
present switch states and set; a refactorisation that runs gives way and is held. -/
def State.lseAccept (s : State) : State :=
  if s.shd.lseModel = s.act.lseModel then s else
  let st (d : Nat) : SwState :=
    ((kvGet? s.lse.switches d).filter (fun _ => sameSwitch s.act s.shd d)).getD (SwState.init (s.shd.tab 7 d))
  let topo := topoOf (labelNodes s.shd (fun d => match (s.shd.tab 7 d).bitsAt 7 0 3 with | 0 => false | 1 => true | _ => (st d).closed)
    (fun _ => false))
  State.wr { s with lse := { s.lse with
    held := s.lse.held || s.lse.running.isSome
    running := some ⟨s.shd.lseModel, topo, s.factoredSet s.shd, s.now, true⟩ } } Reg.LSE_STAT_REFACTOR_BUSY 1

/-- The CINCH does not apply: what was factorised for it is dropped. -/
def State.lseAbandon (s : State) : State :=
  let shadow := match s.lse.running with | some r => r.shadow | none => false
  let s := { s with lse := { s.lse with staged := none } }
  if !shadow then s else
  let s := State.wr { s with lse := { s.lse with running := none } } Reg.LSE_STAT_REFACTOR_BUSY 0
  if s.lse.held then State.refactor { s with lse := { s.lse with held := false } } s.act (s.factoredSet s.act) else s

/-- LSE takes the configuration that applies at `b` in place of `old` (R161, R171). -/
def State.lseApply (s : State) (old : Cfg) (b : Instant) : State :=
  let keepSw := s.lse.switches.filter (fun d => sameSwitch old s.act d.1)
  let same (m : Nat) : Bool := old.tab 8 m == s.act.tab 8 m
  let s := { s with lse := { s.lse with
    swOld := s.lse.switches, switches := keepSw, left := s.lse.left.filter same
    absent := s.lse.absent.filter (fun e => same e.1), present := s.lse.present.filter (fun e => same e.1) } }
  if old.lseModel = s.act.lseModel then s else
  match s.lse.staged, s.lse.running with
  | some f, _ => State.cutOver { s with lse := { s.lse with staged := none } } { f with cutover := b, id := s.lse.nextId }
  | none, some r =>
    if r.shadow then { s with lse := { s.lse with running := some { r with shadow := false } } }
    else State.wr { s with lse := { s.lse with running := none, held := false } } Reg.LSE_STAT_REFACTOR_BUSY 0
  | none, none => s

end Sys2Proof.Machine
end

