-- ==== Sys2Proof/Machine/Isl.lean ====
section
/-!
DEFINITION. Islanding and alarms (spec/10): rules and their histories, topological islands, coherency groups, output terms,
ALM_OUT pins, GOOSE alarm publication, and the comparison of two instances (R14).
-/
namespace Sys2Proof.Machine
open Sys2Proof

/-- ISL raises source `112 + k` with an index (R226). -/
def State.islEvent (s : State) (k i : Nat) : State := s.raise (112 + k) [(Reg.ISL_EVT_IDX_INDEX k, i)]

/-! ### Histories (R209) -/

/-- A rule before anything was decided. -/
def RuleState.init : RuleState := ⟨false, false, []⟩

/-- The history after revision `v` with a pair of bits: `none` where the slice is older than every slot and has none. -/
def histPut (h : List (Instant × Bool × Bool)) (v : Revision) (rb cb : Bool) : Option (List (Instant × Bool × Bool)) :=
  let h := if v.rev = 0 ∧ v.gap then [] else h
  match h with
  | [] => some [(v.instant, rb, cb)]
  | (t, _) :: _ =>
    if t < v.instant then some (((v.instant, rb, cb) :: h).take 32)
    else if h.any (fun x => x.1 == v.instant) then some (h.map (fun x => if x.1 = v.instant then (x.1, rb, cb) else x))
    else none

/-- The bits of the previous slice in the history (R208), both 0 where there is none. -/
def histPrev (h : List (Instant × Bool × Bool)) (v : Revision) : Bool × Bool :=
  let h := if v.rev = 0 ∧ v.gap then [] else h
  match h.find? (fun x => decide (x.1 < v.instant)) with
  | some x => x.2
  | none => (false, false)

/-- The state after the raise test over the newest `nOn` slots and the clear test over the newest `nOff`. -/
def histDecide (active : Bool) (h : List (Instant × Bool × Bool)) (nOn nOff : Nat) : Bool :=
  let full (n : Nat) (p : Instant × Bool × Bool → Bool) : Bool := decide (n ≤ h.length) && (h.take n).all p
  let a := active || full nOn (fun x => x.2.1)
  a && !full nOff (fun x => x.2.2)

/-! ### Quantities (R207, R208) -/

/-- A record's quality leaves it out (R208). -/
def islUnusable (c : Cfg) (x : SRec) : Bool :=
  !x.present || bitOf x.quality 0 || bitOf x.quality 3 || (bitOf x.quality 1 && c.fld Reg.ISL_CTL_USE_TEST == 0)

/-- A number is finite. -/
def fpFinite (a : BitVec 32) : Bool := match fpDecode a with | .fin .. => true | _ => false

/-- What a rule's inputs give in a revision. -/
inductive Quantity where
  /-- An input is missing, or the quantity cannot be formed. -/
  | missing
  /-- A held record without a new value. -/
  | stale
  | value (x : BitVec 32)
  deriving DecidableEq, Repr

/-- An angle in degrees wrapped above -180 and up to +180. -/
def wrapDeg (x : Rat) : Rat := x - 360 * ((x - 180) / 360).ceil

/-- The angle of a phasor in degrees, none where it has none. -/
def degAngle (p : BitVec 32 × BitVec 32) : Option Rat := (ratAngle p.1 p.2).map (· * 180 / pi)

/-- The angle difference of a KIND 1 rule (R207): of two phasors, less the standing offset, wrapped; none where it cannot be formed. -/
def angleDiff (a b : BitVec 32 × BitVec 32) (off : BitVec 32) : Option (BitVec 32) :=
  match degAngle a, degAngle b, ratOfFp off with
  | some x, some y, some o => some (fpOfRat (wrapDeg (x - y - o)))
  | _, _, _ => none

/-- The quantity of a KIND 0 to 3 rule. -/
def ruleQuantity (c : Cfg) (r : Rec) (v : Revision) : Quantity :=
  let a := kvGetD v.recs (r.at 4 2) SRec.absent
  let b := kvGetD v.recs (r.at 8 2) SRec.absent
  let two := r.ruleKind = 1
  if islUnusable c a || (two && islUnusable c b) then .missing
  else if (a.held && decide (0 < a.age)) || (two && b.held && decide (0 < b.age)) then .stale
  else
    let pa := (a.phasors[r.bitsAt 6 0 5]?).getD (0, 0)
    let pb := (b.phasors[r.bitsAt 10 0 5]?).getD (0, 0)
    let x : Option (BitVec 32) := match r.ruleKind with
      | 0 => some (if r.bitAt 6 7 then (a.analogs[r.bitsAt 6 0 5]?).getD 0 else fpMag pa.1 pa.2)
      | 1 => angleDiff pa pb (BitVec.ofNat 32 (r.at 24 4))
      | 2 => some a.freq
      | _ => some a.rocof
    match x with
    | some x => if fpFinite x then .value x else .missing
    | none => .missing

/-- Raise and clear bits of a quantity against exact thresholds (R207). -/
def thresholdBits (r : Rec) (x : BitVec 32) : Bool × Bool :=
  let fx := fpDecode x
  let f (off : Nat) : Fp := fpDecode (BitVec.ofNat 32 (r.at off 4))
  let above := Fp.lt (f 16) fx
  let below := Fp.lt fx (f 12)
  let notAbove := !Fp.lt (Fp.add (f 16) (f 20).neg) fx
  let notBelow := !Fp.lt fx (Fp.add (f 12) (f 20))
  match r.bitsAt 1 4 2 with
  | 0 => (above, notAbove)
  | 1 => (below, notBelow)
  | _ => (above || below, notAbove && notBelow)

/-! ### Outputs (R204) -/

/-- Alarm output `o` is asserted: it is enabled, and a rule or mode alarm record that names it is ACTIVE. -/
def State.asserted (s : State) (o : Nat) : Bool :=
  s.cfOn (Reg.ISL_OUT_EN o) &&
    (s.isl.rules.any (fun e => e.2.shown && (s.act.tab 12 e.1).ruleOn && (s.act.tab 12 e.1).at 2 2 == o)
      || s.osc.alarms.any (fun e => e.2.active && (s.act.tab 11 e.1).bitAt 2 7 && (s.act.tab 11 e.1).at 26 2 == o))

/-- The outputs asserted as ISL_OUT_STATE shows them. -/
def State.outShown (s : State) (o : Nat) : Bool := bitOf (s.rd (Reg.ISL_OUT_STATE_ASSERTED (o / 32))) (o % 32)

/-! ### Roles (R222, R363) -/

/-- GOOSE alarm frames: 0 none, 1 repeats only, 2 sent (R222, R363, R385). -/
def State.gooseMode (s : State) : Nat :=
  if s.safe || !s.producing then 0
  else if s.rd Reg.PAIR_CTL_MODE = 1 then (match s.rd Reg.PAIR_STAT_STATE with | 4 => 2 | 5 => 1 | 7 => 1 | _ => 0)
  else 2

/-! ### Pins (R217) -/

/-- A pin is in alarm while an output mapped to it is asserted (R204). -/
def State.pinAlarm (s : State) (j : Nat) : Bool :=
  (List.range 256).any (fun o => s.outShown o && s.cfOn (Reg.ISL_OUT_EN o) && s.cfOn (Reg.ISL_OUT_PIN_EN o)
    && s.cf (Reg.ISL_OUT_PIN o) == j)

/-- Pins show waves now (R217, R363, R385): `none` keeps every pin as it is. -/
def State.pinsRun (s : State) : Option Bool :=
  if s.safe || !s.producing then some false
  else if s.rd Reg.PAIR_CTL_MODE = 1 then
    (match s.rd Reg.PAIR_STAT_STATE with | 3 => some true | 4 => some true | 6 => some true | 5 => none | 7 => none | _ => some false)
  else some true

/-- ISL_PIN_STAT follows the pins. -/
def State.pinRegs (s : State) : State :=
  let sum (p : AlmPin → Bool) : Nat := (s.pins.map (fun e => if p e.2 then 2 ^ e.1 else 0)).sum
  (s.wr Reg.ISL_PIN_STAT_ALARM (sum (fun x => x.alarm))).wr Reg.ISL_PIN_STAT_DRIVE (sum (fun _ => true))

/-- Every pin takes the pattern that the present condition gives it (R217): a wave that starts rises, a pattern that changes
toggles, and a pin that stops goes low. -/
def State.setPins (s : State) : State :=
  match s.pinsRun with
  | none => s
  | some run =>
    State.pinRegs { s with pins := (List.range 16).filterMap (fun j =>
      if !run || !s.cfOn (Reg.ISL_PIN_EN j) then none else
      let alarm := s.pinAlarm j
      match kvGet? s.pins j with
      | none => some (j, ⟨alarm, true, s.now⟩)
      | some p => if p.alarm = alarm then some (j, p) else some (j, ⟨alarm, !p.level, s.now⟩)) }

/-- Half-period of a pin's wave. -/
def AlmPin.half (p : AlmPin) : Nat := if p.alarm then 166666 else 500000

/-- ALM_OUT_HALF_PERIOD (R217): the half-period is over, and the pin toggles. -/
def execAlmOutHalfPeriod (pin : Fin 16) (s : State) : Result :=
  match kvGet? s.pins pin with
  | none => .next s
  | some p =>
    when (decide (p.edge + p.half ≤ s.now)) s
      { s with pins := kvSet s.pins pin { p with level := !p.level, edge := p.edge + p.half } }

/-- ALM_READBACK_MISMATCH (R218, R383): a pin reads back unequal to its driven level. -/
def execAlmReadbackMismatch (pin : Fin 16) (s : State) : Result := .next ((s.islEvent 10 pin).enterSafe 0x0B).pinRegs

/-! ### GOOSE alarm publication (R220 to R223) -/

/-- Publisher record `p` is enabled. -/
def State.pubOn (s : State) (p : Nat) : Bool := (s.act.tab 14 p).bitAt 0 7

/-- ALARM of publisher `p`. -/
def State.pubAlarm (s : State) (p : Nat) : Nat := s.rd (Reg.ISL_OUT_STATE_ASSERTED p)

/-- Q of publisher `p`: some rule that feeds one of its outputs applied R208 in the latest slice. -/
def State.pubQuestionable (s : State) (p : Nat) : Bool := s.isl.missing.any (fun i => (s.act.tab 12 i).at 2 2 / 32 == p)

/-- Publisher `p` carries a SAFETY output. -/
def State.pubSafety (s : State) (p : Nat) : Bool :=
  (List.range 32).any (fun i => s.cfOn (Reg.ISL_OUT_EN (32 * p + i)) && s.cfOn (Reg.ISL_OUT_SAFETY (32 * p + i)))

/-- The text at `off` of a record's 64 bytes, without its padding. -/
def Rec.text (r : Rec) (off n : Nat) : List Byte := (leBytes n (r.at off n)).takeWhile (· ≠ 0)

/-- The fixed fields of a publisher's frames (R220, R221). -/
def gooseHead (r : Rec) : GooseHead :=
  { dst := leBytes 6 (r.at 4 6), vlan := r.at 10 2, appid := r.at 2 2, confRev := r.at 12 4, gocbRef := r.text 20 64
    datSet := r.text 84 64, goId := r.text 148 64 }

/-- Length of a GOOSE alarm frame: headers, the three references and the members. -/
def gooseLen (r : Rec) : Nat :=
  let name (off : Nat) : Nat := (r.text off 64).length
  max 64 (14 + (if r.bitAt 10 15 then 4 else 0) + 8 + 96 + name 20 + name 84 + name 148 + 4)

/-- The frame of publisher `p`'s current state is sent, and the next one scheduled (R223). -/
def State.sendGoose (s : State) (p : Nat) (g : GooseState) : State :=
  let r := s.act.tab 14 p
  let tal := 2 * g.interval + s.cf Reg.ISL_CTL_TAL_MARGIN_MS
  let body : TxBody := .goose (gooseHead r) p g.claim (kvGetD s.isl.stNums p 0) g.sqNum ((g.t : Int) - nsPerS * s.utcOffset).toNat
    (s.rd Reg.TB_TQ_CODE) tal g.alarm g.slice g.rev g.epoch g.questionable
  let s := (s.bump .isl C.ISL_GOOSE_FRAMES).send (r.at 1 1) 7 (fwFrame body (gooseLen r))
  let g := { g with
    sqNum := if g.sqNum = 2 ^ 32 - 1 then 1 else g.sqNum + 1
    next := s.now + 1000000 * g.interval, interval := min (r.at 16 2) (2 * g.interval) }
  { s with isl := { s.isl with pubs := kvSet s.isl.pubs p g } }

/-- A new state of publisher `p` begins at `t` and its first frame leaves (R223). -/
def State.newGoose (s : State) (p : Nat) (t slice : Instant) (rev epoch : Nat) : State :=
  let n := kvGetD s.isl.stNums p 0
  let n := if n = 2 ^ 32 - 1 then 1 else n + 1
  let s := State.wr { s with isl := { s.isl with stNums := kvSet s.isl.stNums p n } } (Reg.ISL_PUB_STAT_STNUM p) n
  s.sendGoose p
    { claim := s.rd Reg.PAIR_STAT_CLAIM, alarm := s.pubAlarm p, questionable := s.pubQuestionable p, t, slice, rev, epoch
      sqNum := 0, next := t, interval := min ((s.act.tab 14 p).at 16 2) 1 }

/-- A decision of publisher `p` at `t` (R223): it begins a new state where it changes what the current one carries, or where
there is none; `fresh` tells whether a decision without a current state may begin one. -/
def State.pubDecide (s : State) (p : Nat) (t slice : Instant) (rev epoch : Nat) (fresh : Bool) : State :=
  if !s.pubOn p then s else
  if s.gooseMode ≠ 2 then s else
  match kvGet? s.isl.pubs p with
  | none => if fresh then s.newGoose p t slice rev epoch else s
  | some g =>
    if g.claim = s.rd Reg.PAIR_STAT_CLAIM ∧ g.alarm = s.pubAlarm p ∧ g.questionable = s.pubQuestionable p then s
    else s.newGoose p t slice rev epoch

/-- A silence of R222 ends every current state. -/
def State.gooseSilence (s : State) : State :=
  if s.gooseMode = 0 then { s with isl := { s.isl with pubs := [] } } else s

/-- GOOSE_REPEAT (R222, R223): the interval after publisher `p`'s latest frame is over. -/
def execGooseRepeat (p : Fin 8) (s : State) : Result :=
  match kvGet? s.isl.pubs p with
  | none => .next s
  | some g =>
    if s.gooseMode = 0 then .next s.gooseSilence
    else when (s.pubOn p && decide (g.next ≤ s.now)) s (s.sendGoose p g)

/-- The SAFETY outputs asserted, output `o` in bit `o` (R372). -/
def State.safetyShown (s : State) : Nat :=
  ((List.range 256).map (fun o => if s.outShown o && s.cfOn (Reg.ISL_OUT_EN o) && s.cfOn (Reg.ISL_OUT_SAFETY o) then 2 ^ o else 0)).sum

/-! ### Decisions (R204, R223, R230) -/

/-- ISL_OUT_STATE is formed anew: the outputs that pass from released to asserted fire captures (R230, R235), and the pins
follow. -/
def State.showOutputs (s : State) (tp : Instant) (rev : Nat) : State :=
  let now_ := (List.range 8).map (fun w => ((List.range 32).map (fun i => if s.asserted (32 * w + i) then 2 ^ i else 0)).sum)
  let rising := (List.range 256).filter (fun o => bitOf ((now_[o / 32]?).getD 0) (o % 32) && !s.outShown o)
  let s := now_.zipIdx.foldl (fun s x => s.wr (Reg.ISL_OUT_STATE_ASSERTED x.2) x.1) s
  let s := s.setPins
  if rising.isEmpty then s else s.trigger (rising.map (fun o => ⟨s.now, 16 + o, rev, false⟩)) tp

/-- A decision on a slice revision takes effect: outputs, pins, captures, and the publishers that `which` names. -/
def State.decideAt (s : State) (slice : Instant) (rev epoch : Nat) (which : Nat → Bool) : State :=
  let s := (s.showOutputs slice rev).gooseSilence
  (List.range 8).foldl (fun s p =>
    if !which p || !s.pubOn p then s else
    let s := { s with isl := { s.isl with lastDec := kvSet s.isl.lastDec p (slice, rev, epoch) } }
    s.pubDecide p s.now slice rev epoch true) s

/-- A release of output terms at boundary `b` is a decision at it (R223). -/
def State.decideBoundary (s : State) (b : Instant) : State :=
  let s := (s.showOutputs b 0).gooseSilence
  (List.range 8).foldl (fun s p =>
    match kvGet? s.isl.lastDec p with
    | some (slice, rev, epoch) => s.pubDecide p b slice rev epoch false
    | none => s) s

/-! ### Topological islands (R210, R214) -/

/-- Enabled nodes in an island. -/
def islandSize (l : List NodeLabel) (i : Nat) : Nat := (l.filter (fun x => x.island == i)).length

/-- The main island of labels (R210). -/
def mainIsland (c : Cfg) (l : List NodeLabel) : Nat :=
  match l.find? (fun x => x.node == c.fld Reg.ISL_TOPO_MAIN_NODE && x.island != noIsland) with
  | some x => x.island
  | none =>
    (distinct ((l.map (·.island)).filter (· != noIsland))).foldl (fun m i =>
      if m = noIsland ∨ islandSize l m < islandSize l i then i else m) noIsland

/-- The declared topological islands of labels, rising. -/
def declaredIslands (c : Cfg) (l : List NodeLabel) : List Nat :=
  if c.fld Reg.ISL_CTL_TOPO_EN = 0 then [] else
  (distinct ((l.map (·.island)).filter (· != noIsland))).filter (fun i =>
    i != mainIsland c l && decide (c.fld Reg.ISL_TOPO_MIN_NODES ≤ islandSize l i))

/-- The declared islands of a newer slice are compared with those before (events 114 and 115). -/
def State.compareIslands (s : State) (new : List Nat) : State :=
  let old := s.isl.topo
  let s := (new.filter (fun i => !old.contains i)).foldl (fun s i => (s.bump .isl C.ISL_TOPO_DECL i).islEvent 2 i) s
  (old.filter (fun i => !new.contains i)).foldl (fun s i => s.islEvent 3 i) s

/-! ### Coherency (R211 to R213) -/

/-- The live signals of a revision (R211). -/
def liveSignals (c : Cfg) (v : Revision) : KV (BitVec 32 × BitVec 32 × BitVec 32) :=
  (c.listed 13).filterMap (fun e =>
    let r := e.2
    let x := kvGetD v.recs (r.at 0 2) SRec.absent
    if !r.bitAt 3 7 || islUnusable c x then none else
    let p := (x.phasors[r.at 2 1]?).getD (0, 0)
    some (e.1, x.freq, p.1, p.2))

/-- Most coherency slices kept: the longest clustering window and the drift span. -/
def cohKeep : Nat := 1200 + 24

/-- The slices kept, with those of a revision in place, newest first. -/
def cohPut (l : List CohSlice) (x : CohSlice) : List CohSlice :=
  if l.any (fun y => y.t == x.t) then l.map (fun y => if y.t = x.t then x else y)
  else ((l.filter (fun y => decide (x.t < y.t))) ++ x :: l.filter (fun y => decide (y.t < x.t))).take cohKeep

/-- Sum of squares of the differences of two signals' frequencies over the slices where both are live, and their
number. -/
def sumSquares (w : List CohSlice) (i j : Nat) : Fp × Nat :=
  w.foldl (fun (acc, n) x =>
    match kvGet? x.sigs i, kvGet? x.sigs j with
    | some a, some b =>
      let d := Fp.add (fpDecode a.1) (fpDecode b.1).neg
      (Fp.add acc (Fp.mul d d), n + 1)
    | _, _ => (acc, n)) (.fin false 0 0, 0)

/-- Two signals are joined (R212): the root mean square of their difference is at most DF_COH, in units of 0.1 mHz. -/
def cohJoined (w : List CohSlice) (dfCoh i j : Nat) : Bool :=
  let (sum, n) := sumSquares w i j
  decide (0 < n) && !Fp.lt (.fin false (n * dfCoh * dfCoh) 0) (Fp.mul sum (.fin false (10 ^ 8) 0))

/-- The connected components of the signals live in at least 90 % of the window, by lowest signal. -/
def cohComponents (w : List CohSlice) (cluWin dfCoh : Nat) : List (Nat × List Nat) :=
  let all := distinct ((w.map (fun x => x.sigs.map (·.1))).flatten)
  let live := all.filter (fun i => decide (9 * cluWin ≤ 10 * (w.filter (fun x => (kvGet? x.sigs i).isSome)).length))
  let pairs := (live.map (fun i => (live.filter (fun j => decide (i < j))).map (fun j => (i, j)))).flatten
  let labels := (pairs.filter (fun p => cohJoined w dfCoh p.1 p.2)).foldl (fun m p => joinLabels m p.1 p.2)
    (live.map (fun i => (i, i)))
  (distinct (labels.map (·.2))).map (fun g => (g, (labels.filter (fun x => x.2 == g)).map (·.1)))

/-- New groups take the histories of old ones (R212), in order of their numbers; the old groups that are left over end. -/
def inherit : List (Nat × List Nat) → List CohGroup → List CohGroup × List CohGroup
  | [], old => ([], old)
  | (g, ms) :: rest, old =>
    let share (o : CohGroup) : Nat := (o.members.filter (fun m => ms.contains m)).length
    let best := old.foldl (fun b o => match b with
      | none => if 0 < share o then some o else none
      | some x => if share x < share o ∨ (share x = share o ∧ o.number < x.number) then some o else b) none
    match best with
    | some o =>
      let (new, left) := inherit rest (old.filter (fun x => x.number != o.number))
      ({ o with number := g, members := ms } :: new, left)
    | none =>
      let (new, left) := inherit rest old
      (⟨g, ms, RuleState.init, 0, 0⟩ :: new, left)

/-- Members of a group that are live in a slice. -/
def liveIn (x : CohSlice) (g : CohGroup) : List (Nat × BitVec 32 × BitVec 32 × BitVec 32) :=
  x.sigs.filter (fun e => g.members.contains e.1)

/-- The main group of a slice (R213). -/
def mainGroup (refSig : Nat) (gs : List CohGroup) (x : CohSlice) : Option CohGroup :=
  let most := gs.foldl (fun b g => match b with
    | none => some g
    | some m => if (liveIn x m).length < (liveIn x g).length then some g else b) none
  if (kvGet? x.sigs refSig).isSome then
    match gs.find? (fun g => g.members.contains refSig) with
    | some g => some g
    | none => most
  else most

/-- The median of frequencies, the mean of the middle two for an even count. -/
def median (l : List (BitVec 32)) : BitVec 32 :=
  let m := l.mergeSort (fun a b => !fpLt b a)
  let n := m.length
  let k (i : Nat) : BitVec 32 := (m[i]?).getD 0
  if n % 2 = 1 then k (n / 2) else fpMul (fpAdd (k (n / 2 - 1)) (k (n / 2))) 0x3F000000

/-- |x| times `scale` exceeds `limit`, exactly. -/
def exceeds (x : BitVec 32) (scale limit : Nat) : Bool :=
  Fp.lt (.fin false limit 0) (Fp.mul (fpDecode (fpAbs x)) (.fin false scale 0))

/-- The angle in degrees of the sum of the unit phasors of a group's live members (R213), none where it cannot be formed. -/
def groupAngle (l : List (Nat × BitVec 32 × BitVec 32 × BitVec 32)) : Option Rat :=
  let units := l.map (fun e => (degAngle e.2.2).map (fun d => Cx.turn (d / 360)))
  if units.contains none then none else
  let sum := Cx.sum (units.filterMap id)
  if sum = Cx.zero then none else some (sum.arg * 180 / pi)

/-- A group's angle against the main one in a slice, in degrees (R213). -/
def angleOff (x : CohSlice) (main g : CohGroup) : Option Rat :=
  match groupAngle (liveIn x g), groupAngle (liveIn x main) with
  | some a, some b => some (wrapDeg (a - b))
  | _, _ => none

/-- Frequency separation and drift of a group in a slice against the main one (R213), none where they cannot be formed. -/
def separation (c : Cfg) (coh : List CohSlice) (x : CohSlice) (main g : CohGroup) : Option (BitVec 32 × BitVec 32) :=
  let live := liveIn x g
  if live.length < c.fld Reg.ISL_COH_A_MIN_SIG then none else
  let df := fpSub (median (live.map (·.2.1))) (median ((liveIn x main).map (·.2.1)))
  let nd := (c.fs + 9) / 10
  let n := gridNumber c.fs x.t - nd
  let old := coh.find? (fun y => gridNumber c.fs y.t == n)
  match angleOff x main g, old.bind (fun y => angleOff y main g) with
  | some a, some b => some (df, fpOfRat (wrapDeg (a - b) * c.fs / nd))
  | _, _ => none

/-- The raise bit of a separation (R213). -/
def sepRaises (c : Cfg) (d : BitVec 32 × BitVec 32) : Bool :=
  exceeds d.1 10000 (c.fld Reg.ISL_COH_B_DF_ISL) && exceeds d.2 100 (c.fld Reg.ISL_COH_C_DRIFT_ISL)
    && (bitOf d.1.toNat 31 == bitOf d.2.toNat 31)

/-- Group `g` after revision `v` (R209, R213). -/
def State.groupStep (s : State) (c : Cfg) (v : Revision) (x : CohSlice) (main : Option CohGroup) (g : CohGroup) :
    CohGroup × State :=
  match main with
  | none => (g, s)
  | some m =>
    if m.number = g.number then (g, s) else
    let d := separation c s.isl.coh x m g
    let (rb, cb) := match d with
      | some d => (sepRaises c d, !sepRaises c d)
      | none => histPrev g.decision.hist v
    match histPut g.decision.hist v rb cb with
    | none => (g, s.bump .isl C.ISL_REV_OLD)
    | some h =>
      let n := c.fld Reg.ISL_COH_C_N_ISL
      let a := histDecide g.decision.active h n n
      let s := if a && !g.decision.active then (s.bump .isl C.ISL_COH_DECL g.number).islEvent 4 g.number
        else if !a && g.decision.active then s.islEvent 5 g.number else s
      let (df, dr) := d.getD (g.df, g.drift)
      ({ g with decision := ⟨a, a, h⟩, df, drift := dr }, s)

/-- The groups after revision `v`, in order. -/
def State.groupSteps (s : State) (c : Cfg) (v : Revision) (x : CohSlice) (main : Option CohGroup) :
    List CohGroup → List CohGroup × State
  | [] => ([], s)
  | g :: gs =>
    let (g, s) := s.groupStep c v x main g
    let (gs, s) := State.groupSteps s c v x main gs
    (g :: gs, s)

/-- Coherency on revision `v` (R212, R213): true where new groups apply from its slice. -/
def State.coherency (s : State) (c : Cfg) (v : Revision) : Bool × State :=
  if c.fld Reg.ISL_CTL_COH_EN = 0 then (false, s) else
  let apply_ : Option (List CohGroup) := match s.isl.newGroups with
    | some (t, gs) => if v.rev = 0 ∧ t ≤ v.release then some gs else none
    | none => none
  let s : State := match apply_ with
    | none => s
    | some gs =>
      let (new, left) := inherit (gs.map (fun g => (g.number, g.members))) s.isl.groups
      let s := { s with isl := { s.isl with groups := new, newGroups := none, since := some v.instant } }
      (left.filter (fun o => o.decision.active)).foldl (fun s o => s.islEvent 5 o.number) s
  let newer := match s.isl.coh with | y :: _ => decide (y.t < v.instant) | [] => true
  let x : CohSlice := ⟨v.instant, liveSignals c v⟩
  let n := if newer then s.isl.cohCount + 1 else s.isl.cohCount
  let s := { s with isl := { s.isl with
    coh := cohPut s.isl.coh x, cohCount := n
    cluDue := if newer ∧ v.rev = 0 ∧ n % 10 = 0 then some v.instant else s.isl.cluDue } }
  let (gs, s) := s.groupSteps c v x (mainGroup (c.fld Reg.ISL_COH_A_REF_SIG) s.isl.groups x) s.isl.groups
  (s.isl.since == some v.instant, { s with isl := { s.isl with groups := gs } })

/-- RECLUSTER (R212): re-clustering of the slice that is due starts. -/
def execRecluster (s : State) : Result :=
  match s.isl.cluDue, s.isl.reclust with
  | some t, none => .next { s with isl := { s.isl with cluDue := none, reclust := some t } }
  | _, _ => .next s

/-- RECLUSTER_DONE (R212): the groups are formed, and apply from the next revision 0 released. -/
def execReclusterDone (s : State) : Result :=
  match s.isl.reclust with
  | none => .next s
  | some t =>
    let c := s.cfgAt t
    let n := c.fld Reg.ISL_COH_A_CLU_WIN
    let w := (s.isl.coh.filter (fun x => decide (x.t ≤ t))).take n
    let new := cohComponents w n (c.fld Reg.ISL_COH_B_DF_COH)
    let s := { s with isl := { s.isl with
      reclust := none, newGroups := some (s.now, new.map (fun g : Nat × List Nat => ⟨g.1, g.2, RuleState.init, 0, 0⟩)) } }
    let s := s.bump .isl C.ISL_RECLUSTERS
    let changed := new.filter (fun g => !s.isl.groups.any (fun o => o.members == g.2))
    match changed with
    | g :: _ => .next (s.islEvent 7 g.1)
    | [] => .next (if new.length = s.isl.groups.length then s else s.islEvent 7 0)

/-! ### Island states (R214, R215) -/

/-- Declared coherency groups. -/
def State.declaredGroups (s : State) : List CohGroup := s.isl.groups.filter (fun g => g.decision.active)

/-- A declared group matches island `i` (R214). -/
def groupMatches (c : Cfg) (l : List NodeLabel) (x : CohSlice) (g : CohGroup) (i : Nat) : Bool :=
  let nodes := ((liveIn x g).map (fun e => (c.tab 13 e.1).at 4 2)).filter (· != 0xFFFF)
  let inside := nodes.filter (fun n => l.any (fun y => y.node == n && y.island == i))
  decide (nodes.length < 2 * inside.length)

/-- The island records of a revision (R214, R215). -/
def islandRecs (c : Cfg) (l : List NodeLabel) (declared : List Nat) (x : CohSlice) (gs : List CohGroup) : List IslandRec :=
  let topo := declared.map (fun i =>
    let unc := l.any (fun y => y.island == i && y.uncertain)
    match gs.find? (fun g => groupMatches c l x g i) with
    | some g => (⟨i, islandSize l i, 3, unc, g.number, g.df, g.drift⟩ : IslandRec)
    | none => ⟨i, islandSize l i, 1, unc, 0xFFFF, 0, 0⟩)
  let alone := gs.filter (fun g => !declared.any (fun i => groupMatches c l x g i))
  topo ++ alone.map (fun g => (⟨0xFFFF, 0, 2, false, g.number, g.df, g.drift⟩ : IslandRec))

/-- The bytes of an island record (R215). -/
def IslandRec.bytes (r : IslandRec) : List Byte :=
  leBytes 2 r.island ++ leBytes 2 r.nnode ++ leBytes 1 r.state ++ leBytes 1 (natOf r.uncertain) ++ leBytes 2 r.group
    ++ leBytes 4 r.df.toNat ++ leBytes 4 r.drift.toNat

/-- The bytes of an island result (R215). -/
def IslResult.bytes (r : IslResult) : List Byte :=
  let h := leBytes 4 0x524C5349 ++ leBytes 2 1 ++ leBytes 1 r.rev ++ leBytes 1 (natOf r.reclustered) ++ leBytes 4 (r.instant % nsPerS)
    ++ leBytes 6 (r.instant / nsPerS) ++ leBytes 1 r.recs.length ++ leBytes 1 r.ngroup ++ leBytes 4 r.epoch ++ leBytes 4 r.length
  h ++ leBytes 4 (crc32 h) ++ (r.recs.map IslandRec.bytes).flatten

/-- A key for what R214 counts: an island that is TOPO_ONLY, or a group that is COH_ONLY. -/
def confKey (r : IslandRec) : Option Nat :=
  match r.state with
  | 1 => some (2 * r.island)
  | 2 => some (2 * r.group + 1)
  | _ => none

/-- The counts of R214 after a newer slice: what has lasted CONF_WIN slices is due for CONF_MISS. -/
def State.countConf (s : State) (c : Cfg) (recs : List IslandRec) : State :=
  let keys := recs.filterMap confKey
  let conf := (distinct keys).map (fun k => (k, kvGetD s.isl.conf k 0 + 1))
  let due := (conf.filter (fun e => e.2 == c.fld Reg.ISL_COH_D_CONF_WIN)).map (·.1)
  { s with isl := { s.isl with conf, confDue := s.isl.confDue ++ due } }

/-- CONF_MISS (R214): a TOPO_ONLY or COH_ONLY state has lasted CONF_WIN slices. -/
def execConfMiss (s : State) : Result :=
  match s.isl.confDue with
  | [] => .next s
  | k :: rest =>
    .next ((State.bump { s with isl := { s.isl with confDue := rest } } .isl C.ISL_CONF_MISS).islEvent 6 (k / 2))

/-! ### Rules (R206 to R209) -/

/-- What the rules of KIND 4 to 6 rest on. -/
structure IslandView where
  labels : List NodeLabel
  declared : List Nat
  confirmed : List Nat
  groups : List CohGroup

/-- The raise bit of a KIND 4 to 6 rule (R207). -/
def islandRaise (w : IslandView) (r : Rec) : Bool :=
  let n := r.at 4 2
  let inside (l : List Nat) : Bool :=
    if n = 0xFFFF then !l.isEmpty else w.labels.any (fun x => x.node == n && l.contains x.island)
  match r.ruleKind with
  | 4 => inside w.declared
  | 5 => if n = 0xFFFF then !w.groups.isEmpty else w.groups.any (fun g => g.members.contains n)
  | _ => inside w.confirmed

/-- A rule waits for the comparison of two instances (R205): a SAFETY one, and one that rests on island detection while that runs
safety-attributed. -/
def Rec.ruleWaits (r : Rec) (detect : Bool) : Bool := r.ruleSafety || (detect && decide (4 ≤ r.ruleKind))

/-- Rule `i` is evaluated on revision `v` (R207 to R209): whether an input was missing, and the state after. -/
def State.ruleStep (s : State) (c : Cfg) (v : Revision) (w : IslandView) (waits : Bool) (i : Nat) (r : Rec) : Bool × State :=
  let old := kvGetD s.isl.rules i RuleState.init
  let s := s.bump .isl C.ISL_EVALS i
  let q : Quantity := if r.ruleKind ≤ 3 then ruleQuantity c r v else .stale
  let prev := histPrev old.hist v
  let missing := q == .missing
  let (rb, cb) := if 4 ≤ r.ruleKind then (islandRaise w r, !islandRaise w r) else
    match q with
    | .value x => thresholdBits r x
    | .stale => prev
    | .missing => match r.bitsAt 1 2 2 with | 0 => prev | 1 => (true, false) | _ => (false, true)
  let s := if missing then (s.bump .isl C.ISL_MISS_INPUT i).islEvent 8 i else s
  match histPut old.hist v rb cb with
  | none => (missing, s.bump .isl C.ISL_REV_OLD i)
  | some h =>
    let a := histDecide old.active h (r.at 7 1) (r.at 11 1)
    let s := if a && !old.active then (s.bump .isl C.ISL_RAISES i).islEvent 0 i
      else if !a && old.active then (s.bump .isl C.ISL_CLEARS i).islEvent 1 i else s
    let x : RuleState := ⟨a, if waits then old.shown else a, h⟩
    (missing, { s with isl := { s.isl with rules := kvPut s.isl.rules i x RuleState.init } })

/-- The rules that a revision evaluates: the enabled ones of the active table, and of a retiring slice those whose record
is the same in its epoch. -/
def State.rulesFor (s : State) (c : Cfg) : List (Nat × Rec) :=
  if c.fld Reg.ISL_CTL_EN = 0 then [] else
  (s.act.listed 12).filter (fun e => e.2.ruleOn && c.tab 12 e.1 == e.2)

/-- Island detection runs as a safety-attributed graph (R205). -/
def islandSafety (rules : List (Nat × Rec)) : Bool := rules.any (fun e => e.2.ruleSafety && decide (4 ≤ e.2.ruleKind))

/-- ISL_STAT after a revision. -/
def State.islStat (s : State) (recs : List IslandRec) (declared : List Nat) : State :=
  let s := s.wr Reg.ISL_STAT_NTOPO (min 255 declared.length)
  let s := s.wr Reg.ISL_STAT_NCOH (min 255 s.declaredGroups.length)
  let s := s.wr Reg.ISL_STAT_NCONF (min 255 (recs.filter (fun r => r.state == 3)).length)
  s.wr Reg.ISL_STAT_NGROUP (min 255 s.isl.groups.length)

/-- An island result goes to its publication ring (R215). -/
def State.produceIsl (s : State) (r : IslResult) (v : Revision) : State :=
  s.produce ⟨3, r.instant, v.k, r.rev, v.material, r.length, .island r⟩

/-- The completion time of what two instances decide on revision `v` (R14, R20, R216), which the spec gives for revision 0. -/
def Revision.due (v : Revision) (islands : Bool) : Option Instant :=
  if v.rev = 0 then some (v.release + (if islands then 40000 else 15000)) else none

/-- Publisher `p` waits for the comparison: it carries a SAFETY output, or an output of a rule that waits. -/
def State.pubWaits (s : State) (rules : List Nat) (p : Nat) : Bool :=
  s.pubSafety p || rules.any (fun i => (s.act.tab 12 i).at 2 2 / 32 == p)

/-- What ISL does with revision `v`: islands and coherent groups, the result, the rules, and what they decide; what waits for the
comparison of the two instances is shown after it (R148, R205 to R215, R223). -/
def State.evalRules (s : State) (v : Revision) : State :=
  let c := s.cfgRev v
  let newer := match s.isl.newest with | some t => decide (t < v.instant) | none => true
  let latest := match s.isl.newest with | some t => decide (t ≤ v.instant) | none => true
  let labels := s.labelsFor v.instant v.rev
  let declared := declaredIslands c labels
  let topoEn := c.fld Reg.ISL_CTL_TOPO_EN == 1
  let s := if newer && topoEn then s.compareIslands declared else s
  let (re, s) := s.coherency c v
  let x : CohSlice := ⟨v.instant, liveSignals c v⟩
  let gs := if c.fld Reg.ISL_CTL_COH_EN = 0 then [] else s.declaredGroups
  let recs := islandRecs c labels declared x gs
  let view : IslandView := ⟨labels, declared, (recs.filter (fun r => r.state == 3)).map (·.island), gs⟩
  let s := if newer then s.countConf c recs else s
  let s := if latest then (State.islStat { s with isl := { s.isl with newest := some v.instant, topo := declared } } recs declared)
    else s
  let rules := s.rulesFor c
  let held := islandSafety rules
  let (missing, s) := rules.foldl (fun (ms, s) e =>
    let (m, s) := s.ruleStep c v view (e.2.ruleWaits held) e.1 e.2
    (if m then ms ++ [e.1] else ms, s)) (([] : List Nat), s)
  let s := if latest then { s with isl := { s.isl with missing } } else s
  let res : IslResult := ⟨v.rev, re, v.instant, min 255 s.isl.groups.length, v.epoch, recs.take 255,
    32 + 16 * (recs.take 255).length⟩
  let delivers := topoEn || c.fld Reg.ISL_CTL_COH_EN == 1
  let s := if delivers && !held then s.produceIsl res v else s
  let wait := rules.filter (fun e => e.2.ruleWaits held)
  let waits := !wait.isEmpty
  let s := if waits then { s with isl := { s.isl with compare := s.isl.compare ++
      [.rules v.instant v.rev v.epoch (match v.due held with | some d => decide (d < s.now) | none => false)
        (wait.map (fun e => (e.1, (kvGetD s.isl.rules e.1 RuleState.init).active)))
        (if delivers && held then some (res, v) else none)] } } else s
  let s := s.digestNote v
  let s := if rules.isEmpty then s
    else s.decideAt v.instant v.rev v.epoch (fun p => !(waits && s.pubWaits (wait.map (·.1)) p))
  if waits || v.rev != 0 then s else s.digestSend v.instant s.safetyShown

/-- RULE_EVAL (R148, R205 to R215, R223): the next revision that waits for ISL, once its labels are there. -/
def execRuleEval (s : State) : Result :=
  match s.stch.work.find? (fun w => w.who == .rules) with
  | none => .next s
  | some w =>
    if s.stch.work.any (fun x => x.who == .topo && x.rev.instant == w.rev.instant && x.rev.rev == w.rev.rev) then .next s
    else .next (State.evalRules { s with stch := { s.stch with work := s.stch.work.erase w } } w.rev)

/-! ### Comparison of two instances (R14, R383) -/

/-- What two instances agree on is shown: the states of the rules that waited, and the result that waited. -/
def State.agreed (s : State) : Compare → State
  | .rules t rev epoch _ states res =>
    let rules := states.foldl (fun m e => kvPut m e.1 { kvGetD m e.1 RuleState.init with shown := e.2 } RuleState.init) s.isl.rules
    let s := { s with isl := { s.isl with rules } }
    let s := match res with | some (r, v) => s.produceIsl r v | none => s
    let s := s.decideAt t rev epoch (s.pubWaits (states.map (·.1)))
    if rev = 0 then s.digestSend t s.safetyShown else s
  | .graph .. => s

/-! ### CINCH (R209, R212, R223) -/

/-- ISL takes the configuration that applies at `b` in place of `old`: rules whose record or output changed go to IDLE, and
publishers whose record changed have no current state. -/
def State.islApply (s : State) (old : Cfg) (b : Instant) : State :=
  let outWord (c : Cfg) (o : Nat) : List Nat :=
    [c.fld (Reg.ISL_OUT_EN o), c.fld (Reg.ISL_OUT_SAFETY o), c.fld (Reg.ISL_OUT_PIN_EN o), c.fld (Reg.ISL_OUT_PIN o)]
  let keptRule (i : Nat) : Bool :=
    let r := s.act.tab 12 i
    old.tab 12 i == r && outWord old (r.at 2 2) == outWord s.act (r.at 2 2)
  let kept (e : Nat × RuleState) : Bool := keptRule e.1
  let gone := s.isl.rules.filter (fun e => !kept e)
  let pubKept (p : Nat) : Bool := old.tab 14 p == s.act.tab 14 p
  let cohOff := old.fld Reg.ISL_CTL_COH_EN != s.act.fld Reg.ISL_CTL_COH_EN
  let ended := if cohOff then s.declaredGroups else []
  let s := { s with isl := { s.isl with
    rules := s.isl.rules.filter kept
    missing := s.isl.missing.filter (fun i => old.tab 12 i == s.act.tab 12 i)
    compare := s.isl.compare.map (fun (x : Compare) => match x with
      | .rules t rev epoch m states res => .rules t rev epoch m (states.filter (fun e => keptRule e.1)) res
      | .graph g run => .graph g run)
    pubs := s.isl.pubs.filter (fun e => pubKept e.1)
    groups := if cohOff then [] else s.isl.groups
    coh := if cohOff then [] else s.isl.coh
    cohCount := if cohOff then 0 else s.isl.cohCount
    cluDue := if cohOff then none else s.isl.cluDue
    reclust := if cohOff then none else s.isl.reclust
    newGroups := if cohOff then none else s.isl.newGroups
    since := if cohOff then none else s.isl.since
    topo := if s.act.fld Reg.ISL_CTL_TOPO_EN = 0 then [] else s.isl.topo } }
  let s := (gone.filter (fun e => e.2.active)).foldl (fun s e => s.islEvent 1 e.1) s
  let s := ended.foldl (fun s g => s.islEvent 5 g.number) s
  s.decideBoundary b

end Sys2Proof.Machine
end

