-- ==== Sys2Proof/Machine/Mat.lean ====
section
/-!
DEFINITION. Real matrices behind the mode tracker (R184): products, pseudo-inverse, singular values and vectors by Jacobi rotations, and
eigenpairs from the characteristic polynomial.  Roots and rotations are carried to the working precision (notes/assumptions/12.md).
-/
namespace Sys2Proof.Machine

/-- A matrix: its rows. -/
abbrev Mat := List (List Rat)

/-- The transpose of a matrix with `n` columns. -/
def Mat.transpose (m : Mat) (n : Nat) : Mat := (List.range n).map (fun j => m.map (fun r => r.getD j 0))

/-- The product of a matrix and one with `n` columns. -/
def Mat.mul (a b : Mat) (n : Nat) : Mat :=
  let t := Mat.transpose b n
  a.map (fun r => t.map (dot r))

/-- The unit matrix. -/
def Mat.one (n : Nat) : Mat := (List.range n).map (fun i => (List.range n).map (fun j => if i = j then 1 else 0))

/-- Rows `p` and `q` turned by the angle with cosine `c` and sine `s`. -/
def Mat.turnRows (m : Mat) (p q : Nat) (c s : Rat) : Mat :=
  let a := m.getD p []
  let b := m.getD q []
  m.zipIdx.map (fun (r, i) =>
    if i = p then List.zipWith (fun x y => cut (c * x - s * y)) a b
    else if i = q then List.zipWith (fun x y => cut (s * x + c * y)) a b
    else r)

/-- One Jacobi rotation of a symmetric matrix `n` by `n` that clears its entry (p, q), with the rows of vectors turned along. -/
def jacobiTurn (n : Nat) (av : Mat × Mat) (p q : Nat) : Mat × Mat :=
  let at_ (i j : Nat) : Rat := (av.1.getD i []).getD j 0
  if at_ p q = 0 then av else
  let tau := (at_ q q - at_ p p) / (2 * at_ p q)
  let t := cut ((if tau < 0 then -1 else 1) / (|tau| + ratSqrt (1 + tau * tau)))
  let c := cut (1 / ratSqrt (1 + t * t))
  let s := cut (t * c)
  let a := Mat.turnRows av.1 p q c s
  (Mat.transpose (Mat.turnRows (Mat.transpose a n) p q c s) n, Mat.turnRows av.2 p q c s)

/-- Sweeps of rotations over every pair. -/
def jacobiSweeps (n : Nat) : Nat → Mat × Mat → Mat × Mat
  | 0, av => av
  | k + 1, av =>
    jacobiSweeps n k ((List.range n).foldl (fun av p => (List.range n).foldl (fun av q => if p < q then jacobiTurn n av p q else av) av) av)

/-- Eigenvalues and unit eigenvectors of a symmetric matrix, the largest eigenvalue first. -/
def symEigen (n : Nat) (a : Mat) : List (Rat × List Rat) :=
  let (d, v) := jacobiSweeps n 64 (a, Mat.one n)
  ((List.range n).map (fun i => ((d.getD i []).getD i 0, v.getD i []))).mergeSort (fun x y => decide (y.1 ≤ x.1))

/-- Singular values and left singular vectors of a matrix of `m` rows and `n` columns, the largest first. -/
def leftSingular (m n : Nat) (h : Mat) : List (Rat × List Rat) :=
  (symEigen m (Mat.mul h (Mat.transpose h n) m)).map (fun e => (ratSqrt (max 0 e.1), e.2))

/-- `pinv(x) · y` of matrices with `n` columns: the solution of the normal equations, and where they are singular the one without the parts
of `x` that vanish to the working precision. -/
def pinvMul (n : Nat) (x y : Mat) : Mat :=
  let xt := Mat.transpose x n
  let g := Mat.mul xt x n
  let r := Mat.mul xt y n
  match (List.range n).mapM (fun j => linSolve n (List.zipWith (fun row b => row ++ [b]) g (r.map (fun row => row.getD j 0)))) with
  | some cols => Mat.transpose cols n
  | none =>
    let e := symEigen n g
    let top := (e.head?.map (·.1)).getD 0
    let parts := e.filter (fun p => decide (top < p.1 * 2 ^ 100) && decide (0 < p.1))
    let inv : Mat := (List.range n).map (fun i => (List.range n).map (fun j =>
      (parts.map (fun p => p.2.getD i 0 * p.2.getD j 0 / p.1)).sum))
    Mat.mul inv r n

/-- The coefficients of the characteristic polynomial, from that of the highest power down: the steps of Faddeev and LeVerrier. -/
def charPolyFrom (n : Nat) (a : Mat) : Nat → Nat → Mat → List Rat
  | 0, _, _ => []
  | k + 1, i, m =>
    let am := Mat.mul a m n
    let tr := ((List.range n).map (fun j => (am.getD j []).getD j 0)).sum
    let c := -tr / ((i : Nat) : Rat)
    c :: charPolyFrom n a k (i + 1) (List.zipWith (fun r u => List.zipWith (fun x y => x + c * y) r u) am (Mat.one n))

/-- The characteristic polynomial. -/
def charPoly (n : Nat) (a : Mat) : List Rat := 1 :: charPolyFrom n a n 1 (Mat.one n)

/-- A polynomial at a number. -/
def polyAt (p : List Rat) (z : Cx) : Cx := p.foldl (fun acc c => (acc.mul z).add ⟨c, 0⟩) Cx.zero

/-- One round of the iteration of Durand and Kerner over all roots in turn. -/
def rootRound (p : List Rat) (zs : List Cx) : List Cx :=
  (List.range zs.length).foldl (fun zs i =>
    let z := zs.getD i Cx.zero
    let d := (zs.zipIdx.filter (fun e => e.2 != i)).foldl (fun acc e => (acc.mul (z.sub e.1)).cut) ⟨1, 0⟩
    zs.set i (z.sub ((polyAt p z).div d)).cut) zs

/-- The roots of a monic polynomial of degree `n`. -/
def polyRoots (n : Nat) (p : List Rat) : List Cx :=
  let start := (List.range n).foldl (fun (acc : List Cx × Cx) _ => (acc.1 ++ [acc.2], (acc.2.mul ⟨2 / 5, 9 / 10⟩).cut)) ([], ⟨1, 0⟩)
  (List.range 512).foldl (fun zs _ => rootRound p zs) start.1

/-- The solution of `n` complex equations in `n` unknowns, each as its coefficients and its right side; none where they are singular. -/
def cxLinear : Nat → List (List Cx) → Option (List Cx)
  | 0, _ => some []
  | n + 1, rows =>
    match rows.find? (fun r => r.headD Cx.zero != Cx.zero) with
    | none => none
    | some p =>
      match cxLinear n ((rows.erase p).map (fun r => cxReduce r p)) with
      | none => none
      | some xs =>
        some ((((p.getLast?.getD Cx.zero).sub (Cx.sum (List.zipWith Cx.mul (p.drop 1) xs))).div (p.headD Cx.zero)) :: xs)

/-- An eigenvector for an eigenvalue known to the working precision: two steps of inverse iteration. -/
def eigenVector (n : Nat) (a : Mat) (l : Cx) : List Cx :=
  let near : Cx := ⟨l.re + 1 / 2 ^ 100, l.im⟩
  let step (b : List Cx) : List Cx :=
    let x := (cxLinear n ((a.zipIdx.map (fun (r, i) =>
      (r.zipIdx.map (fun (v, j) => if i = j then (⟨v, 0⟩ : Cx).sub near else ⟨v, 0⟩)) ++ [b.getD i Cx.zero])))).getD b
    let top := x.foldl (fun m c => max m c.sq) 0
    x.map (fun c => (Cx.scale (1 / ratSqrt top) c).cut)
  step (step (List.replicate n ⟨1, 0⟩))

/-- The eigenpairs of a real matrix. -/
def eigenPairs (n : Nat) (a : Mat) : List (Cx × List Cx) := (polyRoots n (charPoly n a)).map (fun l => (l, eigenVector n a l))

/-- The natural logarithm of a complex number. -/
def Cx.ln (a : Cx) : Cx := ⟨ratLn a.sq / 2, a.arg⟩

end Sys2Proof.Machine
end

