-- ==== Sys2Proof/Machine/Osc.lean ====
section
/-!
DEFINITION. Mode tracking (spec/09): signals and their missing values, decimation, identification, matching of modes, forced
oscillations, dissipating energy, mode alarms and results.
-/
namespace Sys2Proof.Machine
open Sys2Proof

/-- OSC raises source `104 + k` with a set and an index (R202). -/
def State.oscEvent (s : State) (k set i : Nat) : State :=
  s.raise (104 + k) [(Reg.OSC_EVT_IDX_SET k, set), (Reg.OSC_EVT_IDX_INDEX k, i)]

/-! ### Sets, bands and signals (R178 to R182) -/

/-- Set `n` runs in a configuration (R178). -/
def Cfg.oscOn (c : Cfg) (n : Nat) : Bool := c.fld Reg.OSC_CTL_EN == 1 && c.fld (Reg.OSC_SET_A_EN n) == 1

/-- Band of a set. -/
def Cfg.oscBand (c : Cfg) (n : Nat) : Nat := c.fld (Reg.OSC_SET_A_BAND n)

/-- The half-span of a band's filter in milliseconds (R182). -/
def bandHalf (band : Nat) : Nat := ([8000, 2000, 400, 50][band]?).getD 8000

/-- The half-span in slices. -/
def bandSlices (band fs : Nat) : Nat := bandHalf band * fs / 1000

/-- The largest divisor of `n` not above `n / q`. -/
def largestDivisor (n q : Nat) : Nat := (filterBelow (n + 1) (fun d => d != 0 && n % d == 0 && decide (d * q ≤ n))).foldl max 1

/-- The decimation of a band (R182). -/
def bandDecim (band fs : Nat) : Nat :=
  match band with
  | 0 => fs
  | 1 => largestDivisor fs 4
  | 2 => largestDivisor fs 20
  | _ => 1

/-- The sample rate of a set. -/
def Cfg.oscRate (c : Cfg) (n : Nat) : Nat := c.fs / bandDecim (c.oscBand n) c.fs

/-- N of a set (R184). -/
def Cfg.oscWindow (c : Cfg) (n : Nat) : Nat := c.fld (Reg.OSC_SET_B_WIN_S n) * c.oscRate n

/-- A signal record's set, quantity and index (R179). -/
def Rec.sigSet (r : Rec) : Nat := r.at 2 1
def Rec.sigQty (r : Rec) : Nat := r.bitsAt 3 5 3
def Rec.sigIdx (r : Rec) : Nat := r.bitsAt 3 0 5
def Rec.sigOn (r : Rec) : Bool := r.bitAt 4 7
def Rec.sigRef (r : Rec) : Bool := r.bitAt 4 6
def Rec.sigAngleRef (r : Rec) : Bool := r.bitAt 4 5

/-- The enabled signal records of a set. -/
def Cfg.oscRecords (c : Cfg) (n : Nat) : List (Nat × Rec) := (c.listed 9).filter (fun e => e.2.sigOn && e.2.sigSet == n)

/-- The input signals of a set, rising (R180). -/
def Cfg.oscInputs (c : Cfg) (n : Nat) : List (Nat × Rec) := (c.oscRecords n).filter (fun e => !e.2.sigAngleRef)

/-- The enabled DEF records of a set (R192). -/
def Cfg.oscDefs (c : Cfg) (n : Nat) : List (Nat × Rec) := (c.listed 10).filter (fun e => e.2.bitAt 8 7 && e.2.at 3 1 == n)

/-- Key of quantity `q` of DEF record `d`: 0 P, 1 Q, 2 θ, 3 ln |V|. -/
def defKey (d q : Nat) : Nat := 2048 + 4 * d + q

/-- A record's value is missing (R181). -/
def oscMissing (x : SRec) : Bool := !x.present || bitOf x.quality 0 || bitOf x.quality 1 || bitOf x.quality 3

/-- A phasor of a record. -/
def SRec.ph (x : SRec) (i : Nat) : BitVec 32 × BitVec 32 := (x.phasors[i]?).getD (0, 0)

/-- The set's angle reference in a revision, `none` where it is missing. -/
def angleRef (c : Cfg) (n : Nat) (v : Revision) : Option (BitVec 32 × BitVec 32) :=
  match (c.oscRecords n).find? (fun e => e.2.sigAngleRef) with
  | none => none
  | some e =>
    let x := kvGetD v.recs (e.2.at 0 2) SRec.absent
    if oscMissing x then none else some (x.ph e.2.sigIdx)

/-- A phasor's angle in radians. -/
def phAngle (p : BitVec 32 × BitVec 32) : Rat := (ratAngle p.1 p.2).getD (realOf (Config.noAngle p.1 p.2))

/-- The angle of a phasor against a reference in radians, FP32, unwrapped so that it lies within π of the last value (R180, R193). -/
def oscAngle (ph ref : BitVec 32 × BitVec 32) (last : Option (BitVec 32)) : BitVec 32 :=
  let a := phAngle ph - phAngle ref
  let target : Rat := match last with | some l => realOf l | none => 0
  fpOfRat (a + 2 * pi * ((target - a) / (2 * pi) + 1 / 2).floor)

/-- The raw value of an input signal (R180), `none` where it is missing; `last` is what an angle unwraps from. -/
def rawValue (c : Cfg) (v : Revision) (ref : Option (BitVec 32 × BitVec 32)) (r : Rec) (last : Option (BitVec 32)) :
    Option (BitVec 32) :=
  let x := kvGetD v.recs (r.at 0 2) SRec.absent
  if oscMissing x then none else
  match r.sigQty with
  | 0 => ref.map (fun a => oscAngle (x.ph r.sigIdx) a last)
  | 1 => some (fpMag (x.ph r.sigIdx).1 (x.ph r.sigIdx).2)
  | 2 => some (fpSub x.freq (fpOfInt (if (c.tab 1 (r.at 0 2)).bitAt 0 4 then 60 else 50)))
  | _ => some ((x.analogs[r.sigIdx]?).getD 0)

/-- Three times a sum of two products, FP32. -/
def threeTimes (a b x y : BitVec 32) (neg : Bool) : BitVec 32 :=
  let q := Fp.mul (fpDecode x) (fpDecode y)
  fpEncode (Fp.mul (.fin false 3 0) (Fp.add (Fp.mul (fpDecode a) (fpDecode b)) (if neg then q.neg else q)))

/-- The four quantities of a DEF record (R193), `none` where one of its phasors or the angle reference is missing. -/
def defValues (v : Revision) (ref : Option (BitVec 32 × BitVec 32)) (r : Rec) (last : Option (BitVec 32)) :
    Option (List (BitVec 32)) :=
  let x := kvGetD v.recs (r.at 0 2) SRec.absent
  let y := kvGetD v.recs (r.at 4 2) SRec.absent
  match ref with
  | none => none
  | some a =>
    if oscMissing x || oscMissing y then none else
    let u := x.ph (r.at 2 1)
    let i := y.ph (r.at 6 1)
    some [threeTimes u.1 i.1 u.2 i.2 false, threeTimes u.2 i.1 u.1 i.2 true, oscAngle u a last,
      fpLn (fpMag u.1 u.2)]

/-- The values that a revision gives a set's inputs, missing ones as `none`; `last` gives what each angle unwraps from. -/
def oscValues (c : Cfg) (n : Nat) (v : Revision) (last : Nat → Option (BitVec 32)) : List (Nat × Option (BitVec 32)) :=
  let ref := angleRef c n v
  (c.oscInputs n).map (fun e => (e.1, rawValue c v ref e.2 (last e.1)))
    ++ ((c.oscDefs n).map (fun e =>
      let q := defValues v ref e.2 (last (defKey e.1 2))
      (List.range 4).map (fun i => (defKey e.1 i, q.bind (fun l => l[i]?))))).flatten

/-! ### Working state of a set -/

/-- A set right after a restart at `b` (R190). -/
def OscSet.fresh (b : Instant) : OscSet :=
  { since := b, sigs := [], slices := [], samples := [], taken := 0, warm := true, run := none, modes := [], nextMode := 1,
    fos := [], cands := [], nextFo := 1 }

/-- A signal of which nothing is known. -/
def OscSig.init : OscSig := ⟨0, 0, false, 0⟩

/-- Set `n`. -/
def State.oscSet (s : State) (n : Nat) : OscSet := kvGetD s.osc.sets n (OscSet.fresh 0)

/-- The live reference signals and all reference signals of a set. -/
def OscSet.refs (g : OscSet) (c : Cfg) (n : Nat) : Nat × Nat :=
  let l := (c.oscInputs n).filter (fun e => e.2.sigRef)
  ((l.filter (fun e => !(kvGetD g.sigs e.1 OscSig.init).dropped)).length, l.length)

/-- Every reference signal is dropped (R181). -/
def OscSet.noRef (g : OscSet) (c : Cfg) (n : Nat) : Bool := decide ((g.refs c n).1 = 0)

/-- OSC_STAT, OSC_FO and OSC_SET_STAT follow set `n`. -/
def State.oscStat (s : State) (n : Nat) : State :=
  let g := s.oscSet n
  let on := s.act.oscOn n
  let put (s : State) (f : Fld) (b : Bool) : State := s.wr f (setBits (s.rd f) n 1 (natOf b))
  let s := put s Reg.OSC_STAT_RUNNING on
  let s := put s Reg.OSC_STAT_WARMUP (on && g.warm)
  let s := put s Reg.OSC_FO_ACTIVE (on && !g.fos.isEmpty)
  let s := s.wr (Reg.OSC_SET_STAT_NFO n) g.fos.length
  let s := s.wrB (Reg.OSC_SET_STAT_WARMUP n) (on && g.warm)
  let s := s.wrB (Reg.OSC_SET_STAT_NO_REF n) (on && g.noRef s.act n)
  s.wr (Reg.OSC_SET_STAT_NLIVE n)
    ((s.act.oscInputs n).filter (fun e => !(kvGetD g.sigs e.1 OscSig.init).dropped)).length

/-- `s` with set `n` replaced. -/
def State.setOsc (s : State) (n : Nat) (g : OscSet) : State :=
  State.oscStat { s with osc := { s.osc with sets := kvSet s.osc.sets n g } } n

/-! ### Missing values (R181) -/

/-- A signal after a slice: what it contributes, whether it was live, whether a missing value was replaced, whether it is
dropped now, and the signal. -/
structure SigStep where
  value : BitVec 32
  live : Bool
  replaced : Bool
  drops : Bool
  sig : OscSig

/-- A signal meets its value of a slice (R181): `run` is MISS_RUN, and `back` the slices that bring a dropped one back. -/
def sigStep (g : OscSig) (x : Option (BitVec 32)) (run back : Nat) : SigStep :=
  match x, g.dropped with
  | some v, false => ⟨v, true, false, false, ⟨v, 0, false, 0⟩⟩
  | none, false =>
    if run < g.miss + 1 then ⟨g.last, true, true, true, ⟨g.last, g.miss + 1, true, 0⟩⟩
    else ⟨g.last, true, true, false, ⟨g.last, g.miss + 1, false, 0⟩⟩
  | some v, true =>
    if back ≤ g.back + 1 then ⟨0, false, false, false, ⟨v, 0, false, 0⟩⟩
    else ⟨0, false, false, false, ⟨v, g.miss, true, g.back + 1⟩⟩
  | none, true => ⟨0, false, false, false, ⟨g.last, g.miss + 1, true, 0⟩⟩

/-- A slice's revision 0 enters a set: its signals advance, and its values are kept. -/
def State.oscSlice (s : State) (c : Cfg) (n : Nat) (v : Revision) : State :=
  let g := s.oscSet n
  let back := 2 * bandSlices (c.oscBand n) c.fs + 1
  let last (k : Nat) : Option (BitVec 32) := match kvGet? g.sigs k with
    | some x => if x.dropped then none else some x.last
    | none => none
  let (s, sigs, vals) := (oscValues c n v last).foldl (fun (acc : State × KV OscSig × KV (BitVec 32 × Bool)) e =>
    let (s, sigs, vals) := acc
    let st := sigStep (kvGetD sigs e.1 OscSig.init) e.2 (c.fld Reg.OSC_CTL_MISS_RUN) back
    let s := if st.replaced then s.bump .osc C.OSC_HELD_VALUES n else s
    let s := if st.drops then (s.bump .osc C.OSC_DROPS n).oscEvent 5 n (if e.1 < 2048 then e.1 else 0) else s
    (s, kvSet sigs e.1 st.sig, kvSet vals e.1 (st.value, st.live))) (s, g.sigs, [])
  s.setOsc n { g with sigs, slices := g.slices ++ [⟨v.instant, v.rev, vals⟩] }

/-! ### Decimation (R182, R183) -/

/-- The grid instant `n` slices from the beginning. -/
def gridOf (fs n : Nat) : Instant := gridAt fs (n / fs) (n % fs)

/-- The corner of a band's high-pass in Hz (R182). -/
def bandCorner (band : Nat) : Rat := ([1 / 200, 1 / 20, 1 / 2, 5 / 2][band]?).getD (1 / 200)

/-- The band's second-order Butterworth high-pass (R182) over a low-passed value and the (low, high) pairs of the two samples before,
newest first; PRESUMED (notes/assumptions/46.md): the analogue filter under the bilinear transformation that keeps its corner. -/
def oscHighPass (band rate : Nat) (x : BitVec 32) (before : List (BitVec 32 × BitVec 32)) : BitVec 32 :=
  let (c, s) := cosSin (bandCorner band / (2 * rate))
  let k := cut (s / c)
  let r2 := ratSqrt 2
  let norm := 1 / (1 + r2 * k + k * k)
  let lo (i : Nat) : Rat := ((before[i]?).map (fun p => realOf p.1)).getD 0
  let hi (i : Nat) : Rat := ((before[i]?).map (fun p => realOf p.2)).getD 0
  fpOfRat (norm * (realOf x - 2 * lo 0 + lo 1 - 2 * (k * k - 1) * hi 0 - (1 - r2 * k + k * k) * hi 1))

/-- The decimated sample of the slice number `k` from the slices held: `none` where its span is not whole.  It holds the quantities that
every slice of its span holds. -/
def oscSampleAt (g : OscSet) (band fs rate k : Nat) (before : List OscSample) : Option OscSample :=
  let h := bandSlices band fs
  if k < h then none else
  let span := (List.range (2 * h + 1)).map (fun i => g.slices.find? (fun x => x.t == gridOf fs (k - h + i)))
  if span.any (·.isNone) then none else
  let span := span.filterMap id
  let centre := span[h]?
  let keys := ((centre.map (fun x => x.vals.map (·.1))).getD []).filter (fun i => span.all (fun x => (kvGet? x.vals i).isSome))
  let low := keys.map (fun i => (i, Config.oscLowPass band fs (span.map (fun x => (kvGetD x.vals i (0, false)).1))))
  let prev := (before.reverse.take 2)
  let high := low.map (fun e => (e.1, oscHighPass band rate e.2
    (prev.map (fun p => (kvGetD p.low e.1 0, kvGetD p.high e.1 0)))))
  let live := ((centre.map (fun x => x.vals)).getD []).filterMap (fun e => if e.2.2 then some e.1 else none)
  some ⟨gridOf fs k, low, high, live⟩

/-- What a set keeps: the window and 2i samples before it while no update runs, and the slices whose samples may still be
computed or recomputed. -/
def OscSet.prune (g : OscSet) (c : Cfg) (n : Nat) : OscSet :=
  let keep := c.oscWindow n + 2 * c.fld (Reg.OSC_SET_A_ORDER_I n)
  let samples := if g.run.isSome then g.samples else g.samples.drop (g.samples.length - keep)
  let half := 1000000 * bandHalf (c.oscBand n)
  let newest := (g.slices.getLast?.map (·.t)).getD 0
  let from_ := match samples.head? with
    | some x => min x.t (newest - half)
    | none => newest - half
  { g with samples, slices := g.slices.filter (fun x => decide (from_ ≤ x.t + half)) }

/-! ### Results (R196 to R199) -/

/-- The window of a set at a sample instant: the newest N samples. -/
def OscSet.window (g : OscSet) (n : Nat) (t : Instant) : List OscSample :=
  let l := g.samples.filter (fun x => decide (x.t ≤ t))
  l.drop (l.length - n)

/-- Percentage of the window in which each input was live (R199). -/
def livePct (w : List OscSample) (ids : List Nat) : List Nat :=
  ids.map (fun i => if w.isEmpty then 0 else 100 * (w.filter (fun x => x.live.contains i)).length / w.length)

/-- The result of a set for a revision: `t` its sample instant, `start` the release of the revision. -/
def State.oscResult (s : State) (c : Cfg) (n rev : Nat) (instant : Instant) (epoch : Nat) (t start : Instant)
    (status : Nat) (restarted revised : Bool) (modes : List OscMode) (fos : List OscFo) : OscResult :=
  let g := s.oscSet n
  let w := g.window (c.oscWindow n) t
  let ids := (c.oscInputs n).map (·.1)
  let (live, all) := g.refs c n
  let shapes := c.fld (Reg.OSC_SET_A_SHAPE_EN n) == 1
  ⟨n, c.oscBand n, rev, status, instant, epoch, t, restarted, revised, decide (live < all), w.length, s.now - start, s.now, ids,
    shapes, modes, fos, livePct w ids,
    64 + 32 * modes.length + 144 * fos.length + (if shapes then 8 * modes.length * ids.length else 0)⟩

/-- A mode record of a result formed at `now_` (R197). -/
def OscMode.bytes (m : OscMode) (now_ : Instant) : List Byte :=
  leBytes 2 m.id ++ leBytes 1 m.conf ++ leBytes 1 (natOf m.new + 2 * natOf m.nearFo + 4 * natOf m.alarm)
    ++ leBytes 4 m.freq.toNat ++ leBytes 4 m.zeta.toNat ++ leBytes 4 m.sigma.toNat ++ leBytes 4 m.energy.toNat
    ++ leBytes 2 m.peak ++ leBytes 2 0 ++ leBytes 4 (fpOfRatio ((now_ - m.first : Nat) : Int) nsPerS).toNat ++ leBytes 4 0

/-- An FO record (R198). -/
def OscFo.bytes (o : OscFo) : List Byte :=
  leBytes 2 o.id ++ leBytes 1 (natOf o.new + 2 * natOf o.defValid) ++ leBytes 1 o.locs.length
    ++ leBytes 4 o.freq.toNat ++ leBytes 4 o.amp.toNat ++ leBytes 2 o.ampSig ++ leBytes 2 0
    ++ (o.locs.map (fun l => leBytes 1 l.1 ++ leBytes 1 0 ++ leBytes 2 l.2.1 ++ leBytes 4 l.2.2.toNat)).flatten
    ++ List.replicate (8 * (16 - o.locs.length)) 0

/-- A signed value in units of 2π / 65,536, as 16 bits. -/
def turn16 (rad : Rat) : Nat := ((rad * 65536 / (2 * pi) + 1 / 2).floor % 65536).toNat

/-- The shape block of a mode (R199): magnitudes against the largest, angles against PEAK_SIG's. -/
def OscMode.shapeBytes (m : OscMode) (ids pct : List Nat) : List Byte :=
  let top := (m.shape.map (fun p => (Cx.mk (realOf p.1) (realOf p.2)).sq)).foldl max 0
  let peak := kvGetD (ids.zip m.shape) m.peak (0, 0)
  ((m.shape.zip pct).map (fun e =>
    let sq := (Cx.mk (realOf e.1.1) (realOf e.1.2)).sq
    leBytes 4 (fpSqrtRat (if top = 0 then 0 else sq / top)).toNat ++ leBytes 2 (turn16 (phAngle e.1 - phAngle peak))
      ++ leBytes 1 e.2 ++ leBytes 1 0)).flatten

/-- The bytes of a result (R196). -/
def OscResult.bytes (r : OscResult) : List Byte :=
  let h := leBytes 4 0x5243534F ++ leBytes 2 1 ++ leBytes 1 r.rev ++ leBytes 1 r.status
    ++ leBytes 4 (r.instant % nsPerS) ++ leBytes 6 (r.instant / nsPerS) ++ leBytes 1 r.set ++ leBytes 1 r.band ++ leBytes 4 r.epoch
    ++ leBytes 4 (r.sample % nsPerS) ++ leBytes 6 (r.sample / nsPerS) ++ leBytes 1 r.modes.length ++ leBytes 1 r.fos.length
    ++ leBytes 2 r.ids.length
    ++ leBytes 2 (natOf r.shapes + 2 * natOf r.restarted + 4 * natOf r.revised + 8 * natOf r.refPartial)
    ++ leBytes 4 r.winFill ++ leBytes 4 r.elapsed ++ leBytes 4 r.length ++ List.replicate 8 0
  h ++ leBytes 4 (crc32 h) ++ (r.modes.map (fun m => m.bytes r.formed)).flatten ++ (r.fos.map OscFo.bytes).flatten
    ++ (if r.shapes then (r.modes.map (fun m => m.shapeBytes r.ids r.livePct)).flatten else [])

/-- A result is delivered on its publication ring (R196). -/
def State.produceOsc (s : State) (r : OscResult) (k : Nat) : State :=
  State.produce (s.wr (Reg.OSC_SET_STAT_NMODE_REP r.set) r.modes.length)
    ⟨2, r.instant, k, r.rev, decide (r.rev ≠ 0), r.length, .osc r⟩

/-- The first result whose window is half full ends the warm-up (R190): RESTARTED and event 108. -/
def State.oscWarm (s : State) (c : Cfg) (n : Nat) (t : Instant) : Bool × Bool × State :=
  let g := s.oscSet n
  if !g.warm then (false, false, s)
  else if 2 * (g.window (c.oscWindow n) t).length < c.oscWindow n then (true, false, s)
  else (false, true, (s.setOsc n { g with warm := false }).oscEvent 4 n 0)

/-! ### Identification (R184 to R187) -/

/-- The edges of a band (R182). -/
def bandEdges (band : Nat) : Rat × Rat :=
  match band with
  | 0 => (1 / 100, 1 / 10)
  | 1 => (1 / 10, 1)
  | 2 => (1, 5)
  | _ => (5, 45)

/-- What an identification is computed from (R184): R_b, i, N, the samples of each input divided by its SCALE, the newest first, and
the positions of the reference signals. -/
structure OscInput where
  rate : Nat
  orderI : Nat
  window : Nat
  inputs : List (List Rat)
  refs : List Nat

/-- A pole found at an order (R184): f, ζ, φ and e. -/
structure Pole where
  f : Rat
  z : Rat
  shape : List Cx
  e : Rat

/-- Λ_j (R184): the sum over the window of the products of every input with every reference `j` samples before. -/
def OscInput.lambda (x : OscInput) (j : Nat) : Mat :=
  x.inputs.map (fun a => x.refs.map (fun r => dot (a.take x.window) (((x.inputs[r]?).getD []).drop j)))

/-- The block Hankel matrix H (R184). -/
def OscInput.hankel (x : OscInput) : Mat :=
  let l := (List.range (2 * x.orderI - 1)).map (fun j => x.lambda (j + 1))
  ((List.range x.orderI).map (fun p => (List.range x.inputs.length).map (fun m =>
    ((List.range x.orderI).map (fun q => (((l[p + q]?).getD [])[m]?).getD [])).flatten.map (· / (x.window : Rat))))).flatten

/-- The candidates at an order (R184) from the singular values and vectors of H: f in the band and ζ from -0.1 to 0.5.  The share e is as
the device weighs it. -/
def polesAt (x : OscInput) (band : Nat) (usv : List (Rat × List Rat)) (order : Nat) : List Pole :=
  let m := x.inputs.length
  let top := usv.take order
  let o : Mat := (List.range (m * x.orderI)).map (fun i => top.map (fun e => cut (e.2.getD i 0 * ratSqrt e.1)))
  let a := pinvMul order (o.take (m * (x.orderI - 1))) (o.drop m)
  let (lo, hi) := bandEdges band
  ((eigenPairs order a).filter (fun p => decide (0 < p.1.im))).filterMap (fun p =>
    let s := Cx.scale (x.rate : Rat) p.1.ln
    let f := s.im / (2 * pi)
    let z := -s.re / ratSqrt s.sq
    let shape := (o.take m).map (fun r => (Cx.sum (List.zipWith (fun c v => Cx.scale c v) r p.2)).cut)
    if lo ≤ f ∧ f ≤ hi ∧ -1 / 10 ≤ z ∧ z ≤ 1 / 2 then
      some ⟨f, z, shape, Config.oscShare (x.lambda 1) (p.1.re, p.1.im) (shape.map (fun c => (c.re, c.im)))⟩
    else none)

/-- The modal assurance criterion of two shapes is at least `q` (R185). -/
def macAtLeast (a b : List Cx) (q : Rat) : Bool :=
  let inner (x y : List Cx) : Cx := Cx.sum (List.zipWith (fun u v => u.conj.mul v) x y)
  decide (q * ((inner a a).re * (inner b b).re) ≤ (inner a b).sq)

/-- A candidate is found again in another one (R185). -/
def samePole (p q : Pole) : Bool :=
  decide (|p.f - q.f| ≤ p.f / 100) && decide (|p.z - q.z| ≤ max (|p.z| / 5) (1 / 200)) && macAtLeast p.shape q.shape (9 / 10)

/-- The orders of R184. -/
def oscOrders (nmode : Nat) : List Nat :=
  let n0 := 2 * nmode + 8
  [n0, n0 - 4, n0 - 8, n0 - 12].filter (fun n => decide (2 ≤ n))

/-- The modes of an update (R185): the NMODE candidates of order n0 with the largest e, in ascending frequency, with CONF. -/
def oscPoles (x : OscInput) (band nmode : Nat) : List (Pole × Nat) :=
  let usv := leftSingular (x.inputs.length * x.orderI) (x.refs.length * x.orderI) x.hankel
  let at_ := (oscOrders nmode).map (polesAt x band usv)
  let top := ((at_.head?.getD []).mergeSort (fun a b => decide (b.e ≤ a.e))).take nmode
  let conf (p : Pole) : Nat := 25 * (1 + (at_.tail.filter (fun l => l.any (samePole p))).length)
  (top.mergeSort (fun a b => decide (a.f ≤ b.f))).map (fun p => (p, conf p))

/-- A reported shape as numbers. -/
def OscMode.phi (m : OscMode) : List Cx := m.shape.map (fun p => ⟨realOf p.1, realOf p.2⟩)

/-- The pairs of R186, nearest frequency first: position of the new mode, position of the previous one. -/
def oscPairs (new : List (Pole × Nat)) (old : List OscMode) : List (Nat × Nat) :=
  let all := (new.zipIdx.map (fun p => (old.zipIdx.filterMap (fun q =>
    let f := realOf q.1.freq
    let d := |p.1.1.f - f|
    if d ≤ f / 20 ∧ macAtLeast p.1.1.shape q.1.phi (7 / 10) then some (p.2, q.2, d) else none)))).flatten
  let sorted := all.mergeSort (fun a b => decide (a.2.2 ≤ b.2.2))
  (sorted.foldl (fun (acc : List (Nat × Nat)) t =>
    if acc.any (fun m => m.1 == t.1 || m.2 == t.2.1) then acc else acc ++ [(t.1, t.2.1)]) [])

/-- SIGMA_Z (R187) of ζ and f over a window of `span` samples at a rate. -/
def oscSigma (z f : Rat) (span rate : Nat) : BitVec 32 :=
  fpSqrtRat (9 / 4 * max z (1 / 200) / (2 * pi * f * (span / rate)))

/-- The next identity after `n`: 1 to 65,535, skipping 0. -/
def nextId16 (n : Nat) : Nat := if n = 65535 then 1 else n + 1

/-- The record with the largest component of a shape. -/
def peakOf (ids : List Nat) (shape : List Cx) : Nat :=
  (((ids.zip shape).foldl (fun (b : Option (Nat × Rat)) e => match b with
    | none => some (e.1, e.2.sq)
    | some x => if x.2 < e.2.sq then some (e.1, e.2.sq) else b) none).map (·.1)).getD 0

/-- The modes of a set after an identification: matched ones keep their identity, others take the next (R186), and previous
modes unmatched in three consecutive updates are forgotten; `advance` is false for a REVISED result. -/
def OscSet.match_ (g : OscSet) (now_ : Instant) (ids : List Nat) (span rate : Nat) (new : List (Pole × Nat)) (advance : Bool) :
    List OscMode × OscSet :=
  let pairs := oscPairs new g.modes
  let (modes, next) := new.zipIdx.foldl (fun (acc : List OscMode × Nat) p =>
    let (l, next) := acc
    let (q, conf) := p.1
    let old := ((pairs.find? (fun m => m.1 == p.2)).bind (fun m => g.modes[m.2]?))
    let m : OscMode :=
      { id := (old.map (·.id)).getD next, conf, new := old.isNone, nearFo := false, alarm := false
        freq := fpOfRat q.f, zeta := fpOfRat q.z, sigma := oscSigma q.z q.f span rate, energy := fpOfRat q.e
        shape := q.shape.map Cx.fp, peak := peakOf ids q.shape, first := (old.map (·.first)).getD now_,
        lost := 0 }
    (l ++ [m], if old.isSome then next else nextId16 next)) ([], g.nextMode)
  let left := g.modes.zipIdx.filterMap (fun q =>
    if pairs.any (fun m => m.2 == q.2) then none
    else if !advance then some q.1
    else if 2 ≤ q.1.lost then none else some { q.1 with lost := q.1.lost + 1 })
  (modes, { g with modes := modes ++ left, nextMode := next })

/-! ### Forced oscillations (R191, R193) -/

/-- The bins of a band at spacing 1 / winS. -/
def bandBins (band winS : Nat) : List Nat :=
  let (lo, hi) := bandEdges band
  (List.range ((hi * winS).floor.toNat + 1)).filter (fun k => decide (lo * winS ≤ k))

/-- The median of values, the mean of the middle two where their number is even. -/
def medianOf (l : List Rat) : Rat :=
  let m := l.mergeSort (fun a b => decide (a ≤ b))
  let n := m.length
  if n % 2 = 1 then m.getD (n / 2) 0 else (m.getD (n / 2 - 1) 0 + m.getD (n / 2) 0) / 2

/-- Two bins are within two of each other. -/
def nearBin (a b : Nat) : Bool := decide (a ≤ b + 2 ∧ b ≤ a + 2)

/-- The samples of one input in a window. -/
def seriesOf (w : List OscSample) (i : Nat) : List Rat := w.map (fun x => realOf (kvGetD x.high i 0))

/-- The samples of an input signal divided by its SCALE (R179). -/
def scaledOf (w : List OscSample) (e : Nat × Rec) : List Rat := (seriesOf w e.1).map (· / realOf (BitVec.ofNat 32 (e.2.at 8 4)))

/-- Weight `n` of `len` of the Hann window. -/
def hann (len n : Nat) : Rat := (1 - (cosSin (n / len)).1) / 2

/-- The Hann-weighted sum of a series against a rotation of `turns` a sample. -/
def hannSum (x : List Rat) (turns : Rat) : Cx :=
  Cx.sum (x.zipIdx.map (fun (v, n) => (Cx.scale (v * hann x.length n) (Cx.turn (-(turns * n)))).cut))

/-- Power of a bin of spacing 1/winS in the Hann-windowed periodogram (R191). -/
def oscPower (winS rate bin : Nat) (x : List Rat) : Rat := (hannSum x (bin / (winS * rate : Nat))).sq

/-- The candidates of an update (R191): the bins that stand out in at least FO_MIN live signals and exceed both neighbours
in the sum.  A power exceeds another by d dB when its tenth power is 10^d times that of the other. -/
def foCandidates (c : Cfg) (n : Nat) (live : List (List Rat)) : List Nat :=
  let winS := c.fld (Reg.OSC_SET_B_FO_WIN_S n)
  let power := oscPower winS (c.oscRate n)
  let bins := bandBins (c.oscBand n) winS
  let least := live.map (fun x => (x, 10 ^ c.fld (Reg.OSC_SET_C_FO_RATIO_DB n) * medianOf (bins.map (fun k => power k x)) ^ 10))
  let sum (k : Nat) : Rat := (live.map (power k)).sum
  bins.filter (fun k =>
    decide (c.fld (Reg.OSC_SET_C_FO_MIN n) ≤ (least.filter (fun m => decide (m.2 ≤ power k m.1 ^ 10))).length)
      && decide (sum (k - 1) < sum k) && decide (sum (k + 1) < sum k))

/-- The logarithm of a power; that of 0 is as the device takes it. -/
def logPower (p : Rat) : Rat := if p ≤ 0 then realOf 0xFF800000 else ratLn p

/-- The frequency of the parabola through the summed log powers of a bin and its neighbours at its peak (R191). -/
def oscPeak (live : List (List Rat)) (winS rate bin : Nat) : Rat :=
  let at_ (k : Nat) : Rat := (live.map (fun x => logPower (oscPower winS rate k x))).sum
  let (a, b, c) := (at_ (bin - 1), at_ bin, at_ (bin + 1))
  let d := if a - 2 * b + c = 0 then 0 else (a - c) / (2 * (a - 2 * b + c))
  (bin + d) / winS

/-- The square of a series' amplitude at a frequency (R191): that of its Hann-weighted rotation (DESIGN CHOICE,
notes/assumptions/46.md). -/
def oscAmpSq (rate : Nat) (f : Rat) (x : List Rat) : Rat :=
  let w := ((List.range x.length).map (hann x.length)).sum
  if w = 0 then 0 else 4 * (hannSum x (f / rate)).sq / (w * w)

/-- Frequency, amplitude and its signal of a bin (R191). -/
def foMeasure (c : Cfg) (n : Nat) (w : List OscSample) (live : List (Nat × Rec)) (bin : Nat) : BitVec 32 × BitVec 32 × Nat :=
  let winS := c.fld (Reg.OSC_SET_B_FO_WIN_S n)
  let rate := c.oscRate n
  let f := oscPeak (live.map (scaledOf w)) winS rate bin
  let best := live.foldl (fun (b : Option (Nat × Rat)) e =>
    let a := oscAmpSq rate f (scaledOf w e)
    match b with
    | none => some (e.1, a)
    | some x => if x.2 < a then some (e.1, a) else b) none
  (fpOfRat f, fpSqrtRat ((best.map (·.2)).getD 0), (best.map (·.1)).getD 0)

/-- The complex amplitude of a series at a frequency by Hann-weighted least squares (R193); none where there is no one. -/
def oscFit (rate : Nat) (f : Rat) (x : List Rat) : Option Cx :=
  match leastSquares 2 (x.zipIdx.map (fun (v, n) =>
      let (c, s) := cosSin (f * n / rate)
      (hann x.length n, v, [c, s]))) with
  | some [a, b] => some ⟨a, -b⟩
  | _ => none

/-- D of a DEF record at a frequency from its samples of P, Q, θ and ln |V| (R193). -/
def oscDissipation (rate : Nat) (f : Rat) (p q th l : List Rat) : Rat :=
  match oscFit rate f p, oscFit rate f q, oscFit rate f th, oscFit rate f l with
  | some p, some q, some th, some l => -(pi * f) * ((p.conj.mul th).im + (q.conj.mul l).im)
  | _, _, _, _ => realOf 0x7FC00000

/-- The samples of the last DEF_WIN_S of a window. -/
def defWindow (c : Cfg) (n : Nat) (w : List OscSample) : List OscSample :=
  w.drop (w.length - c.fld (Reg.OSC_SET_C_DEF_WIN_S n) * c.oscRate n)

/-- The set has held samples of its DEF records for DEF_WIN_S (R193). -/
def defValid (c : Cfg) (n : Nat) (w : List OscSample) : Bool :=
  let l := defWindow c n w
  decide (c.fld (Reg.OSC_SET_C_DEF_WIN_S n) * c.oscRate n ≤ l.length) && !(c.oscDefs n).isEmpty
    && l.all (fun x => (c.oscDefs n).all (fun d => (kvGet? x.high (defKey d.1 0)).isSome))

/-- The locations of an FO (R193): the 16 with the largest SCORE, descending, with the records summed. -/
def foLocations (c : Cfg) (n : Nat) (w : List OscSample) (f : BitVec 32) : List (Nat × Nat × BitVec 32) :=
  let w := defWindow c n w
  let ds := (c.oscDefs n).map (fun e =>
    let q (i : Nat) : List Rat := seriesOf w (defKey e.1 i)
    (e.2.at 7 1, oscDissipation (c.oscRate n) (realOf f) (q 0) (q 1) (q 2) (q 3)))
  let locs := (distinct (ds.map (·.1))).map (fun l =>
    let of := ds.filter (fun d => d.1 == l)
    (l, of.length, (of.map (·.2)).sum))
  ((locs.mergeSort (fun a b => decide (b.2.2 ≤ a.2.2))).take 16).map (fun l => (l.1, l.2.1, fpOfRat l.2.2))

/-- The forced oscillations of a set after an update over window `w` (R191, R193), with those declared and ended. -/
def OscSet.track (g : OscSet) (c : Cfg) (n : Nat) (w : List OscSample) : List Nat × List Nat × OscSet :=
  let winN := c.fld (Reg.OSC_SET_B_FO_WIN_S n) * c.oscRate n
  if w.length < winN then ([], [], g) else
  let wf := w.drop (w.length - winN)
  let live := (c.oscInputs n).filter (fun e => !(kvGetD g.sigs e.1 OscSig.init).dropped)
  let bins := foCandidates c n (live.map (scaledOf wf))
  let foN := c.fld (Reg.OSC_SET_C_FO_N n)
  let valid := defValid c n w
  let cands := bins.map (fun b =>
    (b, 1 + ((g.cands.filter (fun x => nearBin x.1 b)).map (·.2)).foldl max 0))
  let measured (o : OscFo) (b : Nat) : OscFo :=
    let (f, a, i) := foMeasure c n wf live b
    { o with bin := b, new := false, freq := f, amp := a, ampSig := i, misses := 0, defValid := valid, locs := foLocations c n w f }
  let kept := g.fos.map (fun o => match bins.find? (fun b => nearBin b o.bin) with
    | some b => measured o b
    | none => { o with new := false, misses := o.misses + 1, defValid := valid, locs := foLocations c n w o.freq })
  let ended := (kept.filter (fun o => decide (foN ≤ o.misses))).map (·.id)
  let kept := kept.filter (fun o => decide (o.misses < foN))
  let (fos, next, new) := (cands.filter (fun x => decide (foN ≤ x.2))).foldl (fun (acc : List OscFo × Nat × List Nat) x =>
    let (fos, next, new) := acc
    if fos.any (fun o => nearBin o.bin x.1) || decide (4 ≤ fos.length) then acc
    else
      let o := measured ⟨next, x.1, true, valid, 0, 0, 0, 0, []⟩ x.1
      (fos ++ [{ o with new := true }], nextId16 next, new ++ [next])) (kept, g.nextFo, [])
  (new, ended, { g with fos, cands, nextFo := next })

/-- A mode lies within two bins of an active FO (R191). -/
def nearFo (fos : List OscFo) (winS : Nat) (f : BitVec 32) : Bool :=
  fos.any (fun o => decide (|realOf f - realOf o.freq| * winS ≤ 2))

/-! ### Mode alarms (R194, R195) -/

/-- A mode alarm record of which nothing is known. -/
def OscAlarm.init : OscAlarm := ⟨false, 0, 0⟩

/-- A number lies in [F_LO, F_HI] of an alarm record. -/
def Rec.almBand (r : Rec) (f : BitVec 32) : Bool :=
  fpLe (BitVec.ofNat 32 (r.at 4 4)) f && fpLe f (BitVec.ofNat 32 (r.at 8 4))

/-- A mode with ζ below a limit meets a damping record. -/
def Rec.almMode (r : Rec) (limit : Fp) (m : OscMode) : Bool :=
  r.almBand m.freq && Fp.lt (fpDecode m.zeta) limit && decide (r.at 3 1 ≤ m.conf)

/-- Raise and clear conditions of a record (R195). -/
def almConditions (r : Rec) (modes : List OscMode) (fos : List OscFo) : Bool × Bool :=
  let f (off : Nat) : Fp := fpDecode (BitVec.ofNat 32 (r.at off 4))
  if r.at 1 1 = 0 then
    (modes.any (r.almMode (f 12)), !modes.any (r.almMode (Fp.add (f 12) (f 16))))
  else
    let least := Fp.mul (f 20) (Fp.add (.fin false 1 0) (f 16).neg)
    (fos.any (fun o => r.almBand o.freq && !Fp.lt (fpDecode o.amp) (f 20)),
     !fos.any (fun o => r.almBand o.freq && !Fp.lt (fpDecode o.amp) least))

/-- A record after an update. -/
def OscAlarm.next (a : OscAlarm) (raise clear : Bool) (nOn nOff : Nat) : OscAlarm :=
  if a.active then
    if !clear then { a with off := 0 }
    else if nOff ≤ a.off + 1 then OscAlarm.init else { a with off := a.off + 1 }
  else
    if !raise then { a with on := 0 }
    else if nOn ≤ a.on + 1 then ⟨true, 0, 0⟩ else { a with on := a.on + 1 }

/-- Alarm record `i` is ACTIVE. -/
def State.oscActive (s : State) (i : Nat) : Bool := (kvGetD s.osc.alarms i OscAlarm.init).active

/-- `s` with alarm record `i` replaced, OSC_ALM and the events following. -/
def State.setAlarm (s : State) (set i : Nat) (a : OscAlarm) : State :=
  let was := s.oscActive i
  let s := { s with osc := { s.osc with alarms := kvPut s.osc.alarms i a OscAlarm.init } }
  let s := s.wr Reg.OSC_ALM_ACTIVE (setBits (s.rd Reg.OSC_ALM_ACTIVE) i 1 (natOf a.active))
  if a.active && !was then (s.bump .osc C.OSC_ALARMS_RAISED set).oscEvent 0 set i
  else if !a.active && was then s.oscEvent 1 set i
  else s

/-- The alarm records of a set advance on an ordinary OK result (R195). -/
def State.oscAlarms (s : State) (c : Cfg) (n : Nat) (modes : List OscMode) (fos : List OscFo) : State :=
  ((c.listed 11).filter (fun e => e.2.bitAt 2 7 && e.2.at 0 1 == n)).foldl (fun s e =>
    let (up, down) := almConditions e.2 modes fos
    s.setAlarm n e.1 ((kvGetD s.osc.alarms e.1 OscAlarm.init).next up down (e.2.at 24 1) (e.2.at 25 1))) s

/-- A mode held by an ACTIVE damping record (R197). -/
def State.oscHolds (s : State) (c : Cfg) (n : Nat) (m : OscMode) : Bool :=
  (c.listed 11).any (fun e => e.2.bitAt 2 7 && e.2.at 0 1 == n && e.2.at 1 1 == 0 && s.oscActive e.1
    && e.2.almMode (Fp.add (fpDecode (BitVec.ofNat 32 (e.2.at 12 4))) (fpDecode (BitVec.ofNat 32 (e.2.at 16 4)))) m)

/-! ### Updates -/

/-- The input of an identification over a window. -/
def oscInput (g : OscSet) (c : Cfg) (n : Nat) (t : Instant) : OscInput :=
  let l := c.oscInputs n
  let all := g.samples.filter (fun x => decide (x.t ≤ t))
  let i := c.fld (Reg.OSC_SET_A_ORDER_I n)
  let w := (all.drop (all.length - (c.oscWindow n + 2 * i))).reverse
  { rate := c.oscRate n, orderI := i, window := (g.window (c.oscWindow n) t).length
    inputs := l.map (scaledOf w)
    refs := (l.zipIdx.filter (fun e => e.1.2.sigRef)).map (·.2) }

/-- The modes of a set at a sample instant, and the state with what they change (R184 to R187, R191). -/
def State.oscModes (s : State) (c : Cfg) (n : Nat) (t : Instant) (advance : Bool) : List OscMode × State :=
  let g := s.oscSet n
  let poles := oscPoles (oscInput g c n t) (c.oscBand n) (c.fld (Reg.OSC_SET_A_NMODE n))
  let span := (g.window (c.oscWindow n) t).length
  let (modes, g) := g.match_ s.now ((c.oscInputs n).map (·.1)) span (c.oscRate n) poles advance
  (modes.map (fun m => { m with nearFo := nearFo g.fos (c.fld (Reg.OSC_SET_B_FO_WIN_S n)) m.freq }), s.setOsc n g)

/-- Revision 0 `v` enters running set `n` (one of a slice before its restart counts as REV_OLD, R190), under its epoch's configuration `c`: where it completes a sample, the set takes it and
starts its update, or reports SKIPPED while one still runs. -/
def State.oscTake (c : Cfg) (v : Revision) (s : State) (n : Nat) : State :=
  if !s.act.oscOn n then s else
  if v.instant < (s.oscSet n).since then s.bump .osc C.OSC_REV_OLD n else
  let s := s.oscSlice c n v
  let g := s.oscSet n
  let fs := c.fs
  let k := gridNumber fs v.instant - bandSlices (c.oscBand n) fs
  let d := bandDecim (c.oscBand n) fs
  match (if k % fs % d = 0 then oscSampleAt g (c.oscBand n) fs (c.oscRate n) k g.samples else none) with
  | none => s.setOsc n (g.prune c n)
  | some x =>
    let busy := g.run.isSome
    let run : OscRun := ⟨v.instant, v.k, v.epoch, v.release, x.t⟩
    let s := s.setOsc n (OscSet.prune { g with
      samples := g.samples ++ [x], taken := g.taken + 1, run := if busy then g.run else some run } c n)
    if !busy then s else
    let (_, restarted, s) := s.oscWarm c n x.t
    let s := (s.bump .osc C.OSC_SKIPPED n).oscEvent 6 n 0
    s.produceOsc (s.oscResult c n 0 v.instant v.epoch x.t v.release 3 restarted false [] []) v.k

/-- OSC_SAMPLE (R180 to R183, R188): the next revision 0 that waits for the tracker enters every running set, and each set
for which it completes a sample takes that sample and starts its update, or reports SKIPPED while one still runs. -/
def execOscSample (s : State) : Result :=
  match s.stch.work.find? (fun w => w.who == .osc) with
  | none => .next s
  | some w =>
    let v := w.rev
    if v.rev ≠ 0 then .next s else
    let c := s.cfgRev v
    .next ((List.range 16).foldl (State.oscTake c v) { s with stch := { s.stch with work := s.stch.work.erase w } })

/-- OSC_UPDATE (R184 to R187, R191, R193, R195, R196): the update in progress of a set ends. -/
def execOscUpdate (set : Fin 16) (s : State) : Result :=
  let n := set.val
  let g := s.oscSet n
  match g.run with
  | none => .next s
  | some r =>
    let c := s.cfgOf r.epoch
    let s := s.setOsc n { g with run := none }
    let s := s.bump .osc C.OSC_UPDATES n
    let (warm, restarted, s) := s.oscWarm c n r.sample
    let g := s.oscSet n
    let (new, ended, g) := g.track c n (g.window (c.oscWindow n) r.sample)
    let s := s.setOsc n g
    let s := new.foldl (fun s i => (s.bump .osc C.OSC_FO_DECLARED n).oscEvent 2 n i) s
    let s := ended.foldl (fun s i => s.oscEvent 3 n i) s
    let status := if warm then 1 else if g.noRef c n then 2 else 0
    if status ≠ 0 then
      .next (s.produceOsc (s.oscResult c n 0 r.instant r.epoch r.sample r.release status restarted false [] g.fos) r.k)
    else
      let (modes, s) := s.oscModes c n r.sample true
      let before := (List.range 64).map s.oscActive
      let s := s.oscAlarms c n modes g.fos
      let s := if (List.range 64).map s.oscActive = before then s else s.decideAt r.instant 0 r.epoch (fun _ => true)
      let modes := modes.map (fun m => { m with alarm := s.oscHolds c n m })
      .next (s.produceOsc (s.oscResult c n 0 r.instant r.epoch r.sample r.release 0 restarted false modes g.fos) r.k)

/-- A revision replaces the values of its slice where a set still holds it (R183, R189): a value missing in the revision, or
that the signal did not contribute, stays. -/
def OscSet.revise (g : OscSet) (c : Cfg) (n : Nat) (v : Revision) : OscSet :=
  match g.slices.find? (fun x => x.t == v.instant) with
  | none => g
  | some old =>
    let before := (g.slices.filter (fun x => decide (x.t < v.instant))).getLast?
    let last (k : Nat) : Option (BitVec 32) := before.bind (fun b => (kvGet? b.vals k).map (·.1))
    let vals := (oscValues c n v last).map (fun e =>
      let (x, live) := kvGetD old.vals e.1 (0, false)
      (e.1, if live then e.2.getD x else x, live))
    { g with slices := g.slices.map (fun x => if x.t = v.instant then ⟨x.t, v.rev, vals⟩ else x) }

/-- The samples of the window of `n` whose span covers `t` are computed anew (R189): the samples, and whether one was. -/
def OscSet.recompute (g : OscSet) (n band fs rate : Nat) (t : Instant) : Bool × OscSet :=
  let half := bandSlices band fs
  let k := gridNumber fs t
  let gone := g.samples.length - n
  let (l, any_) := (g.samples.drop gone).foldl (fun (acc : List OscSample × Bool) x =>
    let j := gridNumber fs x.t
    if j ≤ k + half ∧ k ≤ j + half then
      match oscSampleAt g band fs rate j acc.1 with
      | some y => (acc.1 ++ [y], true)
      | none => (acc.1 ++ [x], acc.2)
    else (acc.1 ++ [x], acc.2)) (g.samples.take gone, false)
  (any_, { g with samples := l })

/-- How many samples whose span covers slice number `k` have left the window of `n` since the restart (R189). -/
def OscSet.leftCount (g : OscSet) (n band fs k : Nat) : Nat :=
  match (g.samples.drop (g.samples.length - n)).head? with
  | none => 0
  | some x =>
    let first := gridNumber fs x.t
    let half := bandSlices band fs
    ((List.range (2 * half / bandDecim band fs + 2)).filter (fun i =>
      let j := first - (i + 1) * bandDecim band fs
      decide (i + 1 ≤ g.taken - n) && decide (k ≤ j + half) && decide (j ≤ k + half))).length

/-- Material revision `v` enters running set `n`: what it changes is computed anew and reported, and what it comes too late for counts. -/
def State.oscRevise (c : Cfg) (v : Revision) (s : State) (n : Nat) : State :=
  if !s.act.oscOn n then s else
  let g := s.oscSet n
  if v.instant < g.since then s.bump .osc C.OSC_REV_OLD n else
  let band := c.oscBand n
  let fs := c.fs
  let window := c.oscWindow n
  let s := s.bumpBy .osc C.OSC_REV_OLD (g.leftCount window band fs (gridNumber fs v.instant)) n
  let (changed, g) := (g.revise c n v).recompute window band fs (c.oscRate n) v.instant
  let s := s.setOsc n g
  if !changed then s else
  let s := s.bump .osc C.OSC_REVISED n
  let t := (g.samples.getLast?.map (·.t)).getD 0
  let (warm, restarted, s) := s.oscWarm c n t
  let status := if warm then 1 else if g.noRef c n then 2 else 0
  let (modes, s) := if status = 0 then s.oscModes c n t false else ([], s)
  let modes := modes.map (fun m => { m with alarm := s.oscHolds c n m })
  s.produceOsc (s.oscResult c n v.rev v.instant v.epoch t v.release status restarted true modes g.fos) v.k

/-- OSC_REVISION (R189, R190): the next material revision that waits for the tracker. -/
def execOscRevision (s : State) : Result :=
  match s.stch.work.find? (fun w => w.who == .osc) with
  | none => .next s
  | some w =>
    let v := w.rev
    if v.rev = 0 then .next s else
    let c := s.cfgRev v
    .next ((List.range 16).foldl (State.oscRevise c v) { s with stch := { s.stch with work := s.stch.work.erase w } })

/-! ### CINCH (R190, R195) -/

/-- A CINCH from `old` restarts set `n`. -/
def oscRestarts (old new : Cfg) (n : Nat) : Bool :=
  let word (c : Cfg) : List Nat :=
    [c.fld Reg.OSC_CTL_EN, c.fld (Reg.OSC_SET_A_EN n), c.fld (Reg.OSC_SET_A_SHAPE_EN n), c.fld (Reg.OSC_SET_A_BAND n),
     c.fld (Reg.OSC_SET_A_NMODE n), c.fld (Reg.OSC_SET_A_ORDER_I n), c.fld (Reg.OSC_SET_B_WIN_S n),
     c.fld (Reg.OSC_SET_B_FO_WIN_S n), c.fld (Reg.OSC_SET_C_FO_RATIO_DB n), c.fld (Reg.OSC_SET_C_FO_MIN n),
     c.fld (Reg.OSC_SET_C_FO_N n), c.fld (Reg.OSC_SET_C_DEF_WIN_S n)]
  let records (c : Cfg) : List (Nat × Rec) := (c.listed 9).filter (fun e => e.2.sigSet == n)
  word old != word new || records old != records new
    || (new.oscRecords n).any (fun e => !sameStream old new (e.2.at 0 2))

/-- OSC takes the configuration that applies at `b` in place of `old`: sets restart, and alarm records that change or whose
set restarts go to IDLE. -/
def State.oscApply (s : State) (old : Cfg) (b : Instant) : State :=
  let restart := (List.range 16).filter (oscRestarts old s.act)
  let gone := (List.range 64).filter (fun i =>
    let r := s.act.tab 11 i
    old.tab 11 i != r || restart.contains (r.at 0 1))
  let s := gone.foldl (fun s i => s.setAlarm ((old.tab 11 i).at 0 1) i OscAlarm.init) s
  restart.foldl (fun s n =>
    if s.act.oscOn n then s.setOsc n (OscSet.fresh b)
    else State.oscStat { s with osc := { s.osc with sets := kvDel s.osc.sets n } } n) s

end Sys2Proof.Machine
end

