-- ==== Sys2Proof/Machine/Pub.lean ====
section
/-!
DEFINITION. Publication (spec/12): output streams and their frames, commands from control centres, and the delivery of
publication items to host rings.
-/
namespace Sys2Proof.Machine
open Sys2Proof

/-! ### Output records (R254) -/

/-- An output record's fields. -/
def Rec.outOn (r : Rec) : Bool := r.bitAt 0 7
def Rec.out61850 (r : Rec) : Bool := r.bitAt 0 6
def Rec.outRevMode (r : Rec) : Nat := r.bitsAt 0 4 2
def Rec.outAuth (r : Rec) : Nat := r.bitsAt 0 2 2
def Rec.startOn (r : Rec) : Bool := r.bitAt 0 1
def Rec.outPort (r : Rec) : Nat := r.at 1 1
def Rec.outKey (r : Rec) : Nat := r.at 3 1
def Rec.outId (r : Rec) : Nat := r.at 4 2

/-- The block selectors of an output: entry, FLAGS and PH_MASK. -/
def Rec.selectors (r : Rec) : List (Nat × Nat × Nat) :=
  (List.range (r.at 2 1)).map (fun i => (r.at (64 + 8 * i) 2, r.at (66 + 8 * i) 1, r.at (68 + 8 * i) 4))

/-- An output's destination is an IPv4 address: ::ffff:a.b.c.d in network order. -/
def Rec.outV4 (r : Rec) : Bool := r.at 16 10 == 0 && r.at 26 2 == 0xFFFF

/-- Where an output's frames go (R254). -/
def Rec.outHead (r : Rec) : OutHead :=
  { dst := leBytes 6 (r.at 8 6), vlan := r.at 14 2, ip := leBytes 16 (r.at 16 16), sport := r.at 34 2, dport := r.at 32 2 }

/-- Output `o` is on (R259). -/
def State.outputOn (s : State) (o : Nat) : Bool := bitOf (s.rd Reg.PUB_OUT_ON_ON) o

/-- Output `o` turns on or off. -/
def State.setOutput (s : State) (o : Nat) (b : Bool) : State :=
  s.wr Reg.PUB_OUT_ON_ON (setBits (s.rd Reg.PUB_OUT_ON_ON) o 1 (natOf b))

/-- The package sends output streams (R363, R385). -/
def State.outputsRun (s : State) : Bool := s.gooseMode == 2

/-- A revision is one that output `o` sends (R255, R259, R263). -/
def State.outputTakes (s : State) (c : Cfg) (o : Nat) (r : Rec) (v : Revision) : Bool :=
  r.outOn && s.outputOn o && decide (kvGetD s.pub.from_ o 0 ≤ v.instant)
    && v.k % (c.fs / r.at 6 2) == 0 && revSelected r.outRevMode v.rev v.material

/-! ### C37.118.2 frames (R256, R257) -/

/-- STAT bits 8 to 6 from TB_ERR. -/
def statErr (ns : Nat) : Nat :=
  if ns < 100 then 1 else if ns < 1000 then 2 else if ns < 10000 then 3 else if ns < 100000 then 4
  else if ns < 1000000 then 5 else if ns < 10000000 then 6 else 7

/-- STAT bits 5 and 4 from UNLOCK_S. -/
def statUnlock (sec : Nat) : Nat := if sec < 10 then 0 else if sec < 100 then 1 else if sec < 1000 then 2 else 3

/-- STAT of a block (R256): `cfg` tells that a CINCH changed the output within CFGCHG_S. -/
def State.blockStat (s : State) (x : SRec) (cfg : Bool) : Nat :=
  let q := x.quality
  let err := if !x.present then 3 else if bitOf q 0 then 1 else if bitOf q 1 then 2 else 0
  let b (k : Nat) : Bool := x.present && bitOf q k
  2 ^ 14 * err + 2 ^ 13 * natOf (b 2 || b 3) + 2 ^ 12 * natOf (b 5) + 2 ^ 11 * natOf (b 10)
    + 2 ^ 10 * natOf (b 9 || cfg) + 2 ^ 9 * natOf (b 4 || (x.present && x.held))
    + 2 ^ 6 * statErr (s.rd Reg.TB_ERR_ERR_NS) + 2 ^ 4 * statUnlock s.unlockS

/-- The value that stands for an absent one (R256). -/
def outNan : Nat := 0x7FC00000

/-- The bytes of one block: the selected phasors in ascending index, FREQ, ROCOF, analog values and digital words. -/
def State.blockBytes (s : State) (c : Cfg) (v : Revision) (cfg : Bool) (sel : Nat × Nat × Nat) : List Byte :=
  let (e, flags, mask) := sel
  let t := c.tab 1 e
  let x := kvGetD v.recs e SRec.absent
  let f (w : BitVec 32) : List Byte := beBytes 4 (if x.present then w.toNat else outNan)
  let ph := (filterBelow (t.at 42 1) (bitOf mask)).map (fun i => f (x.ph i).1 ++ f (x.ph i).2)
  let an := if bitOf flags 0 then (List.range (t.at 43 1)).map (fun i => f ((x.analogs[i]?).getD 0)) else []
  let dg := if bitOf flags 1 then
    (List.range (t.at 44 1)).map (fun i => beBytes 2 (if x.present then (x.digitals[i]?).getD 0 else 0)) else []
  beBytes 2 (s.blockStat x cfg) ++ ph.flatten ++ f x.freq ++ f x.rocof ++ an.flatten ++ dg.flatten

/-- A CINCH changed output `o` at most CFGCHG_S seconds ago (R256). -/
def State.cfgChanged (s : State) (o : Nat) : Bool :=
  match kvGet? s.pub.changed o with
  | some b => decide (s.now < b + nsPerS * s.cf Reg.PUB_CTL_CFGCHG_S)
  | none => false

/-- The data frame of a revision from SYNC to CHK (R256). -/
def State.dataFrame (s : State) (c : Cfg) (o : Nat) (r : Rec) (v : Revision) : List Byte :=
  let blocks := (r.selectors.map (s.blockBytes c v (s.cfgChanged o))).flatten
  let b := [0xAA, 0x02] ++ beBytes 2 (14 + blocks.length + 2) ++ beBytes 2 r.outId ++ beBytes 4 (s.soc v.instant)
    ++ beBytes 4 (s.fracsec (r.at 36 4) v.instant) ++ blocks
  b ++ beBytes 2 (crc16 b)

/-- The publication trailer (R257). -/
def State.pubTrailer (s : State) (v : Revision) : List Byte :=
  leBytes 1 0x51 ++ leBytes 1 v.rev ++ leBytes 2 (s.rd Reg.PAIR_STAT_CLAIM) ++ leBytes 4 v.epoch

/-- The use bit of output signing (R395). -/
def useSign : Nat := 1

/-- The authentication trailer over a message of an output (R100, R257): none where its key cannot be used. -/
def State.outTrailer (s : State) (r : Rec) (v : Revision) (msg : List Byte) : Option (List Byte) × State :=
  if r.outAuth = 0 then (some [], s) else
  let (k, s) := s.keyStart r.outKey r.outAuth useSign
  let iv := beBytes 2 r.outId ++ beBytes 4 (s.soc v.instant) ++ beBytes 4 (s.fracsec (r.at 36 4) v.instant) ++ [0, 0]
  (if k.usable then some (0 :: leBytes 16 (authTag r.outAuth k.key iv msg)) else none, s)

/-! ### 90-5 frames (R258) -/

/-- The number of a 61850 quality: validity, and the test bit. -/
def outQuality (x : SRec) : Nat :=
  (if !x.present || bitOf x.quality 0 then 1 else if bitOf x.quality 6 then 3 else 0)
    + (if x.present && bitOf x.quality 1 then 2 ^ 11 else 0)

/-- The values of the dataset in the order of R102, each phasor as magnitude and angle in degrees. -/
def outValues (c : Cfg) (v : Revision) (sel : Nat × Nat × Nat) : List (BitVec 32) × List Nat :=
  let (e, flags, mask) := sel
  let t := c.tab 1 e
  let x := kvGetD v.recs e SRec.absent
  let ph := (filterBelow (t.at 42 1) (bitOf mask)).map (fun i =>
    [fpMag (x.ph i).1 (x.ph i).2, fpAngleDeg (x.ph i).1 (x.ph i).2])
  let an := if bitOf flags 0 then (List.range (t.at 43 1)).map (fun i => (x.analogs[i]?).getD 0) else []
  (ph.flatten ++ [x.freq, x.rocof] ++ an,
    if bitOf flags 1 then (List.range (t.at 44 1)).map (fun i => (x.digitals[i]?).getD 0) else [])

/-! ### Sending (R255) -/

/-- Length of a UDP frame of an output with a payload, from destination address to frame check sequence. -/
def udpLen (r : Rec) (payload : Nat) : Nat :=
  max 64 (14 + (if r.bitAt 14 15 then 4 else 0) + (if r.outV4 then 20 else 40) + 8 + payload + 4)

/-- Length of a 90-5 payload: session and APDU headers with the values (PRESUMED, notes/assumptions/50.md). -/
def spduLen (nval ndig auth : Nat) : Nat := 96 + 12 * nval + 8 * ndig + 21 + (if auth = 0 then 0 else 20)

/-- A frame of output `o` is queued on queue 6 and reported (R255, R263). -/
def State.queueOutput (s : State) (o : Nat) (r : Rec) (v : Revision) (body : TxBody) (payload : Nat) : State :=
  let s := (s.bump .pub C.PUB_OUT_FRAMES).send r.outPort 6 (fwFrame body (udpLen r payload))
  { s with pub := { s.pub with newest := kvSet s.pub.newest o (max v.instant (kvGetD s.pub.newest o 0)) } }

/-- The frame of a revision for output `o` (R255 to R258); without a usable key none is sent, which OUT_DROPPED counts. -/
def State.sendOutput (s : State) (c : Cfg) (o : Nat) (r : Rec) (v : Revision) : State :=
  let claim := s.rd Reg.PAIR_STAT_CLAIM
  if !r.out61850 then
    let msg := s.dataFrame c o r v ++ s.pubTrailer v
    match s.outTrailer r v msg with
    | (none, s) => s.bump .pub C.PUB_OUT_DROPPED
    | (some tr, s) =>
      let bs := msg ++ tr
      s.queueOutput o r v (.output r.outHead o v.instant v.rev claim v.epoch bs) bs.length
  else
    let sel := (r.selectors.head?).getD (0, 0, 0)
    let x := kvGetD v.recs sel.1 SRec.absent
    let (vals, dig) := outValues c v sel
    let n := kvGetD s.pub.spdu o 0
    let utc := ((v.instant : Int) - nsPerS * s.utcOffset).toNat
    let (k, s) : KeyUse × State := if r.outAuth = 0 then (⟨0, 0, true⟩, s) else s.keyStart r.outKey r.outAuth useSign
    if !k.usable then s.bump .pub C.PUB_OUT_DROPPED else
    let (tag, s) := s.free
    let keyId := match kvGet? s.bound r.outKey with | some b => if r.outAuth = 0 then 0 else b.keyId | none => 0
    let s := { s with pub := { s.pub with spdu := kvSet s.pub.spdu o ((n + 1) % 2 ^ 32) } }
    s.queueOutput o r v
      (.outputSpdu r.outHead r.outId (r.at 56 4) (r.text 40 16) o v.instant v.rev claim v.epoch n (v.k / (c.fs / r.at 6 2)) utc vals dig (outQuality x) keyId
        (if r.outAuth = 0 then none else some (tag % 2 ^ 128)))
      (spduLen vals.length dig.length r.outAuth)

/-- OUTPUT_FRAME (R255 to R258, R363): the next released revision that waits for the output streams is framed for every
output that sends it. -/
def execOutputFrame (s : State) : Result :=
  match s.stch.work.find? (fun w => w.who == .outputs) with
  | none => .next s
  | some w =>
    let v := w.rev
    let c := s.cfgRev v
    let s := { s with stch := { s.stch with work := s.stch.work.erase w } }
    if !s.outputsRun then .next s else
    .next (((c.listed 16).filter (fun e => s.outputTakes c e.1 e.2 v)).foldl (fun s e => s.sendOutput c e.1 e.2 v) s)

/-! ### Commands from control centres (R259) -/

/-- The output that a command frame of port `n` addresses. -/
def State.addressed (s : State) (n : Nat) (f : Frame) (m : C37) : Option (Nat × Rec) :=
  (s.act.listed 16).find? (fun e =>
    let r := e.2
    r.outOn && (s.act.destPorts r.outPort).contains n && r.outId == m.idcode.toNat
      && (match f.ip with | some h => h.dstPort == r.at 34 2 | none => false))

/-- The first slice instant whose revision 0 is not yet released. -/
def State.unreleased (s : State) : Instant :=
  match s.openSlices with
  | x :: _ => min x.instant s.stch.next
  | [] => s.stch.next

/-- Output `o` is turned on or off: a stream that turns on sends from the next slice whose revision 0 is not released. -/
def State.turn (s : State) (o : Nat) (b : Bool) : State :=
  let s := s.setOutput o b
  if b then { s with pub := { s.pub with from_ := kvSet s.pub.from_ o s.unreleased } } else s

/-- A command frame's trailer verifies under an output's key (R100, R259). -/
def State.cmdTrailer (s : State) (r : Rec) (m : C37) : Bool × State :=
  if r.outAuth = 0 then (true, s) else
  match m.trailer with
  | none => (false, s)
  | some (sel, tag) =>
    if sel ≠ 0 then (false, s) else
    let (k, s) := s.keyStart r.outKey r.outAuth useIngest
    let iv := beBytes 2 m.idcode.toNat ++ beBytes 4 m.soc ++ beBytes 4 (m.tqFlags.toNat * 2 ^ 24 + m.frac) ++ [0, 0]
    (k.usable && authTag r.outAuth k.key iv m.bytes == tag, s)

/-- C37118_CMD_FRAME (R259): the oldest command frame received acts on the output it addresses; one that addresses no
output is a frame that matched nothing.  A unit that is or becomes a Belay applies only changes forwarded to it. -/
def execC37118CmdFrame (s : State) : Result :=
  match s.takeParsed (fun f => match f.body with | .c37 m => m.typ == .command | _ => false) with
  | none => .next s
  | some (p, s) =>
    let item : InFrame := ⟨p.port, none, p.ts, p.cells, p.frame⟩
    match p.frame.body with
    | .c37 m =>
      match s.addressed p.port p.frame m with
      | none => .next (s.copyToRing Reg.ING_RING_UNM_EN Reg.ING_RING_UNM_RING 0 item)
      | some (o, r) =>
        let (ok, s) := s.cmdTrailer r m
        if !ok then .next ((s.freeCells item).bump .pub C.PUB_CMD_REJECTED) else
        let s := s.bump .pub C.PUB_CMD_RX
        let cmd := m.cmd.toNat
        if cmd ≠ 1 ∧ cmd ≠ 2 then .next (s.copyToRing Reg.ING_RING_CFG_EN Reg.ING_RING_CFG_RING 1 item) else
        let s := s.freeCells item
        let b := cmd == 2
        if !s.pairMode then .next (s.turn o b) else
        match s.rd Reg.PAIR_STAT_STATE with
        | 4 => .next ((s.turn o b).toPeer 0 (.onOff o b))
        | 5 | 7 => .next (s.turn o b)
        | _ => .next s
    | _ => .next s

/-! ### Delivery to host rings (R260, R261, R325) -/

/-- The bytes of a graph's result (R296): header, words and validity map. -/
def GraphResult.bytes (r : GraphResult) : List Byte :=
  let n := r.words.length
  let h := leBytes 4 0x53455247 ++ leBytes 2 1 ++ leBytes 1 r.rev ++ leBytes 1 r.status ++ leBytes 4 (r.instant % nsPerS)
    ++ leBytes 6 (r.instant / nsPerS) ++ leBytes 1 r.graph ++ leBytes 1 (natOf r.late + 2 * natOf r.timed + 4 * natOf r.compared)
    ++ leBytes 4 r.epoch ++ leBytes 4 r.elapsed ++ leBytes 2 n ++ leBytes 2 0 ++ leBytes 4 r.length ++ List.replicate 24 0
  let valid (w : Nat) : Nat := (((r.words.drop (32 * w)).take 32).zipIdx.map (fun x => if x.1.2 then 2 ^ x.2 else 0)).sum
  h ++ leBytes 4 (crc32 h) ++ (r.words.map (fun w => leBytes 4 w.1.toNat)).flatten
    ++ ((List.range ((n + 31) / 32)).map (fun w => leBytes 4 (valid w))).flatten

/-- The bytes of an item's body (R260). -/
def PubBody.bytes : PubBody → List Byte
  | .revision r => r.bytes
  | .lse r => r.bytes
  | .osc r => r.bytes
  | .island r => r.bytes
  | .graph r => r.bytes

/-- A publication completion (R325). -/
def pubCpl (st : Status) (kind nbuf len dropped : Nat) : Nat :=
  st.code + 2 ^ 8 * kind + 2 ^ 16 * nbuf + 2 ^ 32 * len + 2 ^ 64 * (dropped % 2 ^ 32)

/-- The item leaves its backlog. -/
def State.takeItem (s : State) (i : PubItem) : State :=
  { s with pub := { s.pub with items := s.pub.items.erase i, dropped := kvDel s.pub.dropped i.kind } }

/-- PUB_DELIVER (R260, R261, R316, R345): the oldest item whose kind names the ring is written into fresh buffers and
announced; it waits while they do not suffice, and is discarded where the ring is no enabled publication ring. -/
def execPubDeliver (ring : Fin 64) (dma : Dma) (s : State) : Result :=
  let r := ring.val
  match s.pub.items.find? (fun i => s.cf (Reg.PUB_KIND_RING i.kind) == r) with
  | none => .next s
  | some i =>
    let size := s.bufSize r
    let need := (i.length + size - 1) / size
    if !s.ringIs r 3 then .next ((s.dropItem i).bump .hif C.HIF_MISROUTED r)
    else if !s.hostUp || !s.chanFree r || decide (s.buffers r < need) then .next s
    else
      let (ok, t) := s.dma r 1 true (s.rd (Reg.HIF_RING_STAT_SQ_HEAD r)) (min need (dma.offset / size + 1))
        (s.bufferAddr r (dma.offset / size)) ⟨dma.offset % size, dma.walk⟩
      if !ok then .next t else
      let dropped := kvGetD s.pub.dropped i.kind 0
      let t := ((t.takeBuffers r need).takeItem i).bump .pub C.PUB_ITEMS
      .next ((t.emit (.published r need i.kind i.body.bytes)).complete r
        (pubCpl (if dropped = 0 then .ok else .overflow) i.kind need i.length dropped))

/-! ### CINCH (R256, R259) -/

/-- PUB takes the configuration that applies at `b` in place of `old`: an output whose record changes takes START_ON, and
one whose record or entries change shows it in STAT for CFGCHG_S. -/
def State.pubApply (s : State) (old : Cfg) (b : Instant) : State :=
  (List.range 64).foldl (fun s o =>
    let r := s.act.tab 16 o
    let rchanged := old.tab 16 o != r
    let entries := r.selectors.any (fun e => old.tab 1 e.1 != s.act.tab 1 e.1)
    let s := if rchanged then s.setOutput o (r.outOn && r.startOn) else s
    if rchanged || entries then { s with pub := { s.pub with changed := kvSet s.pub.changed o b } } else s) s

end Sys2Proof.Machine
end

