-- ==== Sys2Proof/Machine/Fsl.lean ====
section
/-!
DEFINITION. The field sensor link (spec/13): beacons and slot changes, stateless acceptance, readings, downlinks, sensor
states and the transceiver; and the descriptors of transmit rings (R82, R326).
-/
namespace Sys2Proof.Machine
open Sys2Proof

/-- FSL raises source `144 + k` with an index (R286). -/
def State.fslEvent (s : State) (k i : Nat) : State := s.raise (144 + k) [(Reg.FSL_EVT_IDX_INDEX k, i)]

/-! ### Records and state -/

/-- A sensor of which nothing is known. -/
def Sensor.init : Sensor := ⟨0, 0, 0, false, 0⟩

/-- An interface that did nothing. -/
def FslIf.init : FslIf :=
  { next := 0, last := none, missed := 0, resync := 0, guardUs := 0, able := none, changes := [], rotate := 0, counter := 0, kcv := 0,
    recent := [], dsn := 0, polled := [], air := none }

/-- Sensor record `n`'s state. -/
def State.sensor (s : State) (n : Nat) : Sensor := kvGetD s.fsl.sensors n Sensor.init

/-- Downlinks queued for sensor `n`. -/
def State.queuedFor (s : State) (n : Nat) : List Downlink := s.fsl.dls.filter (fun d => d.sensor == n)

/-- FSL_SEN_STAT and FSL_SEN_CTR show the record that FSL_SEN_SEL names (R287). -/
def State.fslShow (s : State) : State :=
  let n := s.rd Reg.FSL_SEN_SEL_SENSOR
  let x := s.sensor n
  let s := s.wr Reg.FSL_SEN_STAT_STATE x.st
  let s := s.wrB Reg.FSL_SEN_STAT_HEARD x.heard
  let s := s.wr Reg.FSL_SEN_STAT_DL (s.queuedFor n).length
  let s := s.wr Reg.FSL_SEN_STAT_LAST_DSN x.lastDsn
  s.wr Reg.FSL_SEN_CTR_LAST_CTR x.lastCtr

/-- `s` with sensor `n` replaced. -/
def State.setSensor (s : State) (n : Nat) (x : Sensor) : State :=
  State.fslShow { s with fsl := { s.fsl with sensors := kvPut s.fsl.sensors n x Sensor.init } }

/-- `s` with the queued downlinks replaced. -/
def State.setDls (s : State) (l : List Downlink) : State := State.fslShow { s with fsl := { s.fsl with dls := l } }

/-- Interface `i`. -/
def State.fslIf (s : State) (i : Nat) : FslIf := kvGetD s.fsl.ifs i FslIf.init

/-- `s` with interface `i` replaced. -/
def State.setFslIf (s : State) (i : Nat) (x : FslIf) : State :=
  { s with fsl := { s.fsl with ifs := kvPut s.fsl.ifs i x FslIf.init } }

/-- A sensor record's fields (R272). -/
def Rec.senOn (r : Rec) : Bool := r.bitAt 12 7
def Rec.senExt (r : Rec) : Nat := r.at 0 8
def Rec.senShort (r : Rec) : Nat := r.at 8 2
def Rec.senSlot (r : Rec) : Nat := r.bitsAt 14 0 10
def Rec.senCycle (r : Rec) : Nat := r.bitsAt 14 10 3

/-- The interface of a sensor record. -/
def senIf (n : Nat) : Nat := n / 512

/-- A sensor record takes part: it and its interface are enabled. -/
def Cfg.senActive (c : Cfg) (n : Nat) : Bool := (c.tab 17 n).senOn && c.fld (Reg.FSL_CTL_EN (senIf n)) == 1

/-- The sensor records that take part on interface `i`. -/
def Cfg.senOf (c : Cfg) (i : Nat) : List (Nat × Rec) :=
  (c.listed 17).filter (fun e => senIf e.1 == i && c.senActive e.1)

/-! ### Time (R270) -/

/-- The symbol period of an interface in nanoseconds (R269). -/
def Cfg.fslSymbol (c : Cfg) (i : Nat) : Nat := ([16000, 20000, 10000][c.fld (Reg.FSL_CTL_PHY i)]?).getD 16000

/-- The beacon interval. -/
def Cfg.fslBi (c : Cfg) (i : Nat) : Nat := 960 * 2 ^ c.fld (Reg.FSL_CTL_BO i) * c.fslSymbol i

/-- T_0. -/
def Cfg.fslBase (c : Cfg) (i : Nat) : Instant := instantOf (c.fld (Reg.FSL_BASE_S i)) (c.fld (Reg.FSL_BASE_NS i))

/-- T_n. -/
def Cfg.beaconAt (c : Cfg) (i n : Nat) : Instant := c.fslBase i + n * c.fslBi i

/-- The first beacon number whose instant is not before `t`. -/
def Cfg.beaconFrom (c : Cfg) (i : Nat) (t : Instant) : Nat :=
  if t ≤ c.fslBase i then 0 else (t - c.fslBase i + c.fslBi i - 1) / c.fslBi i

/-! ### Keys and the outgoing counter (R277, R283) -/

/-- The use bit of the field sensor link (R395). -/
def useFsl : Nat := 2

/-- The key check value of a key (R396). -/
def kcvOf (len key : Nat) : Nat :=
  sha256 (leBytes len key ++ [0x5A, 0x56, 0x2D, 0x4B, 0x43, 0x56]) % 2 ^ 32

/-- The bound key of interface `i`, when it may be used. -/
def State.fslKey (s : State) (i : Nat) : Option BoundKey :=
  match kvGet? s.bound (s.cf (Reg.FSL_SEC_KEY_SLOT i)) with
  | some b => if b.valid && b.alg == 2 && bitOf b.usage useFsl then some b else none
  | none => none

/-- The outgoing counter is exhausted with the bound key. -/
def State.fslSpent (s : State) (i : Nat) (b : BoundKey) : Bool :=
  let f := s.fslIf i
  f.kcv == kcvOf 16 b.key && decide (0xFFFFFF00 ≤ f.counter)

/-- A key that interface `i` may send with. -/
def State.fslCanSecure (s : State) (i : Nat) : Bool :=
  match s.fslKey i with
  | some b => !s.fslSpent i b
  | none => false

/-- NOKEY follows the key of interface `i`; event 152 where it is lost (R277, R283). -/
def State.fslNoKey (s : State) (i : Nat) : State :=
  let bad := s.cfOn (Reg.FSL_CTL_EN i) && !s.fslCanSecure i
  let was := s.on (Reg.FSL_STAT_NOKEY i)
  let s := s.wrB (Reg.FSL_STAT_NOKEY i) bad
  if bad && !was then s.fslEvent 8 i else s

/-- The next counter of a secured frame (R283): it restarts where the key's KCV is not the one stored. -/
def State.fslCounter (s : State) (i : Nat) : Option Nat × State :=
  let (k, s) := s.keyStart (s.cf (Reg.FSL_SEC_KEY_SLOT i)) 2 useFsl
  if !k.usable then (none, s) else
  let f := s.fslIf i
  let kcv := kcvOf 16 k.key
  let n := if f.kcv = kcv then f.counter else 0
  (some n, s.setFslIf i { f with counter := n + 1, kcv
                                 recent := s.now :: f.recent.filter (fun t => decide (s.now < t + nsPerS)) })

/-- Fewer than 200 secured frames went out in the last second (R283). -/
def State.fslRate (s : State) (i : Nat) : Bool :=
  decide (((s.fslIf i).recent.filter (fun t => decide (s.now < t + nsPerS))).length < 200)

/-! ### Beacons (R270, R271, R281) -/

/-- The interface is able to send beacons (R281). -/
def State.fslAble (s : State) (i : Nat) : Bool :=
  s.cfOn (Reg.FSL_CTL_EN i) && s.on (Reg.FSL_STAT_IF_UP i) && s.fslCanSecure i && s.rd Reg.TB_STAT_STATE != tbFREE
    && decide (6 ≤ s.rd Reg.PWR_STAT_PHASE) && s.rd Reg.PWR_STAT_PHASE != 8

/-- What interface `i` notes at every tick: NOKEY, and since when it is able to send. -/
def State.fslWatch1 (s : State) (i : Nat) : State :=
  let s := s.fslNoKey i
  let f := s.fslIf i
  match f.able, s.fslAble i with
  | none, true => s.setFslIf i { f with able := some s.now }
  | some _, false => (s.setFslIf i { f with able := none }).wr (Reg.FSL_STAT_BEACONING i) 0
  | _, _ => s

/-- Both interfaces. -/
def State.fslWatch (s : State) : State := (s.fslWatch1 0).fslWatch1 1

/-- A beacon instant passes without a beacon (R281). -/
def State.beaconMissed (s : State) (i n : Nat) : State :=
  let f := s.fslIf i
  (((s.setFslIf i { f with next := n + 1, missed := f.missed + 1 }).bump .fsl C.FSL_BCN_MISSED i).fslEvent 7 i).wr
    (Reg.FSL_STAT_BEACONING i) 0

/-- The guard of a resynchronisation after `d` nanoseconds (R281). -/
def resyncGuard (base ppm d : Nat) : Nat := min 65535 (base + (d * ppm + nsPerS - 1) / nsPerS)

/-- The beacons that carry RESYNC from the next one on (R281). -/
def State.fslLeft (s : State) (i : Nat) : Nat :=
  let f := s.fslIf i
  if 2 ≤ f.missed then s.cf (Reg.FSL_GUARD_RESYNC_N i) else f.resync

/-- GUARD_US of the next beacon (R281). -/
def State.fslGuard (s : State) (i : Nat) : Nat :=
  let f := s.fslIf i
  let base := s.cf (Reg.FSL_GUARD_GUARD_BASE_US i)
  if s.fslLeft i = 0 then base
  else if 2 ≤ f.missed then
    resyncGuard base (s.cf (Reg.FSL_GUARD_DRIFT_PPM i)) (max s.now (s.act.beaconAt i f.next) - f.last.getD 0)
  else f.guardUs

/-- The interface sends nothing now: the next beacon lies less than its guard ahead (R281). -/
def State.fslSilent (s : State) (i : Nat) : Bool :=
  let t := s.act.beaconAt i (s.fslIf i).next
  s.fslAble i && decide (s.now < t) && decide (t ≤ s.now + 1000 * s.fslGuard i)

/-- The slot map of a beacon (R270), with the sensors whose change it lists. -/
def State.slotMap (s : State) (i n : Nat) (resync : Bool) (guardUs : Nat) (changes : List Nat) : List Byte :=
  leBytes 2 0x4D53 ++ leBytes 1 1 ++ leBytes 1 (natOf resync) ++ leBytes 4 n ++ leBytes 2 (s.cf (Reg.FSL_SLOT_SLOT_US i))
    ++ leBytes 2 (s.cf (Reg.FSL_SLOT_NSLOT i)) ++ leBytes 2 guardUs ++ leBytes 1 (s.cf (Reg.FSL_GUARD_DRIFT_PPM i))
    ++ leBytes 1 changes.length ++ (changes.map (fun k =>
      let r := s.act.tab 17 k
      leBytes 2 r.senShort ++ leBytes 2 (r.senSlot + 2 ^ 10 * r.senCycle) ++ leBytes 1 (r.at 16 1) ++ leBytes 1 0)).flatten

/-- Up to 7 short addresses of sensors with downlinks, taken in rotation (R270). -/
def State.pendingList (s : State) (i rotate : Nat) : List Nat :=
  let l := distinct ((s.fsl.dls.filter (fun d => senIf d.sensor == i)).map (·.sensor))
  let k := if l.isEmpty then 0 else rotate % l.length
  ((l.drop k ++ l.take k).take 7).map (fun n => (s.act.tab 17 n).senShort)

/-- The nonce of a frame (R275, R287): extended address, counter and level. -/
def fslNonce (ext ctr level : Nat) : List Byte := leBytes 8 ext ++ beBytes 4 ctr ++ leBytes 1 level

/-- Beacon `n` of interface `i` is sent (R270, R271, R281). -/
def State.sendBeacon (s : State) (i n : Nat) : State :=
  match s.fslCounter i with
  | (none, s) => s.beaconMissed i n
  | (some ctr, s) =>
    let f := s.fslIf i
    let starts := decide (2 ≤ f.missed)
    let left := s.fslLeft i
    let guardUs := s.fslGuard i
    let pend := s.pendingList i f.rotate
    let changes := (f.changes.filter (fun c => decide (n ≤ c.2)))
    let s := s.setFslIf i { f with
      next := n + 1, last := some (s.act.beaconAt i n), missed := 0, resync := left - 1, guardUs, changes, rotate := f.rotate + 7 }
    let s := if starts then s.fslEvent 6 i else s
    let s := (s.wrB (Reg.FSL_STAT_RESYNC i) (decide (0 < left))).wr (Reg.FSL_STAT_BEACONING i) 1
    let s := (s.wr (Reg.FSL_SF_SF_NUM i) n).bump .fsl C.FSL_BCN_SENT i
    let s := State.fslShow { s with fsl := { s.fsl with sensors := s.fsl.sensors.map (fun e =>
      if senIf e.1 = i ∧ e.2.st = 2 then (e.1, { e.2 with beacons := e.2.beacons + 1 }) else e) } }
    s.emit (.beacon i (s.act.beaconAt i n - s.cf (Reg.FSL_LAT_TX_LAT_NS i)) (s.cf (Reg.FSL_CTL_BO i)) (s.cf (Reg.FSL_CTL_FINAL_CAP i))
      pend (s.cf (Reg.FSL_SEC_BCN_LEVEL i)) (s.cf (Reg.FSL_SEC_KEY_IDX i)) ctr
      (fslNonce (s.cf (Reg.FSL_EXT_EXT i)) ctr (s.cf (Reg.FSL_SEC_BCN_LEVEL i))) (s.slotMap i n (decide (0 < left)) guardUs ((changes.take 8).map (·.1))))

/-- BEACON (R270, R281): the next beacon instant is reached.  A beacon is sent where the interface is able to, and after two
or more missed instants has been for 2 ms; an instant passed over, or at which it is not able, is missed. -/
def execBeacon (i : Fin 2) (s : State) : Result :=
  let n := (s.fslIf i).next
  let t := s.act.beaconAt i n
  if !s.cfOn (Reg.FSL_CTL_EN i) || decide (s.now < t) then .next s else
  let s := s.fslWatch1 i
  let f := s.fslIf i
  let early := decide (2 ≤ f.missed) && (match f.able with | some a => decide (t < a + 2000000) | none => true)
  if s.fslAble i && decide (s.now < t + s.act.fslBi i) && !early then .next (s.sendBeacon i n)
  else .next (s.beaconMissed i n)

/-! ### Reception (R274 to R276) -/

/-- The sensor record of a configuration that a source address names. -/
def Cfg.senMatch (c : Cfg) (i : Nat) (src : BitVec 16 ⊕ BitVec 64) : Option (Nat × Rec) :=
  (c.senOf i).find? (fun e => match src with
    | .inl a => a.toNat == e.2.senShort
    | .inr a => a.toNat == e.2.senExt)

/-- The instant of a reading (R274). -/
def readingAt (c : Cfg) (i : Nat) (sfd : Instant) (sfLow : Nat) (ofs : Int) : Instant :=
  let n := (sfd - c.fslBase i) / c.fslBi i
  let m := n - (n + 256 - sfLow) % 256
  ((c.beaconAt i m : Int) + 1000 * ofs).toNat

/-- A reading goes to ING for its entry (R273, R274, R277): format, order and time checks, then hand-on; `stale` tells that its
key became invalid while it was checked. -/
def State.fslReading (s : State) (c : Cfg) (n i : Nat) (r : Rec) (sfd : Instant) (p : List Byte) (stale : Bool) : State :=
  let e := r.at 10 2
  let t := c.tab 1 e
  let na := t.at 43 1
  let nd := t.at 44 1
  let s := s.bump .ing C.ING_FRAMES e
  if p.length ≠ 8 + 4 * na + 2 * nd ∨ leNat (p.take 1) ≠ 1 then s.discard (some e) C.ING_FORMAT_MISMATCH else
  let v := leNat p
  let inst := readingAt c i sfd (bits v 16 8) (signed (bits v 32 32) 32)
  if s.tooFar inst then s.discard (some e) C.ING_FUTURE else
  let (ok, s) := s.fresh e 0 inst false
  if !ok then s else
  let fl := bits v 8 8
  let q := 2 ^ 8 + natOf (bitOf fl 0) + 2 * natOf (bitOf fl 1) + 64 * natOf (bitOf fl 2) + 2 ^ 7 * natOf stale
  let base := t.bitsAt 48 0 17
  let m : Meas :=
    { entry := e, epoch := n, instant := inst, quality := q, freq := 0, rocof := 0, phasors := []
      analogs := (List.range na).map (fun k => fpMul (BitVec.ofNat 32 (bits v (64 + 32 * k) 32)) (c.factor (base + k)))
      digitals := (List.range nd).map (fun k => bits v (64 + 32 * na + 16 * k) 16) }
  let x := s.ent e
  (s.setEnt e { x with last := max x.last inst, accepted := (x.accepted + 1) % 2 ^ 32, mismatch := false }).toStitcher m

/-- The outcome of R276 for a frame counter and sequence number. -/
inductive CtrOutcome where
  | replay | accepted | repeated
  deriving DecidableEq, Repr

/-- The frame counter rule (R276). -/
def ctrRule (floor : Nat) (x : Sensor) (c d : Nat) : CtrOutcome :=
  if c < floor then .replay
  else if !x.heard || decide (x.lastCtr < c) then .accepted
  else if c = x.lastCtr ∧ d = x.lastDsn then .repeated
  else .replay

/-- Bytes of the MIC at a security level of IEEE 802.15.4 (R269). -/
def micSize (level : Nat) : Nat := match level % 4 with | 0 => 0 | 1 => 4 | 2 => 8 | _ => 16

/-- FSL_FRAME_RECEIVE (R268, R269, R274 to R280): a frame completes on an interface; its first failing check decides. -/
def execFslFrameReceive (i : Fin 2) (frame : FslFrame) (s : State) : Result :=
  if !s.cfOn (Reg.FSL_CTL_EN i) || !s.on (Reg.FSL_STAT_IF_UP i) || s.deaf then .next s else
  let sfd := s.now - frame.age - s.cf (Reg.FSL_LAT_RX_LAT_NS i)
  let c := s.cfgAt sfd
  let s := s.bump .fsl C.FSL_RX_FRAMES i
  let mine := match frame.dst with | some a => a.toNat == c.fld (Reg.FSL_ADDR_SHORT i) | none => true
  if !frame.supported || frame.dstPan.toNat != c.fld (Reg.FSL_ADDR_PAN_ID i) || !mine then
    .next (s.bump .fsl C.FSL_FOREIGN i)
  else match c.senMatch i frame.src with
    | none => .next (s.bump .fsl C.FSL_NO_SENSOR i)
    | some (n, r) =>
      let pend := !(s.queuedFor n).isEmpty
      let s := if frame.ackRequest && !s.fslSilent i then (s.bump .fsl C.FSL_ACKS_SENT n).emit (.fslAck i frame.dsn.toNat pend) else s
      let fail (s : State) : Result := .next ((s.bump .fsl C.FSL_SEC_FAIL n).fslEvent 3 n)
      if !frame.secured || decide (frame.level.toNat < r.at 13 1) || frame.keyMode != 1
          || frame.keyIdx.toNat != c.fld (Reg.FSL_SEC_KEY_IDX i) then fail s
      else
        let (k, stale, s) := s.keyBegan (c.fld (Reg.FSL_SEC_KEY_SLOT i)) 2 useFsl (s.now - frame.began)
        let nonce := fslNonce r.senExt frame.counter.toNat frame.level.toNat
        let level := frame.level.toNat
        let payload := if 4 ≤ level then ccmCrypt k.key nonce frame.body else frame.body
        let header := if 4 ≤ level then frame.header else frame.header ++ frame.body
        let mic := ccmMic k.key (micSize level) nonce header (if 4 ≤ level then payload else [])
        if !k.usable || mic != frame.mic then fail s else
        let x := s.sensor n
        match ctrRule (r.at 20 4) x frame.counter.toNat frame.dsn.toNat with
        | .replay => .next ((s.bump .fsl C.FSL_REPLAY n).fslEvent 4 n)
        | .repeated => .next (s.bump .fsl C.FSL_REPEAT n)
        | .accepted =>
          let s := s.setSensor n ⟨2, frame.counter.toNat, frame.dsn.toNat, true, 0⟩
          let s := s.bump .fsl C.FSL_ACCEPTED n
          let s := if x.st = 2 then s else s.fslEvent 1 n
          if frame.request then
            let f := s.fslIf i
            .next (if pend && !f.polled.contains n then s.setFslIf i { f with polled := f.polled ++ [n] } else s)
          else .next (s.fslReading c (s.epochAt sfd) i r sfd payload stale)

/-- SENSOR_SILENT (R280): SILENT_N cycles of beacons went by without an accepted frame. -/
def execSensorSilent (sensor : Fin 1024) (s : State) : Result :=
  let n := sensor.val
  let x := s.sensor n
  let r := s.act.tab 17 n
  let due := x.st == 2 && r.at 17 1 != 0 && decide (r.at 17 1 * 2 ^ r.senCycle ≤ x.beacons)
  when due s ((s.setSensor n { x with st := 3 }).fslEvent 2 n)

/-! ### Downlinks (R278) -/

/-- A payload concludes: it leaves its queue and completes. -/
def State.dlDone (s : State) (d : Downlink) (st : Status) : State :=
  (s.setDls (s.fsl.dls.erase d)).complete d.ring (txCpl st false d.tag d.dest 0)

/-- Downlinks for which `p` holds complete with DEGRADED. -/
def State.dlDrop (s : State) (p : Downlink → Bool) : State :=
  (s.fsl.dls.filter p).foldl (fun s d => s.dlDone d .degraded) s

/-- The present moment lies in a Quinsura slot rather than in the contention access period (R270). -/
def State.inSlot (s : State) (i : Nat) : Bool :=
  let c := s.act
  decide ((c.fld (Reg.FSL_CTL_FINAL_CAP i) + 1) * c.fslBi i / 16 ≤ (s.now - c.fslBase i) % c.fslBi i)

/-- The frame of a downlink (R278): secured at the sensor's SEC_LEVEL, with CCA outside the slots. -/
def State.dlFrame (s : State) (i : Nat) (a : InAir) : Out :=
  let level := (s.act.tab 17 a.dl.sensor).at 13 1
  .downlink i a.dl.sensor level a.counter a.dsn (!s.inSlot i) (fslNonce (s.cf (Reg.FSL_EXT_EXT i)) a.counter level) a.dl.payload

/-- DOWNLINK_SEND (R278, R283): the oldest payload of the sensor that polled is sent, with CCA in the contention access
period and without it in a slot; it is deferred while the interface sent 200 secured frames in a second, and in the guard before a
beacon (R281). -/
def execDownlinkSend (i : Fin 2) (s : State) : Result :=
  let f := s.fslIf i
  match f.polled with
  | [] => .next s
  | n :: later =>
    match s.queuedFor n with
    | [] => .next (s.setFslIf i { f with polled := later })
    | d :: _ =>
      if f.air.isSome || !s.fslRate i || !s.fslCanSecure i || !s.on (Reg.FSL_STAT_IF_UP i) || s.fslSilent i then .next s else
      match s.fslCounter i with
      | (none, s) => .next s
      | (some ctr, s) =>
        let f := s.fslIf i
        let s := s.setFslIf i { f with polled := later, dsn := (f.dsn + 1) % 256, air := some ⟨d, ctr, f.dsn, 0, s.now⟩ }
        .next ((s.bump .fsl C.FSL_DL_SENT n).emit (s.dlFrame i ⟨d, ctr, f.dsn, 0, s.now⟩))

/-- DOWNLINK_ACK_RECEIVE (R278): the downlink in the air is acknowledged, and its payload completes with OK. -/
def execDownlinkAckReceive (i : Fin 2) (dsn : BitVec 8) (s : State) : Result :=
  let f := s.fslIf i
  match f.air with
  | none => .next s
  | some a =>
    if a.dsn ≠ dsn.toNat then .next s else
    let s := s.setFslIf i { f with air := none }
    .next (if s.fsl.dls.contains a.dl then s.dlDone a.dl .ok else s)

/-- macAckWaitDuration of an interface: 54 symbols (864 us at 16 us a symbol, as spec/13's example gives it). -/
def Cfg.ackWait (c : Cfg) (i : Nat) : Nat := 54 * c.fslSymbol i

/-- DOWNLINK_ACK_TIMEOUT (R278): no acknowledgement came; up to 3 retries of the same frame, then the payload stays queued
for the next poll. -/
def execDownlinkAckTimeout (i : Fin 2) (s : State) : Result :=
  let f := s.fslIf i
  match f.air with
  | none => .next s
  | some a =>
    if s.now < a.sent + s.act.ackWait i || s.fslSilent i then .next s
    else if a.retries < 3 ∧ s.fsl.dls.contains a.dl then
      let s := s.setFslIf i { f with air := some { a with retries := a.retries + 1, sent := s.now } }
      .next ((s.bump .fsl C.FSL_DL_SENT a.dl.sensor).emit (s.dlFrame i a))
    else .next (s.setFslIf i { f with air := none })

/-- DOWNLINK_EXPIRY (R278): the oldest payload of the interface has been queued for 30 s. -/
def execDownlinkExpiry (i : Fin 2) (s : State) : Result :=
  match s.fsl.dls.find? (fun d => senIf d.sensor == i.val && decide (d.queued + 30 * nsPerS ≤ s.now)) with
  | none => .next s
  | some d => .next (((s.dlDone d .degraded).bump .fsl C.FSL_DL_DISCARDED d.sensor).fslEvent 5 d.sensor)

/-- CFG is written to the transceiver of interface `i` (R267, R268). -/
def State.fslConfigure (s : State) (i : Nat) : State :=
  s.emit (.fslCfg i (s.cf (Reg.FSL_CTL_PHY i)) (s.cf (Reg.FSL_CTL_CHANNEL i)) (s.cf (Reg.FSL_CTL_TX_PWR i)))

/-- TRANSCEIVER_RESET (R268): a STATUS read returned ALIVE 0, or IRQ_N stayed low for 10 ms; the transceiver is reset and
configured anew, frames in progress are lost, and `alive` is what STATUS reads return after it. -/
def execTransceiverReset (i : Fin 2) (alive : Bool) (s : State) : Result :=
  if !s.cfOn (Reg.FSL_CTL_EN i) then .next s else
  let f := s.fslIf i
  let s := s.setFslIf i { f with air := none, polled := [] }
  .next (((((s.emit (.fslReset i)).fslConfigure i).wrB (Reg.FSL_STAT_IF_UP i) alive).fslEvent 0 i).fslWatch1 i)

/-! ### Transmit rings (R82, R321, R326) -/

/-- Fields of a transmit descriptor. -/
def txType (d : Nat) : Nat := descByte d 0
def txTag (d : Nat) : Nat := bits d 16 16
def txDest (d : Nat) : Nat := descByte d 4
def txQueue (d : Nat) : Nat := descByte d 5
def txLen (d : Nat) : Nat := bits d 48 16

/-- The largest frame, without its check sequence, that every port of a destination admits. -/
def State.maxLen (s : State) (dest : Nat) : Nat :=
  ((s.act.destPorts dest).map (fun n => s.cf (Reg.PORT_CFG_MAX_FRAME n) - 4)).foldl min 9212

/-- The status with which a descriptor completes at once, none where it is carried out (R326).  `ptp` is the message
that the frame holds. -/
def State.txCheck (s : State) (d : Nat) (ptp : Option PtpKind) : Option Status :=
  let flags := descByte d 1
  let two := bitOf flags 0
  let one := bitOf flags 1
  let harness := decide (0x80 ≤ txDest d)
  let common := flags < 4 ∧ bits d 112 16 = 0 ∧ bits d 144 112 = 0
  if txType d = 0x20 then
    if txQueue d = 6 ∨ txQueue d = 7 then some .notPermitted
    else if common ∧ txQueue d < 6 ∧ bits d 128 16 = 0 ∧ (txDest d < 48 ∨ (0x81 ≤ txDest d ∧ txDest d ≤ 0x98))
        ∧ ¬ (harness ∧ (two ∨ one)) ∧ (one → ptp = some .sync ∨ ptp = some .pdelayResp)
        ∧ 60 ≤ txLen d ∧ txLen d ≤ s.maxLen (txDest d) then none
    else some .invalid
  else if txType d = 0x21 then
    if txQueue d = 6 ∨ txQueue d = 7 then some .notPermitted
    else if common ∧ flags = 0 ∧ txQueue d = 0 ∧ (txDest d = 0xC0 ∨ txDest d = 0xC1) ∧ bits d 128 16 < 1024
        ∧ senIf (bits d 128 16) = txDest d - 0xC0 ∧ 1 ≤ txLen d ∧ txLen d ≤ 80 then none
    else some .invalid
  else some .invalid

/-- Every port of a destination that is up has cells for a frame of `len` bytes (R75, R82). -/
def State.txFits (s : State) (dest len : Nat) : Bool :=
  ((s.act.destPorts dest).filter s.linkOn).all (fun n =>
    decide ((s.prt n).txCells + cellsOf len ≤ s.cf (Reg.PORT_TX_LIM_TX_LIMIT n)))

/-- The limits of R278 leave no room for a downlink to sensor `n`. -/
def State.dlFull (s : State) (n : Nat) : Bool :=
  decide (4 ≤ (s.queuedFor n).length) || decide (256 ≤ (s.fsl.dls.filter (fun d => senIf d.sensor == senIf n)).length)

/-- A frame of a transmit ring enters its queue; with no link up at its destination it is discarded. -/
def State.txFrame (s : State) (r d : Nat) (bytes : List Byte) (ptp : Option (PtpKind × BitVec 16)) : State :=
  let flags := descByte d 1
  let f : TxFrame := { fwFrame (.bytes (bytes.take (txLen d))) (txLen d + 4) with
    source := .ring r (txTag d) (txDest d) (txQueue d), twoStep := bitOf flags 0, oneStep := bitOf flags 1
    ptpType := match ptp with | some (k, _) => k.num | none => 0xF
    seqId := match ptp with | some (_, q) => q.toNat | none => 0 }
  let up := (s.act.destPorts (txDest d)).any s.linkOn
  let s := s.send (txDest d) (txQueue d) f
  if up then s else s.txDone f .degraded none

/-- The descriptor at the head of transmit ring `r` is carried out (R326, R278): `none` where it waits. -/
def State.txHead (s : State) (r : Nat) (bytes : List Byte) (ptp : Option (PtpKind × BitVec 16)) (dma : Dma) : Option State :=
  let g := s.ring r
  if !s.ringIs r 1 || !s.hostUp || !s.chanFree r || decide (256 ≤ s.rd (Reg.HIF_RING_STAT_BACKLOG r)) then none else
  match g.fetched with
  | some d :: _ =>
    let done (s : State) (st : Status) : State := (s.takeBuffers r 1).complete r (txCpl st false (txTag d) (txDest d) (txQueue d))
    let sensor := bits d 128 16
    match s.txCheck d (ptp.map (·.1)) with
    | some st => some (done s st)
    | none =>
      if txType d = 0x21 ∧ s.dlFull sensor then some (done s .busy)
      else if txType d = 0x21 ∧ (s.sensor sensor).st = 0 then some (done s .degraded)
      else if txType d = 0x20 ∧ !s.txFits (txDest d) (txLen d + 4) then none
      else
        let (ok, s) := s.dma r 1 false (s.rd (Reg.HIF_RING_STAT_SQ_HEAD r)) 0 (bits d 64 48) dma
        if !ok then some s else
        let s := s.takeBuffers r 1
        if txType d = 0x20 then some (s.txFrame r d bytes ptp)
        else some (s.setDls (s.fsl.dls ++ [⟨r, txTag d, txDest d, sensor, bytes.take (txLen d), s.now⟩]))
  | _ => none

/-- TX_DESCRIPTOR (R278, R326, R327): the next descriptor of a transmit ring is checked and its frame or downlink queued;
`bytes` is what lies at its ADDR, and `ptp` the PTP message that a frame holds. -/
def execTxDescriptor (ring : Fin 64) (bytes : List Byte) (ptp : Option (PtpKind × BitVec 16)) (dma : Dma) (s : State) : Result :=
  .next ((s.txHead ring bytes ptp dma).getD s)

/-- TX_CELLS_FREED (R82): cells freed, and the descriptor that waited on the ring for them proceeds. -/
def execTxCellsFreed (ring : Fin 64) (bytes : List Byte) (ptp : Option (PtpKind × BitVec 16)) (dma : Dma) (s : State) : Result :=
  match s.txHead ring bytes ptp dma with
  | some t => .next t
  | none => .next s

/-! ### CINCH and Bivouac (R271, R276, R278, R280) -/

/-- FSL takes the configuration that applies at `b` in place of `old`. -/
def State.fslApply (s : State) (old : Cfg) (b : Instant) : State :=
  let c := s.act
  let grid (c : Cfg) (i : Nat) : List Nat := [c.fld (Reg.FSL_CTL_EN i), c.fslBi i, c.fslBase i]
  let s := [0, 1].foldl (fun s i =>
    let f := s.fslIf i
    let on := c.fld (Reg.FSL_CTL_EN i) == 1
    let was := old.fld (Reg.FSL_CTL_EN i) == 1
    let s := if grid old i = grid c i then s else s.setFslIf i { f with next := c.beaconFrom i b }
    let radio (c : Cfg) : List Nat := [c.fld (Reg.FSL_CTL_PHY i), c.fld (Reg.FSL_CTL_CHANNEL i), c.fld (Reg.FSL_CTL_TX_PWR i)]
    let s := if on && (!was || radio old != radio c) then s.fslConfigure i else s
    if on && !was then s.wr (Reg.FSL_STAT_IF_UP i) 1
    else if !on then
      (((s.wr (Reg.FSL_STAT_IF_UP i) 0).wr (Reg.FSL_STAT_BEACONING i) 0).wr (Reg.FSL_STAT_RESYNC i) 0).setFslIf i
        { s.fslIf i with air := none, polled := [], able := none }
    else s) s
  let touched := distinct (((old.listed 17) ++ (c.listed 17)).map (·.1))
  let s := touched.foldl (fun s n =>
    let i := senIf n
    let x := s.sensor n
    let keep := (old.tab 17 n).senExt == (c.tab 17 n).senExt
      && old.fld (Reg.FSL_SEC_KEY_SLOT i) == c.fld (Reg.FSL_SEC_KEY_SLOT i)
    let x := if keep then x else { x with lastCtr := 0, lastDsn := 0, heard := false }
    let on := c.senActive n
    let s := if on then s.setSensor n { x with st := if x.st = 0 then 1 else x.st }
      else (s.setSensor n { x with st := 0, beacons := 0 }).dlDrop (fun d => d.sensor == n)
    let a (r : Rec) : Nat × Nat × Nat := (r.senSlot, r.senCycle, r.at 16 1)
    if on && old.senActive n && a (old.tab 17 n) != a (c.tab 17 n) then
      let f := s.fslIf i
      let last := c.beaconFrom i b + 2 * 2 ^ (c.tab 17 n).senCycle - 1
      s.setFslIf i { f with changes := f.changes.filter (fun e => e.1 ≠ n) ++ [(n, last)] }
    else s) s
  s.fslWatch

end Sys2Proof.Machine
end

