-- ==== Sys2Proof/Machine/Sched.lean ====
section
/-!
DEFINITION. Engines, graphs, Warden work items and internal queues (spec/14): the operation library, runs, ready and delay
lists, affinity, release stages, results, and the comparison of two instances (R14).
-/
namespace Sys2Proof.Machine
open Sys2Proof

/-- SCHED raises source `160 + k` with an index (R310). -/
def State.schedEvent (s : State) (k i : Nat) : State := s.raise (160 + k) [(Reg.SCHED_EVT_IDX_INDEX k, i)]

/-! ### The operation library (R289, R290) -/

/-- An element with its valid bit. -/
abbrev Elem := BitVec 32 × Bool

/-- An invalid element. -/
def badElem : Elem := (0x7FC00000, false)

/-- The quotient of two values, rounded once; not a number where it has none. -/
def fpDiv (a b : BitVec 32) : BitVec 32 :=
  match fpDecode a, fpDecode b with
  | .fin x m e, .fin y n f =>
    if n = 0 then (if m = 0 then 0x7FC00000 else fpEncode (.inf (x != y))) else
    let q := m * 2 ^ 64 / n
    let exact := m * 2 ^ 64 % n = 0
    fpEncode (.fin (x != y) (2 * q + (if exact then 0 else 1)) (e - f - 65))
  | .inf x, .fin y _ _ => fpEncode (.inf (x != y))
  | .fin x _ _, .inf y => fpEncode (.fin (x != y) 0 0)
  | _, _ => 0x7FC00000

/-- A number is zero. -/
def fpZero (a : BitVec 32) : Bool := fpAbs a == 0

/-- Element `i` of an input, which is broadcast when it has one element. -/
def bcast (l : List Elem) (i : Nat) : Elem := (l[if l.length = 1 then 0 else i]?).getD badElem

/-- A function of two inputs, element by element. -/
def zipElems (x y : List Elem) (f : BitVec 32 → BitVec 32 → BitVec 32) (ok : BitVec 32 → BitVec 32 → Bool) : List Elem :=
  (List.range x.length).map (fun i =>
    let a := bcast x i
    let b := bcast y i
    if a.2 && b.2 && ok a.1 b.1 then (f a.1 b.1, true) else badElem)

/-- A function of one input, element by element. -/
def mapElems (x : List Elem) (f : BitVec 32 → BitVec 32) (ok : BitVec 32 → Bool) : List Elem :=
  x.map (fun a => if a.2 && ok a.1 then (f a.1, true) else badElem)

/-- A function of the pairs of an input. -/
def mapPairs (x : List Elem) (f : BitVec 32 → BitVec 32 → List (BitVec 32)) (n : Nat) (ok : BitVec 32 → BitVec 32 → Bool) :
    List Elem :=
  ((List.range (x.length / 2)).map (fun i =>
    let a := bcast (x.drop (2 * i)) 0
    let b := (x[2 * i + 1]?).getD badElem
    let a := (x[2 * i]?).getD a
    if a.2 && b.2 && ok a.1 b.1 then (f a.1 b.1).map (fun v => (v, true)) else List.replicate n badElem)).flatten

/-- A reduction over the valid elements; invalid where fewer than `least` are. -/
def reduceElems (x : List Elem) (least : Nat) (f : List (BitVec 32) → BitVec 32) : List Elem :=
  let v := (x.filter (·.2)).map (·.1)
  [if v.length < least ∨ v.isEmpty then badElem else (f v, true)]

/-- A node's fields (R292). -/
def Rec.nodeOp (r : Rec) : Nat := r.at 0 1
def Rec.nodeIn (r : Rec) (i : Nat) : Nat := r.at (2 + 2 * i) 2
def Rec.nodeLen (r : Rec) : Nat := r.at 8 2
def Rec.nodeP (r : Rec) (i : Nat) : Nat := r.at (12 + 4 * i) 4

/-- The value that LOAD takes from a revision's record. -/
def loadElems (v : Revision) (useTest : Bool) (entry field : Nat) : List Elem :=
  let x := kvGetD v.recs entry SRec.absent
  let bad := !x.present || bitOf x.quality 0 || bitOf x.quality 3 || (bitOf x.quality 1 && !useTest)
  let l : List (BitVec 32) :=
    if field < 32 then [(x.ph field).1, (x.ph field).2]
    else if field = 32 then [x.freq]
    else if field = 33 then [x.rocof]
    else if field < 48 then [(x.analogs[field - 40]?).getD 0]
    else [fpOfInt ((x.digitals[field - 48]?).getD 0)]
  l.map (fun a => if bad then badElem else (a, true))

/-- 1.0. -/
def fpOne : BitVec 32 := 0x3F800000

/-- A stateful operation (R289). -/
def stateful (op : Nat) : Bool := op == 0x30 || op == 0x31 || op == 0x32

/-- What a node gives from its inputs (R289, R290); `past` is the entry of the earlier slice that a stateful operation
reads. -/
def nodeElems (r : Rec) (v : Revision) (useTest : Bool) (fs : Nat) (ins : List (List Elem)) (past : Option (List Elem)) :
    List Elem :=
  let x := (ins[0]?).getD []
  let y := (ins[1]?).getD []
  let z := (ins[2]?).getD []
  let p (i : Nat) : BitVec 32 := BitVec.ofNat 32 (r.nodeP i)
  let always (_ : BitVec 32) : Bool := true
  let always2 (_ _ : BitVec 32) : Bool := true
  match r.nodeOp with
  | 0x01 => loadElems v useTest (r.nodeP 0) (r.nodeP 1)
  | 0x02 => (List.range r.nodeLen).map (fun i => (p i, true))
  | 0x03 => x ++ y
  | 0x04 => (x.drop (r.nodeP 0)).take r.nodeLen
  | 0x10 => zipElems x y fpAdd always2
  | 0x11 => zipElems x y fpSub always2
  | 0x12 => zipElems x y fpMul always2
  | 0x13 => zipElems x y fpDiv (fun _ b => !fpZero b)
  | 0x14 => mapElems x (fun a => fpAdd (fpMul (p 0) a) (p 1)) always
  | 0x15 =>
    ((List.range (x.length / 2)).map (fun i =>
      let a := (x[2 * i]?).getD badElem
      let b := (x[2 * i + 1]?).getD badElem
      let k := if y.length = 2 then 0 else 2 * i
      let c := (y[k]?).getD badElem
      let d := (y[k + 1]?).getD badElem
      if a.2 && b.2 && c.2 && d.2 then
        [(fpSub (fpMul a.1 c.1) (fpMul b.1 d.1), true), (fpAdd (fpMul a.1 d.1) (fpMul b.1 c.1), true)]
      else [badElem, badElem])).flatten
  | 0x16 => mapPairs x (fun a b => [a, b ^^^ 0x80000000]) 2 always2
  | 0x17 => mapPairs x (fun a b => [fpMag a b]) 1 always2
  | 0x18 => mapPairs x (fun a b => [fpAngleDeg a b]) 1 (fun a b => !(fpZero a && fpZero b))
  | 0x19 => mapElems x fpSqrt (fun a => !fpLt a 0)
  | 0x20 => reduceElems x (r.nodeP 0) (fun l => l.foldl fpAdd 0)
  | 0x21 => reduceElems x (r.nodeP 0) (fun l => fpDiv (l.foldl fpAdd 0) (fpOfInt l.length))
  | 0x22 => reduceElems x (r.nodeP 0) (fun l => l.foldl (fun m a => if fpLt a m then a else m) (l.headD 0))
  | 0x23 => reduceElems x (r.nodeP 0) (fun l => l.foldl (fun m a => if fpLt m a then a else m) (l.headD 0))
  | 0x30 => (past.getD (List.replicate x.length badElem))
  | 0x31 => x.zipIdx.map (fun (a, i) =>
      match (past.bind (fun l => l[i]?)) with
      | some (b, true) => if a.2 then (fpAdd b (fpMul (p 0) (fpSub a.1 b)), true) else badElem
      | _ => a)
  | 0x32 => x.zipIdx.map (fun (a, i) =>
      match (past.bind (fun l => l[i]?)) with
      | some (b, true) => if a.2 then (fpMul (fpSub a.1 b) (fpOfInt fs), true) else badElem
      | _ => badElem)
  | 0x40 => mapElems x (fun a => if fpLt (p 0) a then fpOne else 0) always
  | 0x41 => mapElems x (fun a => if fpLt a (p 0) then fpOne else 0) always
  | 0x42 => (List.range y.length).map (fun i =>
      let c := bcast x i
      if !c.2 then badElem else if fpZero c.1 then bcast z i else bcast y i)
  | _ => x

/-! ### Graphs (R291, R292, R295, R302) -/

/-- A directory record's fields. -/
def Rec.dirOn (r : Rec) : Bool := r.bitAt 0 7
def Rec.dirSafety (r : Rec) : Bool := r.bitAt 0 6
def Rec.dirTimed (r : Rec) : Bool := r.bitAt 0 5
def Rec.dirPrio (r : Rec) : Nat := r.bitsAt 0 0 2
def Rec.dirMask (r : Rec) : Nat := r.at 2 2
def Rec.dirFirst (r : Rec) : Nat := r.at 4 2
def Rec.dirNodes (r : Rec) : Nat := r.at 6 2
def Rec.dirWords (r : Rec) : Nat := r.at 8 2
def Rec.dirDeadline (r : Rec) : Nat := 1000 * r.at 12 4
def Rec.dirPeriod (r : Rec) : Nat := 1000 * r.at 16 4

/-- The nodes of a graph. -/
def Cfg.graphNodes (c : Cfg) (r : Rec) : List Rec := (List.range r.dirNodes).map (fun k => c.tab 19 (r.dirFirst + k))

/-- The enabled graphs of a configuration. -/
def Cfg.graphs (c : Cfg) : List (Nat × Rec) := (c.listed 18).filter (fun e => e.2.dirOn)

/-- Engine time of a node in half nanoseconds (R289); `n` is its element count. -/
def nodeTime (op n : Nat) : Nat :=
  match op with
  | 0x01 => 80
  | 0x02 => 20
  | 0x15 => 40 + 2 * n
  | 0x17 => 40 + 2 * n
  | 0x18 => 50 + 2 * n
  | 0x30 | 0x31 | 0x32 => 60 + n
  | 0xF0 => 80 + n
  | _ => 40 + n

/-- Demand of a graph in half nanoseconds per second, for one instance (R302). -/
def Cfg.graphDemand (c : Cfg) (r : Rec) : Nat :=
  let ns := c.graphNodes r
  let len (i : Nat) : Nat := ((ns[i]?).map Rec.nodeLen).getD 0
  let time := (ns.map (fun x => nodeTime x.nodeOp (max x.nodeLen (max (len (x.nodeIn 0)) (max (len (x.nodeIn 1)) (len (x.nodeIn 2))))))).sum
  time * (if r.dirTimed then nsPerS / max 1 r.dirPeriod else 2 * c.fs)

/-- The clusters that PHE reserves (R128). -/
def Cfg.pheReserved (c : Cfg) : List Nat := [7, 15, 6, 14].take (c.fld Reg.PHE_CTL_NCLU)

/-- Demand of the built-in analyses on a cluster, in half nanoseconds per second; with no node, branch, measurement, signal or rule
enabled there is none. -/
def Cfg.builtin (c : Cfg) (k : Nat) : Nat :=
  let signals := ((c.listed 9).filter (fun e => e.2.sigOn)).length
  let rules := ((c.listed 12).filter (fun e => e.2.ruleOn)).length
  if c.pheReserved.contains k || c.nodes.length + c.branches.length + c.meas.length + signals + rules == 0 then 0 else
  2 * Config.builtinDemand c.fs c.nodes.length c.branches.length c.meas.length signals rules k

/-- What a cluster may be asked for: 0.70 of four engines, in half nanoseconds per second (R302). -/
def clusterCap : Nat := 2 * 2800000000

/-- The first cluster of a range that a graph may take with the loads so far. -/
def pickCluster (c : Cfg) (loads : KV Nat) (mask demand lo hi : Nat) : Option Nat :=
  (List.range 16).find? (fun k => decide (lo ≤ k ∧ k < hi) && bitOf mask k && !c.pheReserved.contains k
    && decide (kvGetD loads k 0 + demand ≤ clusterCap))

/-- The placement of a configuration's graphs (R295, R302): each takes the lowest cluster that has room, a SAFETY graph one
on each die; the first graph that cannot be placed, or 0xFFFF for the built-in analyses. -/
def Cfg.placement (c : Cfg) : Except Nat (KV (Nat × Nat)) :=
  let loads : KV Nat := (List.range 16).map (fun k => (k, c.builtin k))
  if loads.any (fun e => decide (clusterCap < e.2)) then .error 0xFFFF else
  (c.graphs.foldl (fun (acc : Except Nat (KV (Nat × Nat) × KV Nat)) e =>
    match acc with
    | .error g => .error g
    | .ok (place, loads) =>
      let d := c.graphDemand e.2
      let add (l : KV Nat) (k : Nat) : KV Nat := kvSet l k (kvGetD l k 0 + d)
      if e.2.dirSafety then
        match pickCluster c loads e.2.dirMask d 0 8, pickCluster c loads e.2.dirMask d 8 16 with
        | some a, some b => .ok (kvSet place e.1 (a, b), add (add loads a) b)
        | _, _ => .error e.1
      else match pickCluster c loads e.2.dirMask d 0 16 with
        | some a => .ok (kvSet place e.1 (a, a), add loads a)
        | none => .error e.1) (.ok ([], loads))).map (·.1)

/-! ### Working state -/

/-- An idle engine, an empty cluster, and a pair with nothing to do. -/
def Engine.init : Engine := ⟨none, none, none, none, false⟩
def Cluster.init : Cluster := ⟨[], [], []⟩
def WardenPair.init : WardenPair := ⟨[], none⟩

/-- Engine `e`, cluster `c` and Warden pair `p`. -/
def State.engine (s : State) (e : Nat) : Engine := kvGetD s.sched.engines e Engine.init
def State.cluster (s : State) (c : Nat) : Cluster := kvGetD s.sched.clusters c Cluster.init
def State.wardenPair (s : State) (p : Nat) : WardenPair := kvGetD s.sched.pairs p WardenPair.init

/-- `s` with an engine, a cluster or a Warden pair replaced. -/
def State.setEngine (s : State) (e : Nat) (x : Engine) : State :=
  { s with sched := { s.sched with engines := kvPut s.sched.engines e x Engine.init } }
def State.setCluster (s : State) (c : Nat) (x : Cluster) : State :=
  { s with sched := { s.sched with clusters := kvPut s.sched.clusters c x Cluster.init } }
def State.setWardenPair (s : State) (p : Nat) (x : WardenPair) : State :=
  { s with sched := { s.sched with pairs := kvPut s.sched.pairs p x WardenPair.init } }

/-- The run numbered `id`. -/
def State.graphRun (s : State) (id : Nat) : Option GRun := s.sched.runs.find? (fun r => r.id == id)

/-- `s` with a run replaced. -/
def State.setRun (s : State) (r : GRun) : State :=
  { s with sched := { s.sched with runs := s.sched.runs.map (fun x => if x.id = r.id then r else x) } }

/-- `s` without a run. -/
def State.dropRun (s : State) (id : Nat) : State :=
  { s with sched := { s.sched with runs := s.sched.runs.filter (fun x => x.id != id) } }

/-- How far instance `i` of a run is. -/
def GRun.phase (r : GRun) (i : Nat) : Nat := if i = 0 then r.a else r.b

/-- A run with the phase of an instance set. -/
def GRun.setPhase (r : GRun) (i p : Nat) : GRun := if i = 0 then { r with a := p } else { r with b := p }

/-- The cluster of an instance. -/
def GRun.cluster (r : GRun) (i : Nat) : Nat := if i = 0 then r.place.1 else r.place.2

/-- The level of a run's operations (R297). -/
def GRun.level (r : GRun) : Nat := if r.dir.dirSafety then 7 else r.dir.dirPrio

/-! ### Queues (R304 to R308) -/

/-- The numbers of R304 that name a queue. -/
def queueExists (q : Nat) : Bool := decide (q < 0x2D0) || (decide (0x400 ≤ q) && decide (q < 0x800))

/-- The unit of R420 whose block consumes a queue, where the spec names it: a port, or a cluster's engines. -/
def queuePool (q : Nat) : Nat := if q < 0x1B0 then 0 else if q < 0x400 then 1 else 2 + (q - 0x400) / 64

/-- A queue is in idle mode (R306): its IDLE_EN is set, and its consumer is in start-up or in a block restart, or QTEST
is 1. -/
def State.idleMode (s : State) (q : Nat) : Bool :=
  s.sched.idle.contains q &&
    (s.on Reg.SCHED_CTL_QTEST || decide (s.rd Reg.PWR_STAT_PHASE < 6) || s.on Reg.PWR_BLK_STAT_BUSY)

/-- A queue with nothing in it. -/
def IQueue.init : IQueue := ⟨[], 0, 0, [], [], false, false⟩

/-- An internal queue, and `s` with it replaced. -/
def State.iqueue (s : State) (q : Nat) : IQueue := kvGetD s.sched.queues q IQueue.init
def State.setIqueue (s : State) (q : Nat) (x : IQueue) : State :=
  { s with sched := { s.sched with queues := kvPut s.sched.queues q x IQueue.init } }

/-- A pointer, `own` in its domain, as the other domain of queue `q` sees it at `now` (R305): one that moves is seen there within 3
cycles, of 1 ns, of a dual-clock queue, and at once of any other.  `moves` are the pointers before each move with their instants. -/
def seenPointer (q : Nat) (write : Bool) (now : Instant) (own : Nat) (moves : List (Nat × Instant)) : Nat :=
  match moves.find? (fun m => Config.queueDual q && decide (now < m.2 + Config.queueCross q m.1 write % 4)) with
  | some m => m.1
  | none => own

/-- Cells of a queue that its consumer sees (R305). -/
def IQueue.visible (x : IQueue) (q : Nat) (now : Instant) : Nat := seenPointer q true now x.wr x.pushes - x.rd

/-- Cells of a queue that its producer takes for held (R305). -/
def IQueue.held (x : IQueue) (q : Nat) (now : Instant) : Nat := x.wr - seenPointer q false now x.rd x.pops

/-- The moves that may still be on their way at `now`. -/
def recent (now : Instant) (moves : List (Nat × Instant)) : List (Nat × Instant) := moves.filter (fun m => decide (now < m.2 + 3))

/-- Cells held in a queue as its consumer sees them: a port's queues hold their frames. -/
def State.queueDepth (s : State) (q : Nat) : Nat :=
  if q < 0x30 then (s.prt q).rxCells
  else if q < 0x1B0 then
    ((((s.prt ((q - 0x30) / 8)).queues[(q - 0x30) % 8]?).getD []).map (fun f => cellsOf f.len)).sum
  else (s.iqueue q).visible q s.now

/-- Cell limit and reserved cells of a queue. -/
def State.queueLimits (s : State) (q : Nat) : Nat × Nat :=
  if q < 0x30 then (s.cf (Reg.PORT_RX_LIM_RX_LIMIT q), 0)
  else if q < 0x1B0 then
    let n := (q - 0x30) / 8
    if (q - 0x30) % 8 = 7 then (s.cf (Reg.PORT_TX_LIM_Q7_RES n), s.cf (Reg.PORT_TX_LIM_Q7_RES n))
    else (s.cf (Reg.PORT_TX_LIM_TX_LIMIT n), 0)
  else Config.queueLimit q

/-- The words that SCHED_Q_SEL selects follow the queue it names; a number that names none reads 0. -/
def State.queueShow (s : State) : State :=
  let q := s.rd Reg.SCHED_Q_SEL_QUEUE
  let is := queueExists q
  let s := s.wrB Reg.SCHED_Q_STAT_OVERFLOW (is && s.sched.overflow.contains q)
  let s := s.wrB Reg.SCHED_Q_STAT_UNDERRUN (is && s.sched.underrun.contains q)
  let s := s.wrB Reg.SCHED_Q_STAT_IDLE_ACT (is && s.idleMode q)
  let s := s.wrB Reg.SCHED_Q_STAT_DUAL_CLOCK (is && Config.queueDual q)
  let s := s.wr Reg.SCHED_Q_STAT_POOL (if is then queuePool q else 0)
  let s := s.wr Reg.SCHED_Q_STAT_DEPTH (if is then s.queueDepth q else 0)
  let s := s.wr Reg.SCHED_Q_LIM_LIMIT (if is then (s.queueLimits q).1 else 0)
  let s := s.wr Reg.SCHED_Q_LIM_RES (if is then (s.queueLimits q).2 else 0)
  s.wrB Reg.SCHED_Q_CTL_IDLE_EN (is && s.sched.idle.contains q)

/-- IDLE_EN of queues is set or cleared; event 169 where some queue enters or leaves idle mode. -/
def State.setIdle (s : State) (qs : List Nat) : State :=
  let before := s.sched.idle.filter s.idleMode
  let t := { s with sched := { s.sched with idle := qs } }
  let after := qs.filter t.idleMode
  let t := t.queueShow
  match (after.filter (fun q => !before.contains q)) ++ (before.filter (fun q => !after.contains q)) with
  | q :: _ => t.schedEvent 9 q
  | [] => t

/-- A queue carries a safety-attributed flow: one of a cluster on which a SAFETY graph is placed. -/
def State.queueSafety (s : State) (q : Nat) : Bool :=
  decide (0x400 ≤ q) && s.act.graphs.any (fun e => e.2.dirSafety &&
    (match kvGet? s.sched.place e.1 with | some (a, b) => a == (q - 0x400) / 64 || b == (q - 0x400) / 64 | none => false))

/-- Cells of the pool that serves an internal queue, and the queues that it serves (R304). -/
def poolCells (q : Nat) : Nat := if q < 0x400 then 65536 else 16384
def poolQueues (q : Nat) : List Nat :=
  if q < 0x400 then (List.range (0x2D0 - 0x1B0)).map (· + 0x1B0) else (List.range 64).map (· + q / 64 * 64)

/-- A push of `n` cells finds queue `q` full: its limit is reached, or the pool has no more cells than others hold or have reserved
(R301, R304). -/
def State.queueFull (s : State) (q n : Nat) : Bool :=
  let depth := (s.iqueue q).held q s.now
  let taken := (((poolQueues q).filter (· != q)).map (fun k => max ((s.iqueue k).held k s.now) (s.queueLimits k).2)).sum
  decide ((s.queueLimits q).1 < depth + n) || decide (poolCells q < taken + depth + n)

/-- The queue with `n` cells of a packet pushed at `now`; those of a packet that is dropped are freed as they arrive (R308). -/
def IQueue.push (x : IQueue) (now : Instant) (n : Nat) (first last : Bool) : IQueue :=
  if x.dropping then { x with dropping := !last } else
  let cells := (List.range n).map (fun i => (⟨first && i == 0, last && i + 1 == n⟩ : QCell))
  { x with cells := x.cells ++ cells, wr := x.wr + n, pushes := recent now x.pushes ++ [(x.wr, now)] }

/-- The queue without its `n` oldest cells, popped at `now`. -/
def IQueue.advance (x : IQueue) (now : Instant) (n : Nat) : IQueue :=
  { x with cells := x.cells.drop n, rd := x.rd + n, pops := recent now x.pops ++ [(x.rd, now)] }

/-- The queue after a pop that sees a cell: within a packet until its end is popped. -/
def IQueue.pop (x : IQueue) (now : Instant) : IQueue :=
  { x.advance now 1 with mid := match x.cells with | k :: _ => !k.last | [] => false }

/-- DROP_PKT inside a packet (R308): its other cells are freed through its end, or all that are there. -/
def IQueue.drop (x : IQueue) (now : Instant) : IQueue :=
  match x.cells.findIdx? QCell.last with
  | some i => { x.advance now (i + 1) with mid := false }
  | none => { x.advance now x.cells.length with mid := false, dropping := true }

/-- A push is presented to a full queue (R307, R383, R384). -/
def State.queueOverflow (s : State) (q : Nat) : State :=
  let s := { s with sched := { s.sched with overflow := setAdd s.sched.overflow q } }
  let s := (s.bump .sched C.SCHED_Q_OVERFLOW q).schedEvent 4 q
  if s.queueSafety q then (s.enterSafe 0x0C).pinRegs else s.report 0x0C

/-- A pop from a queue that its consumer sees as empty (R306). -/
def State.queueEmpty (s : State) (q : Nat) : State :=
  if s.idleMode q then s.bump .sched C.SCHED_IDLE_READS q
  else (State.bump { s with sched := { s.sched with underrun := setAdd s.sched.underrun q } } .sched C.SCHED_Q_UNDERRUN).schedEvent 5 q

/-- A push and a pop on queue `q` (R306, R307), each where it is made: both judge full and empty as they are at the start. -/
def State.queueMove (s : State) (q : Nat) (push : Option (Nat × Bool × Bool)) (pop : Bool) : State :=
  let x := s.iqueue q
  let empty := x.visible q s.now == 0
  let full := match push with | some p => !x.dropping && s.queueFull q p.1 | none => false
  let x := if pop && !empty then x.pop s.now else x
  let x := match push with | some p => if full then x else x.push s.now p.1 p.2.1 p.2.2 | none => x
  let s := s.setIqueue q x
  let s := if pop && empty then s.queueEmpty q else s
  if full then s.queueOverflow q else s

/-- What an operation does on an internal queue (R304 to R308). -/
def State.queueAct (s : State) (a : QueueAct) : State :=
  if !queueExists a.queue || decide (a.queue < 0x1B0) then s else
  State.queueShow (match a with
    | .push q n first last => s.queueMove q (some (n, first, last)) false
    | .pop q => s.queueMove q none true
    | .both q n first last => s.queueMove q (some (n, first, last)) true
    | .dropPkt q =>
      let x := s.iqueue q
      if x.mid then (s.setIqueue q (x.drop s.now)).bump .sched C.SCHED_PKT_DROPS q else s)

/-! ### Operations of the built-in analyses (R205, R288, R295, R297) -/

/-- The number of a built-in analysis. -/
def OpOf.analysis : OpOf → Nat
  | .graph _ => 0 | .lse .. => 1 | .rules _ _ safety => if safety then 2 else 3 | .osc .. => 4 | .refactor _ => 5 | .recluster _ => 6
  | .phe ch _ => 8 + ch

/-- The built-in analyses that wait or run, each with its level, since when, and its instances. -/
def State.builtins (s : State) : List (OpOf × Nat × Instant × Nat) :=
  (s.stch.work.map (fun w =>
    let v := w.rev
    match w.who with
    | .lse => if (s.cfgRev v).fld Reg.LSE_CTL_EN = 1 then [(OpOf.lse v.instant v.rev, 5, v.release, 1)] else []
    | .osc => if (s.cfgRev v).fld Reg.OSC_CTL_EN = 1 then [(OpOf.osc v.instant v.rev, 4, v.release, 1)] else []
    | .rules =>
      let rules := s.rulesFor (s.cfgRev v)
      let wait (e : Nat × Rec) : Bool := e.2.ruleWaits (islandSafety rules)
      (if rules.any wait then [(OpOf.rules v.instant v.rev true, 7, v.release, 2)] else [])
        ++ (if rules.any (fun e => !wait e) then [(OpOf.rules v.instant v.rev false, 6, v.release, 1)] else [])
    | _ => [])).flatten
  ++ (s.phe.chans.map (fun e => e.2.runs.map (fun r =>
    let dual := (s.cfgAt r.t).fld Reg.PHE_CTL_DUAL == 1
    (OpOf.phe e.1 r.t, if dual then 7 else 3, r.start, if dual then 2 else 1)))).flatten
  ++ (match s.lse.running with | some r => [(OpOf.refactor r.start, 0, r.start, 1)] | none => [])
  ++ (match s.isl.reclust with | some t => [(OpOf.recluster t, 0, t, 1)] | none => [])

/-- The cluster of an instance of a built-in analysis: one that PHE reserves for PHE, one on each die for two instances. -/
def State.builtinCluster (s : State) (src : OpOf) (inst n : Nat) : Nat :=
  let c := Config.builtinCluster src.analysis
  let l := match src with
    | .phe .. => s.act.pheReserved.filter (fun k => n = 1 || k / 8 == 1 - inst)
    | _ => (List.range 16).filter (fun k => !s.act.pheReserved.contains k && (n = 1 || k / 8 == inst))
  (l[(if inst = 0 then c.1 else c.2) % max 1 l.length]?).getD 0

/-- The chain of an instance of a built-in analysis that waits since `since`. -/
def State.chain (s : State) (src : OpOf) (inst : Nat) (since : Instant) : Chain :=
  (s.sched.chains.find? (fun x => x.src == src && x.inst == inst)).getD ⟨src, inst, 0, since, false⟩

/-- `s` with a chain replaced; chains of analyses that are over are forgotten. -/
def State.setChain (s : State) (x : Chain) : State :=
  let live := s.builtins.map (·.1)
  { s with sched := { s.sched with
    chains := s.sched.chains.filter (fun y => !(y.src == x.src && y.inst == x.inst) && live.contains y.src) ++ [x] } }

/-- The next operations of the built-in analyses on cluster `c`: of every chain of which no operation runs. -/
def State.builtinReady (s : State) (c : Nat) : List SchedOp :=
  (s.builtins.map (fun b => (List.range b.2.2.2).filterMap (fun i =>
    let x := s.chain b.1 i b.2.2.1
    let runs := s.sched.engines.any (fun e => match e.2.op with | some o => o.src == b.1 && o.inst == i | none => false)
    if runs || s.builtinCluster b.1 i b.2.2.2 != c then none else some ⟨b.1, i, x.steps, b.2.1, x.ready, x.free⟩))).flatten

/-- An operation in its place of a ready list. -/
def byReady (l : List SchedOp) (o : SchedOp) : List SchedOp :=
  l.filter (fun p => decide (p.ready ≤ o.ready)) ++ o :: l.filter (fun p => decide (o.ready < p.ready))

/-- The ready lists of cluster `c` in one, oldest first (R297). -/
def State.readyOps (s : State) (c : Nat) : List SchedOp := (s.builtinReady c).foldl byReady (s.cluster c).ready

/-! ### What the registers show (R311) -/

/-- SCHED registers follow the working state. -/
def State.schedShow (s : State) : State :=
  let busy := (s.sched.engines.filter (fun e => e.2.op.isSome || e.2.hold.isSome)).map (fun e => 2 ^ e.1)
  let s := s.wr Reg.SCHED_ENG_BUSY_BUSY busy.sum
  let s := (List.range 16).foldl (fun s c => s.wr (Reg.SCHED_CLU_LOAD_READY c) (min 1023 (s.readyOps c).length)) s
  let g := s.rd Reg.SCHED_GRAPH_SEL_GRAPH
  let d := s.act.tab 18 g
  let p := kvGet? s.sched.place g
  let s := s.wr Reg.SCHED_GRAPH_STAT_CLU_A ((p.map (·.1)).getD 0)
  let s := s.wr Reg.SCHED_GRAPH_STAT_CLU_B ((p.map (·.2)).getD 0)
  let s := s.wrB Reg.SCHED_GRAPH_STAT_SAFETY d.dirSafety
  let s := s.wrB Reg.SCHED_GRAPH_STAT_PLACED (d.dirOn && p.isSome)
  let s := s.wr Reg.SCHED_GRAPH_STAT_PENDING (s.sched.runs.filter (fun r => r.g == g)).length
  let s := s.wr Reg.SCHED_GRAPH_TIME_ELAPSED_NS (kvGetD s.sched.elapsed g 0)
  let s := s.wr Reg.SCHED_WRD_STAT_READY0 (min 255 (s.wardenPair 0).ready.length)
  s.wr Reg.SCHED_WRD_STAT_READY1 (min 255 (s.wardenPair 1).ready.length)

/-! ### Results (R294, R296) -/

/-- LENGTH of a result. -/
def graphLength (nword : Nat) : Nat := 64 + 4 * nword + 4 * ((nword + 31) / 32)

/-- A result goes to the publication ring of kind 4. -/
def State.produceGraph (s : State) (r : GraphResult) (k : Nat) (material : Bool) : State :=
  s.produce ⟨4, r.instant, k, r.rev, material, r.length, .graph r⟩

/-- A result without values: SKIPPED or NO_SLICE. -/
def State.emptyGraph (s : State) (g : Nat) (d : Rec) (rev status : Nat) (t : Instant) (epoch k : Nat) (material : Bool) : State :=
  s.produceGraph ⟨g, rev, status, t, false, d.dirTimed, false, epoch, 0, List.replicate d.dirWords badElem, graphLength d.dirWords⟩
    k material

/-- A start event that is not run delivers SKIPPED (R294). -/
def State.skipGraph (s : State) (g : Nat) (d : Rec) (rev : Nat) (t : Instant) (epoch k : Nat) (material : Bool) : State :=
  ((s.bump .sched C.SCHED_SKIPPED g).schedEvent 0 g).emptyGraph g d rev 1 t epoch k material

/-- The elements of node `k` of an instance. -/
def GRun.elems (r : GRun) (i k : Nat) : List Elem := kvGetD r.vals (512 * i + k) []

/-- The result words of an instance of a run: OUT nodes in order, the higher-numbered one last. -/
def GRun.words (r : GRun) (inst : Nat) : List Elem :=
  r.nodes.zipIdx.foldl (fun w (n, _) =>
    if n.nodeOp = 0xF0 then
      (r.elems inst (n.nodeIn 0)).zipIdx.foldl (fun w (x, j) => w.set (n.nodeP 0 + j) x) w
    else w) (List.replicate r.dir.dirWords badElem)

/-- A completed run delivers its result (R294, R296). -/
def State.deliverRun (s : State) (r : GRun) : State :=
  let late := !r.dir.dirSafety && decide (r.start + r.dir.dirDeadline < s.now)
  let s := if late then (s.bump .sched C.SCHED_LATE_RUNS r.g).schedEvent 1 r.g else s
  let res : GraphResult :=
    { graph := r.g, rev := if r.timed then 0 else (r.rev.map (·.rev)).getD 0, status := 0, instant := r.instant, late
      timed := r.timed, compared := r.dir.dirSafety, epoch := r.epoch, elapsed := s.now - r.start, words := r.words 0
      length := graphLength r.dir.dirWords }
  let s := State.bump { s with sched := { s.sched with elapsed := kvSet s.sched.elapsed r.g (s.now - r.start) } } .sched C.SCHED_RUNS
  ((s.dropRun r.id).produceGraph res ((r.rev.map (·.k)).getD 0) ((r.rev.map (·.material)).getD false)).schedShow

/-! ### Release stages (R12, R300) -/

/-- An instance's result leaves wherever it is kept. -/
def State.unhold (s : State) (c : Nat) (id inst : Nat) : State :=
  let x := s.cluster c
  let s := s.setCluster c { x with release := x.release.filter (fun p => !(p.1 == id && p.2.1 == inst)) }
  (List.range 4).foldl (fun s i =>
    let e := 4 * c + i
    let g := s.engine e
    let clear (p : Option (Nat × Nat)) : Option (Nat × Nat) := if p = some (id, inst) then none else p
    s.setEngine e { g with hold := clear g.hold, spill := clear g.spill }) s

/-- An instance of a run is released (R12): a run of one instance delivers; one of two waits for the comparison of R14 once
both are. -/
def State.instanceReleased (s : State) (r : GRun) : State :=
  if !r.dir.dirSafety then s.deliverRun r
  else if r.a = 2 ∧ r.b = 2 then { s with isl := { s.isl with compare := s.isl.compare ++ [.graph r.g r.id] } }
  else s

/-- The runs of a flow that may be released are, in issue order. -/
def State.releaseFlow (g inst : Nat) : Nat → State → State
  | 0, s => s
  | n + 1, s =>
    match s.sched.runs.find? (fun r => r.g == g && r.phase inst != 2) with
    | none => s
    | some r =>
      if r.phase inst ≠ 1 then s else
      let r' := r.setPhase inst 2
      State.releaseFlow g inst n (((s.unhold (r.cluster inst) r.id inst).setRun r').instanceReleased r')

/-- A result that has to wait takes a place of the release stage, where one is left for it: 224 for every flow and 32 more
for safety-attributed ones. -/
def State.takePlace (s : State) (c : Nat) (r : GRun) (inst : Nat) : Option State :=
  let x := s.cluster c
  let others := (x.release.filter (fun p => !p.2.2)).length
  if r.dir.dirSafety || decide (others < 224) then
    some (s.setCluster c { x with release := x.release ++ [(r.id, inst, r.dir.dirSafety)] })
  else none

/-- Instance `inst` of a run completes on engine `e` (R12, R300). -/
def State.instanceDone (s : State) (r : GRun) (inst e : Nat) : State :=
  let r := { r.setPhase inst 1 with missed := r.missed || (r.dir.dirSafety && decide (r.start + r.dir.dirDeadline < s.now)) }
  let s := s.setRun r
  let first := match s.sched.runs.find? (fun x => x.g == r.g && x.phase inst != 2) with
    | some x => x.id == r.id
    | none => false
  if first then State.releaseFlow r.g inst (s.sched.runs.length + 1) s
  else match s.takePlace (r.cluster inst) r inst with
    | some s => s
    | none => (s.setEngine e { s.engine e with hold := some (r.id, inst) }).schedEvent 7 (r.cluster inst)

/-- RELEASE_STAGE_FREE (R300): an unreserved place of cluster `c` is free, and a spilled result, or else one that an engine
keeps, enters it. -/
def execReleaseStageFree (c : Fin 16) (s : State) : Result :=
  let es := (List.range 4).map (fun i => 4 * c.val + i)
  let spilled := es.filterMap (fun e => (s.engine e).spill.map (fun p => (e, true, p)))
  let kept := es.filterMap (fun e => (s.engine e).hold.map (fun p => (e, false, p)))
  match spilled ++ kept with
  | [] => .next s
  | (e, sp, id, inst) :: _ =>
    match s.graphRun id with
    | none => .next s
    | some r =>
      match s.takePlace c r inst with
      | none => .next s
      | some t =>
        let x := t.engine e
        .next ((t.setEngine e (if sp then { x with spill := none } else { x with hold := none })).schedShow)

/-! ### Operations (R288, R292, R293, R297, R298) -/

/-- A node uses input `i`. -/
def Rec.uses (r : Rec) (i : Nat) : Bool := r.nodeIn 0 == i || r.nodeIn 1 == i || r.nodeIn 2 == i

/-- The inputs of a node that it has. -/
def Rec.inputs (r : Rec) : List Nat := ([r.nodeIn 0, r.nodeIn 1, r.nodeIn 2]).filter (· != 0xFFFF)

/-- Nodes of an instance become ready. -/
def State.makeReady (s : State) (r : GRun) (inst : Nat) (ks : List Nat) : State :=
  let c := r.cluster inst
  let x := s.cluster c
  s.setCluster c { x with ready := x.ready ++ ks.map (fun k => ⟨.graph r.id, inst, k, r.level, s.now, false⟩) }

/-- The nodes of a run that need no input. -/
def GRun.sources (r : GRun) : List Nat :=
  (List.range r.nodes.length).filter (fun k => ((r.nodes[k]?).map (fun n => n.inputs.isEmpty)).getD false)

/-- The run that an operation belongs to. -/
def State.runOf (s : State) (o : SchedOp) : Option GRun := match o.src with | .graph id => s.graphRun id | _ => none

/-- Where the engine that last ran a node of a graph's instance, or a step of a built-in analysis, is kept. -/
def State.affKey (s : State) (o : SchedOp) : Option Nat :=
  match o.src with
  | .graph id => (s.graphRun id).map (fun r => (2 * r.g + o.inst) * 512 + o.node)
  | src => some (2 ^ 32 * src.analysis + 2 * o.node + o.inst)

/-- The affinity engine of an operation (R298). -/
def State.affinity (s : State) (o : SchedOp) : Option Nat := (s.affKey o).bind (fun k => kvGet? s.sched.aff k)

/-- The engine runs nothing and keeps nothing. -/
def Engine.idle (x : Engine) : Bool := x.op.isNone && x.hold.isNone

/-- The operation that a free engine takes (R298): of the highest level that it may run, the oldest with this affinity, else
the oldest without one, or whose engine is busy and whose wait is over. -/
def State.pickOp (s : State) (e : Nat) (safetyOnly : Bool) : Option SchedOp :=
  let l := (s.readyOps (e / 4)).filter (fun o => !safetyOnly || o.level == 7)
  let top := (l.map (·.level)).foldl max 0
  let l := l.filter (fun o => o.level == top)
  match l.find? (fun o => s.affinity o == some e) with
  | some o => some o
  | none => l.find? (fun o => match s.affinity o with
    | none => true
    | some a => o.free && !(s.engine a).idle)

/-- An engine executes operations: its microcode is loaded, and the check of it passed (R11, R418). -/
def State.engineRuns (s : State) (e : Nat) : Bool :=
  decide (5 ≤ s.rd Reg.PWR_STAT_PHASE) && decide (s.rd Reg.PWR_STAT_PHASE ≤ 8) && !(s.engine e).failed

/-- ENGINE_DISPATCH (R11, R297, R298, R300): an engine that is free takes an operation; one that keeps a result moves it to
its spill place for a safety-attributed operation. -/
def execEngineDispatch (e : Fin 64) (s : State) : Result :=
  let e := e.val
  let x := s.engine e
  if !s.engineRuns e || x.op.isSome || (x.hold.isSome && x.spill.isSome) then .next s else
  match s.pickOp e (x.hold.isSome || x.spill.isSome) with
  | none => .next s
  | some o =>
    let c := e / 4
    let k := s.cluster c
    let pre := match x.last with
      | some (src, i, lvl) =>
        decide (lvl < o.level) && (s.readyOps c).any (fun p => p.src == src && p.inst == i && decide (p.level < o.level))
      | none => false
    let s := if pre then s.bump .sched C.SCHED_PREEMPTS else s
    let s := match s.affinity o with
      | some a => s.bump .sched (if a = e then C.SCHED_AFF_HITS else C.SCHED_AFF_MISSES)
      | none => s
    let s := match s.affKey o with
      | some k => { s with sched := { s.sched with aff := kvSet s.sched.aff k e } }
      | none => s
    let s := s.setCluster c { k with ready := k.ready.erase o }
    .next ((s.setEngine e { x with
      op := some o, hold := none, spill := if x.hold.isSome then x.hold else x.spill, last := some (o.src, o.inst, o.level) }).schedShow)

/-- AFF_WAIT_EXPIRY (R298): operations of a cluster whose affinity engine is busy have been ready for AFF_WAIT_NS. -/
def execAffWaitExpiry (c : Fin 16) (s : State) : Result :=
  let x := s.cluster c
  let due (o : SchedOp) : Bool := decide (o.ready + s.cf Reg.SCHED_CTL_AFF_WAIT_NS ≤ s.now)
    && (match s.affinity o with | some a => !(s.engine a).idle | none => false)
  let t := s.setCluster c { x with ready := x.ready.map (fun o => if due o then { o with free := true } else o) }
  .next (((s.builtinReady c).filter due).foldl (fun t o => t.setChain ⟨o.src, o.inst, o.node, o.ready, true⟩) t)

/-- The history entry that a stateful node of graph `g` reads at a slice instant (R289, R293). -/
def State.pastOf (s : State) (r : GRun) (k : Nat) (n : Rec) : Option (List Elem) :=
  let back := if n.nodeOp = 0x30 then n.nodeP 0 else 1
  let num := gridNumber r.fs r.instant
  if num < back then none else
  ((kvGetD s.sched.hist (512 * r.g + k) []).find? (fun e => e.1 == gridOf r.fs (num - back))).map (·.2)

/-- The entry of a slice is written to a stateful node's history: of the newest 256 slice instants. -/
def histEntry (l : List (Instant × List Elem)) (t : Instant) (x : List Elem) : List (Instant × List Elem) :=
  let l := l.filter (fun e => e.1 != t)
  ((l.filter (fun e => decide (t < e.1))) ++ (t, x) :: l.filter (fun e => decide (e.1 < t))).take 256

/-- Node `k` of an instance has run: its elements and its history entry (R289, R293). -/
def State.runNode (s : State) (r : GRun) (inst k : Nat) : GRun × State :=
  let n := (r.nodes[k]?).getD (zeroRec 19)
  let ins := [n.nodeIn 0, n.nodeIn 1, n.nodeIn 2].map (fun i => r.elems inst i)
  let v := r.rev.getD
    ⟨r.instant, 0, 0, r.epoch, r.fs, false, false, false, false, false, false, false, false, 0, 0, 0, []⟩
  let out := nodeElems n v r.useTest r.fs ins (s.pastOf r k n)
  let kept := if n.nodeOp = 0x31 then out else (ins.headD [])
  let s := if stateful n.nodeOp then
      let key := 512 * r.g + k
      { s with sched := { s.sched with hist := kvSet s.sched.hist key (histEntry (kvGetD s.sched.hist key []) r.instant kept) } }
    else s
  let r := { r with vals := kvSet r.vals (512 * inst + k) out }
  (r, s.setRun r)

/-- OP_COMPLETE (R12, R288, R292, R300, R306 to R308): an engine's operation ends; successors become ready, and the run's
result is released or held with its last node, and the next operation of a built-in analysis becomes ready.  `acts` is what the
operation did on internal queues. -/
def execOpComplete (e : Fin 64) (acts : List QueueAct) (s : State) : Result :=
  let x := s.engine e
  match x.op with
  | none => .next s
  | some o =>
    let s := s.setEngine e { x with op := none }
    let s := acts.foldl State.queueAct s
    let (load, s) := s.free
    let s := s.wr (Reg.SCHED_CLU_LOAD_LOAD_PM (e / 4)) (load % 1001)
    match s.runOf o with
    | none => .next (match o.src with
      | .graph _ => s
      | src => if s.builtins.any (fun b => b.1 == src) then s.setChain ⟨src, o.inst, o.node + 1, s.now, false⟩ else s).schedShow
    | some r =>
      let (r, s) := s.runNode r o.inst o.node
      let ready (n : Rec) : Bool := n.uses o.node && n.inputs.all (fun i => (kvGet? r.vals (512 * o.inst + i)).isSome)
      let s := s.makeReady r o.inst
        ((List.range r.nodes.length).filter (fun k => ((r.nodes[k]?).map ready).getD false))
      let all := (List.range r.nodes.length).all (fun k => (kvGet? r.vals (512 * o.inst + k)).isSome)
      .next (if all then (s.instanceDone r o.inst e).schedShow else s.schedShow)

/-! ### Starts (R293, R294, R299) -/

/-- A new run of a graph. -/
def State.newRun (s : State) (c : Cfg) (g : Nat) (d : Rec) (v : Revision) (timed : Bool) (start t : Instant) (epoch : Nat)
    (place : Nat × Nat) : GRun × State :=
  let r : GRun :=
    { id := s.sched.nextRun, g, dir := d, nodes := c.graphNodes d, rev := some v, timed, start, instant := t, epoch, fs := c.fs
      useTest := c.fld Reg.SCHED_CTL_USE_TEST == 1, place, vals := [], a := 0, b := if d.dirSafety then 0 else 2
      missed := false }
  (r, { s with sched := { s.sched with runs := s.sched.runs ++ [r], nextRun := s.sched.nextRun + 1 } })

/-- The instances of a run. -/
def GRun.instances (r : GRun) : List Nat := if r.dir.dirSafety then [0, 1] else [0]

/-- The graph has 4 runs that have been issued and not completed (R294). -/
def State.graphFull (s : State) (g : Nat) : Bool := decide (4 ≤ (s.sched.runs.filter (fun r => r.g == g)).length)

/-- Histories of a graph are emptied. -/
def State.clearHist (s : State) (g : Nat) : State :=
  { s with sched := { s.sched with
    hist := s.sched.hist.filter (fun e => e.1 / 512 != g), seen := kvDel s.sched.seen g } }

/-- A slice-driven graph meets a revision (R293, R294). -/
def State.startGraph (s : State) (c : Cfg) (place : KV (Nat × Nat)) (v : Revision) (g : Nat) (d : Rec) : State :=
  let s := if v.gap then s.clearHist g else s
  let seen := kvGetD s.sched.seen g []
  let old := decide (256 ≤ seen.length) && !seen.contains v.instant && seen.all (fun t => decide (v.instant < t))
  if old then (s.bump .sched C.SCHED_REV_OLD g).schedEvent 6 g
  else if s.graphFull g then s.skipGraph g d v.rev v.instant v.epoch v.k v.material
  else match kvGet? place g with
    | none => s
    | some p =>
      let newSeen := (setAdd seen v.instant).reverse.take 256 |>.reverse
      let s := { s with sched := { s.sched with seen := kvSet s.sched.seen g newSeen } }
      let (r, s) := s.newRun c g d v false v.release v.instant v.epoch p
      r.instances.foldl (fun s i => s.makeReady r i r.sources) s

/-- GRAPH_RUN_START (R148, R293, R294): the next revision that waits for the integrator's graphs starts a run of each
slice-driven one of its epoch. -/
def execGraphRunStart (s : State) : Result :=
  match s.stch.work.find? (fun w => w.who == .graphs) with
  | none => .next s
  | some w =>
    let v := w.rev
    let c := s.cfgRev v
    let s := { s with stch := { s.stch with work := s.stch.work.erase w } }
    let place := if v.epoch = s.rd Reg.GLB_EPOCH_EPOCH then s.sched.place else s.sched.placeOld
    if c.fld Reg.SCHED_CTL_EN = 0 then .next s else
    .next (((c.graphs.filter (fun e => !e.2.dirTimed)).foldl (fun s e => s.startGraph c place v e.1 e.2) s).schedShow)

/-- Entries of a delay list stand in order of their instants, and of insertion for equal ones (R299). -/
def delayInsert (l : List (Instant × Nat × Nat)) (x : Instant × Nat × Nat) : List (Instant × Nat × Nat) :=
  (l.filter (fun y => decide (y.1 ≤ x.1))) ++ x :: l.filter (fun y => decide (x.1 < y.1))

/-- GRAPH_TIMED_START (R293, R294, R299): the next period instant of a timed graph is reached; its start goes through the
delay list of its clusters, whose refusal delivers SKIPPED. -/
def execGraphTimedStart (g : Fin 64) (s : State) : Result :=
  let g := g.val
  let d := s.act.tab 18 g
  let t := kvGetD s.sched.timedNext g 0
  if s.act.fld Reg.SCHED_CTL_EN = 0 || !d.dirOn || !d.dirTimed || d.dirPeriod == 0 || decide (s.now < t) then .next s else
  let s := { s with sched := { s.sched with timedNext := kvSet s.sched.timedNext g (t + d.dirPeriod) } }
  let epoch := s.rd Reg.GLB_EPOCH_EPOCH
  let newest := (s.acted.filter (fun r => r.rev == 0 && decide (r.release ≤ t))).foldl
    (fun (b : Option Revision) r => match b with
      | none => some r
      | some x => if x.instant < r.instant then some r else b) none
  match (if s.stch.gap then none else newest), kvGet? s.sched.place g with
  | none, _ => .next (s.emptyGraph g d 0 2 t epoch 0 false).schedShow
  | some _, none => .next s
  | some v, some p =>
    if s.graphFull g then .next (s.skipGraph g d 0 v.instant v.epoch v.k false).schedShow else
    let cs := if d.dirSafety then [p.1, p.2] else [p.1]
    if cs.any (fun c => decide (1024 ≤ (s.cluster c).delay.length)) then
      .next (((s.bump .sched C.SCHED_DELAY_FULL p.1).schedEvent 3 p.1).emptyGraph g d 0 1 v.instant v.epoch v.k false).schedShow
    else
      let (r, s) := s.newRun s.act g d v true t v.instant v.epoch p
      .next ((r.instances.foldl (fun s i =>
        let c := r.cluster i
        let x := s.cluster c
        s.setCluster c { x with delay := delayInsert x.delay (t, r.id, i) }) s).schedShow)

/-- DELAY_TICK (R299): a tick, and every entry of a cluster's delay list due at or before it becomes ready. -/
def execDelayTick (c : Fin 16) (s : State) : Result :=
  let tick := s.now / 10000 * 10000
  let x := s.cluster c
  let due := x.delay.filter (fun e => decide (e.1 ≤ tick))
  let s := s.setCluster c { x with delay := x.delay.filter (fun e => decide (tick < e.1)) }
  .next ((due.foldl (fun s e => match s.graphRun e.2.1 with
    | some r => s.makeReady r e.2.2 r.sources
    | none => s) s).schedShow)

/-! ### Comparison of two instances (R14, R295) -/

/-- The instances of a safety-attributed computation differ, or one is missing: the safe state, and neither output
(R14). -/
def State.mismatch (s : State) (x : Compare) : State :=
  let s := (s.enterSafe 0x09).pinRegs
  match x with
  | .rules .. => s
  | .graph g run => (s.dropRun run).schedEvent 2 g

/-- The oldest comparison is made: what agrees is shown or delivered. -/
def State.compared (s : State) (x : Compare) : State :=
  match x with
  | .rules .. => s.agreed x
  | .graph _ run => match s.graphRun run with
    | some r => if s.safe then s.dropRun run else s.deliverRun r
    | none => s

/-- What a comparison finds: no instance missed its completion time, and of a graph the words of both instances are equal. -/
def State.equal (s : State) : Compare → Bool
  | .rules _ _ _ missed _ _ => !missed
  | .graph _ run => match s.graphRun run with
    | some r => !r.missed && r.words 0 == r.words 1
    | none => true

/-- SAFETY_COMPARE (R14, R205, R295): both instances have completed; `agree` tells whether what no state shows, the decisions of the
two instances as their engines gave them, is equal too. -/
def execSafetyCompare (agree : Bool) (s : State) : Result :=
  match s.isl.compare with
  | [] => .next s
  | x :: rest =>
    let t := { s with isl := { s.isl with compare := rest } }
    .next (if agree && s.equal x then t.compared x else t.mismatch x)

/-- The first run of a SAFETY graph whose completion time is past and which is not complete in both instances, or was too late
(R294). -/
def State.overdue (s : State) : Option GRun :=
  s.sched.runs.find? (fun r => r.dir.dirSafety &&
    (r.missed || (!(r.a == 2 && r.b == 2) && decide (r.start + r.dir.dirDeadline < s.now))))

/-- The first revision 0 whose SAFETY rules are not decided though their completion time is past (R20, R216). -/
def State.overdueRules (s : State) : Option Work :=
  s.stch.work.find? (fun w => w.who == .rules &&
    (let rules := s.rulesFor (s.cfgRev w.rev)
     rules.any (fun e => e.2.ruleSafety) &&
       (match w.rev.due (islandSafety rules) with | some d => decide (d < s.now) | none => false)))

/-- The first decision of rules that came after its completion time. -/
def State.lateDecision (s : State) : Option Compare :=
  s.isl.compare.find? (fun x => match x with | .rules _ _ _ missed _ _ => missed | .graph .. => false)

/-- SAFETY_DEADLINE_MISS (R14): an instance misses its completion time: of a run of a SAFETY graph, of SAFETY rules that are not
decided yet, or of a decision that waits for its comparison.  Neither output is published. -/
def execSafetyDeadlineMiss (s : State) : Result :=
  match s.overdue, s.overdueRules, s.lateDecision with
  | some r, _, _ =>
    .next (State.mismatch { s with isl := { s.isl with compare := s.isl.compare.erase (.graph r.g r.id) } } (.graph r.g r.id)).schedShow
  | none, some w, _ =>
    .next (State.mismatch { s with stch := { s.stch with work := s.stch.work.erase w } } (.rules w.rev.instant w.rev.rev w.rev.epoch true [] none))
  | none, none, some x => .next (State.mismatch { s with isl := { s.isl with compare := s.isl.compare.erase x } } x)
  | none, none, none => .next s

/-! ### Warden work items (R303) -/

/-- The longest item so far is shown. -/
def State.itemTook (s : State) (us : Nat) : State :=
  s.wr Reg.SCHED_WRD_STAT_MAX_ITEM_US (max (s.rd Reg.SCHED_WRD_STAT_MAX_ITEM_US) (min 65535 us))

/-- The oldest item of the highest priority (0 the highest), and the others. -/
def takeTop (l : List WardenItem) : Option (WardenItem × List WardenItem) :=
  match l with
  | [] => none
  | a :: r => let top := r.foldl (fun b x => if x.prio < b.prio then x else b) a; some (top, l.erase top)

/-- WARDEN_ITEM_START (R303): a pair completes the item it ran, which took `us` microseconds; the items `made` became ready by events
meanwhile; the oldest ready one of the highest priority starts. -/
def execWardenItemStart (pair : Fin 2) (us : Nat) (made : List WardenItem) (s : State) : Result :=
  let x := s.wardenPair pair
  let s := if x.running.isSome then s.itemTook us else s
  match takeTop (x.ready ++ made) with
  | none => .next (s.setWardenPair pair ⟨[], none⟩).schedShow
  | some (p, rest) => .next (s.setWardenPair pair ⟨rest, some p⟩).schedShow

/-- WARDEN_ITEM_OVERRUN (R303, R384): the item that a pair runs has run for `us` microseconds, longer than the pair's
bound. -/
def execWardenItemOverrun (pair : Fin 2) (us : Nat) (s : State) : Result :=
  when (decide ((if pair = 0 then 20 else 100) < us)) s (((s.itemTook us).schedEvent 8 pair).reportFree)

/-- WRD_STAT_READ (R311): the read returns MAX_ITEM_US and clears it. -/
def execWrdStatRead (s : State) : Result := .next (s.wr Reg.SCHED_WRD_STAT_MAX_ITEM_US 0)

/-! ### CINCH (R293, R295, R302) -/

/-- SCHED takes the configuration that applies at `b` in place of `old`: placement, histories of changed graphs, the next
instants of timed graphs, and what the registers report. -/
def State.schedApply (s : State) (old : Cfg) (b : Instant) : State :=
  let c := s.act
  let place := match c.placement with | .ok p => p | .error _ => []
  let changed (g : Nat) : Bool :=
    let r := c.tab 18 g
    old.tab 18 g != r || old.graphNodes (old.tab 18 g) != c.graphNodes r
  let s := ((List.range 64).filter changed).foldl State.clearHist s
  let timed := (c.graphs.filter (fun e => e.2.dirTimed && e.2.dirPeriod != 0)).map (fun e =>
    (e.1, if changed e.1 || old.fld Reg.SCHED_CTL_EN != c.fld Reg.SCHED_CTL_EN
      then (b + e.2.dirPeriod - 1) / e.2.dirPeriod * e.2.dirPeriod else kvGetD s.sched.timedNext e.1 b))
  let s := { s with sched := { s.sched with placeOld := s.sched.place, place, timedNext := timed } }
  let engines := 64 - 4 * c.pheReserved.length
  let built := ((List.range 16).map c.builtin).sum
  let demand := built + (c.graphs.map (fun e => c.graphDemand e.2 * (if e.2.dirSafety then 2 else 1))).sum
  let cap := clusterCap * (16 - c.pheReserved.length)
  let s := (s.wr Reg.SCHED_STAT_GRAPHS c.graphs.length).wr Reg.SCHED_STAT_ENGINES engines
  let s := s.wr Reg.SCHED_BUDGET_DEMAND_PM (demand * 1000 / max 1 cap)
  let s := s.wr Reg.SCHED_BUDGET_BUILTIN_PM (built * 1000 / max 1 cap)
  s.schedShow.queueShow

end Sys2Proof.Machine
end

