-- ==== Sys2Proof/Machine/Key.lean ====
section
/-!
DEFINITION. The key store: roots, derivation, KEY_OP, expiry, attestation, zeroize and debug (spec/19).
-/
namespace Sys2Proof.Machine
open Sys2Proof

/-! ### Roots and derivation (R398 to R401) -/

/-- The test root: 32 bytes of 0x5A (R399). -/
def testRoot : Nat := leNat (List.replicate 32 0x5A)

/-- The root that the life-cycle state selects, the test root while debug is enabled (R398, R399). -/
def State.root (s : State) : Nat :=
  if s.on Reg.GLB_LCS_DEBUG then testRoot else
  match s.key.lcs with
  | 1 => Config.mfgRoot
  | 2 => s.key.owner.getD 0
  | 3 => s.key.owner.getD 0
  | _ => testRoot

/-- KEY_STAT.ROOT (R413). -/
def State.rootCode (s : State) : Nat :=
  if s.on Reg.GLB_LCS_DEBUG then 1 else
  match s.key.lcs with
  | 1 => 2
  | 2 => 3
  | 3 => 3
  | _ => 1

/-- Derivation of an `len`-byte key (R401): SP 800-108r1 in counter mode, in one iteration. -/
def kdf (parent len : Nat) (label context : List Byte) : Nat :=
  hmacSha256 parent (beBytes 4 1 ++ label ++ [0] ++ context ++ beBytes 4 (8 * len)) % 2 ^ (8 * len)

/-- KEY_DEVID as bytes. -/
def State.devidBytes (s : State) : List Byte := leBytes 8 s.key.devid

/-- ASCII labels of R401. -/
def labelSlot : List Byte := [0x5A, 0x56, 0x34, 0x38, 0x36, 0x34]
def labelAttest : List Byte := [0x41, 0x54, 0x54, 0x45, 0x53, 0x54]
def labelDebug : List Byte := [0x44, 0x45, 0x42, 0x55, 0x47]
def labelProv : List Byte := [0x50, 0x52, 0x4F, 0x56]

/-- Length of a key of an algorithm (R395). -/
def keyLen (alg : Nat) : Nat := if alg = 2 then 16 else 32

/-! ### Slots (R395 to R397) -/

/-- Key slots that a configuration names: ingest entries and enabled outputs with AUTH not 0, enabled interfaces of the
field sensor link (R411). -/
def Cfg.keySlots (c : Cfg) : List (Nat × Nat) :=
  ((c.entries.filter (fun e => e.2.bitsAt 3 0 2 != 0)).map (fun e => [(e.2.at 4 1, 0), (e.2.at 5 1, 0)])).flatten
    ++ ((c.listed 16).filter (fun e => e.2.outOn && e.2.outAuth != 0)).map (fun e => (e.2.outKey, 1))
    ++ ([0, 1].filter (fun i => c.fld (Reg.FSL_CTL_EN i) == 1)).map (fun i => (c.fld (Reg.FSL_SEC_KEY_SLOT i), 2))

/-- The witness slot, where the protocol runs (R411). -/
def State.witSlots (s : State) : List Nat :=
  if s.rd Reg.PAIR_CTL_MODE = 1 ∨ s.rd Reg.PAIR_CTL_MODE = 3 then [s.rd Reg.PAIR_WIT_KEY_SLOT] else []

/-- REFERENCED (R396): the active or the staged configuration names the slot. -/
def State.referenced (s : State) (i : Nat) : Bool :=
  ((s.act.keySlots ++ s.shd.keySlots).map (·.1) ++ s.witSlots).contains i

/-- The slot's key check value, 0 when EMPTY (R396). -/
def KeySlot.kcv (k : KeySlot) : Nat := if k.st = 0 then 0 else kcvOf (keyLen k.alg) k.key

/-- The slot record (R396). -/
def State.slotBytes (s : State) (i : Nat) : List Byte :=
  let k := s.slot i
  let e := k.exp.getD 0
  leBytes 1 k.st ++ leBytes 1 k.alg ++ leBytes 1 k.usage ++ leBytes 1 k.parent ++ leBytes 4 k.keyId ++ leBytes 4 k.gen
    ++ leBytes 4 (e % nsPerS) ++ leBytes 6 (e / nsPerS)
    ++ leBytes 1 (natOf k.exp.isSome + 2 * natOf (s.referenced i) + 4 * natOf k.imported) ++ leBytes 1 k.depth
    ++ leBytes 4 k.uses ++ leBytes 4 k.kcv

/-- `s` with slot `i` replaced. -/
def State.setSlot (s : State) (i : Nat) (k : KeySlot) : State := { s with slots := kvPut s.slots i k KeySlot.empty }

/-- KEY_SLOT_DATA and NVALID follow the slots (R413). -/
def State.keyShow (s : State) : State :=
  let bs := s.slotBytes (s.rd Reg.KEY_SLOT_SEL_SLOT)
  let s := (List.range 8).foldl (fun s w => s.wr (Reg.KEY_SLOT_DATA_DATA w) (leNat ((bs.drop (4 * w)).take 4))) s
  s.wr Reg.KEY_STAT_NVALID (s.slots.filter (fun e => e.2.st == 1)).length

/-- The consumers bind the key of every slot named (R397). -/
def State.bindKeys (s : State) : State :=
  let named := distinct (s.act.keySlots.map (·.1) ++ s.witSlots)
  { s with bound := named.filterMap (fun i =>
      let k := s.slot i
      if k.st = 1 then some (i, ⟨k.alg, k.usage, k.keyId, k.key, true, none⟩) else none) }

/-- Slots not EMPTY whose parent is in `l`. -/
def State.children (s : State) (l : List Nat) : List Nat :=
  (s.slots.filter (fun e => e.2.st != 0 && e.2.parent != 0xFF && l.contains e.2.parent)).map (·.1)

/-- Slots below slot `i`; at most three levels (R402). -/
def State.below (s : State) (i : Nat) : List Nat :=
  let a := s.children [i]
  let b := s.children a
  distinct (a ++ b ++ s.children b)

/-- Slots become INVALID (R405): their bound keys may not be used from now on, and event 224 is raised. -/
def State.invalidate (s : State) (l : List Nat) : State :=
  let s := l.foldl (fun s i =>
    let s := (s.setSlot i { s.slot i with st := 2 }).bump .key C.KEY_INVALIDATED
    match kvGet? s.bound i with
    | some b => { s with bound := kvSet s.bound i { b with valid := false, ended := some (b.ended.getD s.now) } }
    | none => s) s
  ((s.raise 224).fslWatch).keyShow

/-- The earliest expiry instant of slot `i` and the slots above it. -/
def State.chainExpiry (s : State) : Nat → Nat → Option Instant
  | 0, _ => none
  | n + 1, i =>
    let k := s.slot i
    let up := if k.parent = 0xFF then none else State.chainExpiry s n k.parent
    match k.exp, up with
    | some a, some b => some (min a b)
    | some a, none => some a
    | none, x => x

/-! ### Zeroize (R408) -/

/-- A management completion of KEY_OP or ATTEST that is not yet written becomes ZEROIZED, its result discarded. -/
def zeroizedCpl (c : Nat) : Nat :=
  let op := c / 2 ^ 8 % 256
  if op = 5 ∨ op = 9 then Status.zeroized.code + 2 ^ 8 * op + 2 ^ 16 * bits c 16 16 else c

/-- Zeroize with a reason (R408): every slot EMPTY, the attestation key and every bound key erased, the operations in flight
aborted; fuses, claim epoch and tamper latches stay.  Without main supplies the events wait (R407). -/
def State.zeroize (s : State) (reason : Nat) (unpowered : Bool) : State :=
  let waiting := s.key.attWait
  let slots : KV KeySlot := s.slots.map (fun e => (e.1, { KeySlot.empty with gen := e.2.gen }))
  let parsed : List Parsed := s.ing.parsed.map (fun p => { p with key := p.key.map (fun k => { k with usable := false }) })
  let s : State := { s with
    slots := slots.filter (fun e => decide (e.2 ≠ KeySlot.empty)), bound := []
    key := { s.key with att := none, attWait := [], due := s.key.due || unpowered }
    ing := { s.ing with parsed := parsed } }
  let s := s.setRing 0 { s.ring 0 with held := (s.ring 0).held.map zeroizedCpl }
  let s := waiting.foldl (fun s w => s.mgmtDone .attest w.tag .zeroized) s
  let s := (s.wr Reg.KEY_ZINFO_REASON reason).wr Reg.KEY_ZINFO_COUNT (min 0xFFFF (s.rd Reg.KEY_ZINFO_COUNT + 1))
  let s := s.wrInstant Reg.KEY_ZTIME_S Reg.KEY_ZTIME_NS (if unpowered then 0 else s.now)
  let s := s.wr Reg.KEY_STAT_ZEROIZED 1
  ((if unpowered then s else s.raise 225).fslWatch).keyShow

/-! ### KEY_OP (R403, R404) -/

/-- RESULT of a KEY_OP: GEN and KCV of the slot after the command (R403). -/
def State.keyResult (s : State) (i : Nat) : Nat := (s.slot i).gen + 2 ^ 32 * (s.slot i).kcv

/-- A KEY_OP on slot `i` ends. -/
def State.keyDone (s : State) (tag : BitVec 16) (i : Nat) (st : Status) : Result :=
  .next (s.mgmtDone .keyOp tag.toNat st (s.keyResult i))

/-- KEY_OP other than INFO is refused in QUARANTINE and in RETIRED (R400, R403); it counts in KEY_OPS. -/
def State.keyOp (s : State) (tag : BitVec 16) (i : Nat) (f : State → Result) : Result :=
  let t := s.bump .key C.KEY_KEY_OPS
  s.dequeued (if s.quarantine || s.key.lcs == 4 then t.keyDone tag i .notPermitted else f t)

/-- KEY_OP INFO (R396, R403). -/
def execKeyOpInfo (tag : BitVec 16) (slot : Fin 256) (len : BitVec 32) (addr : BitVec 48) (dma : Dma) (s : State) : Result :=
  if s.pwr.sleep.isSome then .next s else
  let s := s.bump .key C.KEY_KEY_OPS
  if len.toNat < 32 then s.keyDone tag slot .invalid else
  let (ok, s) := s.cmdDma true slot addr.toNat dma
  if !ok then s.keyDone tag slot .xltFault else
  (s.emit (.hostWrite addr.toNat (s.slotBytes slot))).keyDone tag slot .ok

/-- The fields of a request block are ones that R404 defines. -/
def KeyReq.ok (r : KeyReq) : Bool :=
  decide (1 ≤ r.alg.toNat) && decide (r.alg.toNat ≤ 3) && decide (r.usage.toNat < 32) && (r.usage.toNat < 16 || r.alg.toNat == 3)
    && decide (r.flags.toNat < 2) && r.reserved == 0

/-- The expiry instant of a request block. -/
def KeyReq.exp (r : KeyReq) : Option Instant :=
  if r.flags.toNat % 2 = 1 then some (instantOf r.expS.toNat r.expNs.toNat) else none

/-- A key is written into a slot (R403, R404, R405): INVALID, with KEY_STALE, where the parent's invalidation instant came
before the write. -/
def State.writeKey (s : State) (tag : BitVec 16) (slot parent : Nat) (req : KeyReq) (key : Nat) (imported : Bool) (took : Nat) :
    Result :=
  let stale := parent != 0xFF && (match s.chainExpiry 4 parent with | some t => decide (t ≤ s.now + took) | none => false)
  let depth := if parent = 0xFF then 1 else (s.slot parent).depth + 1
  let k : KeySlot :=
    { st := if stale then 2 else 1, alg := req.alg.toNat, usage := req.usage.toNat, parent, keyId := req.keyId.toNat
      gen := ((s.slot slot).gen + 1) % 2 ^ 32, exp := req.exp, imported, depth, uses := 0, key }
  let s := (s.setSlot slot k).keyShow
  if stale then s.keyDone tag slot .keyStale
  else (s.bump .key (if imported then C.KEY_IMPORTED else C.KEY_DERIVED)).keyDone tag slot .ok

/-- What DERIVE and IMPORT share (R403): LEN, the target slot, the request block, the parent and the expiry are checked before
`f` makes the key. -/
def State.makeKey (s : State) (tag : BitVec 16) (slot parent : Nat) (len want : Nat) (addr : BitVec 48) (dma : Dma)
    (req : KeyReq) (root : Bool) (f : State → Result) : Result :=
  s.keyOp tag slot (fun s =>
    if len ≠ want then s.keyDone tag slot .invalid
    else if (s.slot slot).st = 1 && s.referenced slot then s.keyDone tag slot .busy
    else
      let (ok, s) := s.cmdDma false slot addr.toNat dma
      let p := s.slot parent
      if !ok then s.keyDone tag slot .xltFault
      else if !req.ok || (parent == 0xFF && !root) then s.keyDone tag slot .invalid
      else if parent ≠ 0xFF && p.st ≠ 1 then s.keyDone tag slot .keyStale
      else if parent ≠ 0xFF && (p.alg ≠ 3 || !bitOf p.usage 4 || 4 ≤ p.depth || parent = slot) then s.keyDone tag slot .invalid
      else if (match req.exp with | some t => decide (t < s.now) | none => false) then s.keyDone tag slot .past
      else f s)

/-- KEY_OP DERIVE (R401, R403 to R405); parent 0xFF is the root, and `took` how long the derivation takes. -/
def execKeyOpDerive (tag : BitVec 16) (slot parent : Fin 256) (len : BitVec 32) (addr : BitVec 48) (dma : Dma) (req : KeyReq)
    (took : Nat) (s : State) : Result :=
  s.makeKey tag slot parent len.toNat 64 addr dma req true (fun s =>
    let kp := if parent.val = 0xFF then s.root else (s.slot parent).key
    let key := kdf kp (keyLen req.alg.toNat) (labelSlot ++ leBytes 1 req.alg.toNat ++ leBytes 1 req.usage.toNat)
      (req.context ++ s.devidBytes)
    s.writeKey tag slot parent req key false took)

/-- KEY_OP IMPORT (R402 to R405). -/
def execKeyOpImport (tag : BitVec 16) (slot parent : Fin 256) (len : BitVec 32) (addr : BitVec 48) (dma : Dma) (req : KeyReq)
    (took : Nat) (s : State) : Result :=
  s.makeKey tag slot parent len.toNat 104 addr dma req false (fun s =>
    let n := if req.alg = 2 then 24 else 40
    match keyUnwrap (s.slot parent).key (req.wrapped.take n) with
    | some bs => if bs.length = keyLen req.alg.toNat then s.writeKey tag slot parent req (leNat bs) true took
      else s.keyDone tag slot .invalid
    | none => s.keyDone tag slot .invalid)

/-- KEY_OP INVALIDATE (R403, R405): the slot and every slot below it. -/
def execKeyOpInvalidate (tag : BitVec 16) (slot : Fin 256) (len : BitVec 32) (s : State) : Result :=
  s.keyOp tag slot (fun s =>
    if len ≠ 0 then s.keyDone tag slot .invalid else (s.invalidate (slot.val :: s.below slot)).keyDone tag slot .ok)

/-- KEY_OP ERASE (R403). -/
def execKeyOpErase (tag : BitVec 16) (slot : Fin 256) (len : BitVec 32) (s : State) : Result :=
  s.keyOp tag slot (fun s =>
    if len ≠ 0 then s.keyDone tag slot .invalid
    else if s.referenced slot || !(s.below slot).isEmpty then s.keyDone tag slot .busy
    else (s.setSlot slot { KeySlot.empty with gen := (s.slot slot).gen }).keyShow.keyDone tag slot .ok)

/-- The life-cycle state is burned (R400): GLB_LCS and ROOT show it, and event 227 is raised. -/
def State.setLcs (s : State) (n : Nat) : State :=
  let s := State.wr { s with key := { s.key with lcs := n } } Reg.GLB_LCS_STATE n
  (s.wr Reg.KEY_STAT_ROOT s.rootCode).raise 227

/-- Transitions that ADVANCE may burn (R398). -/
def lcsMay (a b : Nat) : Bool :=
  (a == 0 && b == 1) || (a == 1 && b == 4) || (a == 2 && (b == 3 || b == 4)) || (a == 3 && b == 4)

/-- KEY_OP ADVANCE (R398, R400, R403): entry to RETIRED zeroizes. -/
def execKeyOpAdvance (tag : BitVec 16) (len : BitVec 32) (state check : BitVec 8) (s : State) : Result :=
  s.keyOp tag 0 (fun s =>
    let n := state.toNat
    if len ≠ 0 ∨ check ≠ ~~~state ∨ 4 < n then .next (s.mgmtDone .keyOp tag.toNat .invalid)
    else if !lcsMay s.key.lcs n then .next (s.mgmtDone .keyOp tag.toNat .notPermitted)
    else
      let s := if n = 4 then s.zeroize 4 false else s
      .next ((s.setLcs n).mgmtDone .keyOp tag.toNat .ok))

/-- KEY_OP PROVISION (R402, R403): the owner root is unwrapped under the provisioning key and burned. -/
def execKeyOpProvision (tag : BitVec 16) (len : BitVec 32) (addr : BitVec 48) (dma : Dma) (wrapped : List Byte) (s : State) :
    Result :=
  s.keyOp tag 0 (fun s =>
    if len.toNat ≠ 40 then .next (s.mgmtDone .keyOp tag.toNat .invalid)
    else if s.key.lcs ≠ 1 then .next (s.mgmtDone .keyOp tag.toNat .notPermitted)
    else
      let (ok, s) := s.cmdDma false 0 addr.toNat dma
      if !ok then .next (s.mgmtDone .keyOp tag.toNat .xltFault) else
      match keyUnwrap (kdf s.root 32 labelProv s.devidBytes) (wrapped.take 40) with
      | some bs =>
        if bs.length ≠ 32 then .next (s.mgmtDone .keyOp tag.toNat .invalid) else
        let s := State.zeroize { s with key := { s.key with owner := some (leNat bs) } } 5 false
        .next ((s.setLcs 2).mgmtDone .keyOp tag.toNat .ok)
      | none => .next (s.mgmtDone .keyOp tag.toNat .invalid))

/-- KEY_OP ZEROIZE (R403, R408). -/
def execKeyOpZeroize (tag : BitVec 16) (len : BitVec 32) (s : State) : Result :=
  s.keyOp tag 0 (fun s =>
    if len ≠ 0 then .next (s.mgmtDone .keyOp tag.toNat .invalid)
    else .next ((s.zeroize 2 false).mgmtDone .keyOp tag.toNat .ok))

/-- KEY_EXPIRY (R405): the first tick at or after a VALID slot's expiry instant. -/
def execKeyExpiry (slot : Fin 256) (s : State) : Result :=
  let k := s.slot slot
  when (k.st == 1 && (match k.exp with | some t => decide (t ≤ s.now) | none => false)) s
    (s.invalidate (slot.val :: s.below slot))

/-! ### Attestation (R406) -/

/-- The firmware measurement of the running image. -/
def State.fwMeas (s : State) : Nat := match s.upd.run with | some i => i.measurement.toNat | none => 0

/-- The bytes of a report that TAG covers. -/
def State.reportBytes (s : State) (challenge : List Byte) : List Byte :=
  let flags := natOf (s.on Reg.GLB_LCS_DEBUG) + 2 * natOf (s.rd Reg.KEY_TAMPER_SRC != 0) + 4 * natOf (s.on Reg.KEY_STAT_RAM_LOST)
    + 8 * natOf s.safe
  leBytes 4 0x54535441 ++ leBytes 2 1 ++ leBytes 2 flags ++ leBytes 1 s.key.lcs ++ leBytes 3 0
    ++ leBytes 4 (s.rd Reg.GLB_EPOCH_EPOCH) ++ s.devidBytes ++ leBytes 4 (s.now % nsPerS) ++ leBytes 6 (s.now / nsPerS)
    ++ leBytes 6 0 ++ challenge.take 32 ++ List.replicate (32 - challenge.length) 0 ++ leBytes 32 s.fwMeas

/-- A report is formed, written and announced. -/
def State.attest (s : State) (key : Nat) (w : AttWait) : State :=
  let (ok, s) := s.cmdDma true 0 w.addr w.dma
  if !ok then s.mgmtDone .attest w.tag .xltFault else
  let b := s.reportBytes w.challenge
  let s := s.emit (.hostWrite w.addr (b ++ leBytes 32 (hmacSha256 key b)))
  (s.bump .key C.KEY_ATTESTS).mgmtDone .attest w.tag .ok

/-- ATTEST (R406): it waits for the attestation key where that is being derived again. -/
def execAttest (tag : BitVec 16) (len : BitVec 32) (addr : BitVec 48) (challenge : List Byte) (dma : Dma) (s : State) : Result :=
  if s.pwr.sleep.isSome then .next s
  else if s.quarantine then .next (s.mgmtDone .attest tag.toNat .notPermitted)
  else if len.toNat < 136 then .next (s.mgmtDone .attest tag.toNat .invalid)
  else
    let w : AttWait := ⟨tag.toNat, addr.toNat, challenge, dma⟩
    match s.key.att with
    | some k => .next (s.attest k w)
    | none => .next (State.mgmtStart { s with key := { s.key with attWait := s.key.attWait ++ [w] } } .attest tag.toNat)

/-- The attestation key is derived from the root (R401). -/
def State.deriveAtt (s : State) : State :=
  { s with key := { s.key with att := some (kdf s.root 32 labelAttest s.devidBytes) } }

/-- ATTEST_KEY_DERIVE (R406): after a zeroize without QUARANTINE, the key is derived again and waiting ATTESTs complete. -/
def execAttestKeyDerive (s : State) : Result :=
  if s.key.att.isSome || s.quarantine || decide (s.rd Reg.PWR_STAT_PHASE < 4) then .next s else
  let s := s.deriveAtt
  let k := s.key.att.getD 0
  let l := s.key.attWait
  .next (l.foldl (fun s w => s.attest k w) { s with key := { s.key with attWait := [] } })

/-! ### Debug (R399) -/

/-- DEBUG_REQUEST (R398, R399, R410): refused during the start and in Bivouac; else the nonce is renewed, and debug is enabled
after a zeroize where the life-cycle state, and in PROVISIONED the token, permits it. -/
def execDebugRequest (token : Option (BitVec 128)) (s : State) : Result :=
  let ph := s.rd Reg.PWR_STAT_PHASE
  if ph < 6 ∨ ph = 10 then .next s else
  let want := hmacSha256 (kdf s.root 32 labelDebug s.devidBytes)
    (s.devidBytes ++ leBytes 8 (s.rd Reg.KEY_DBG_NONCE_NONCE)) % 2 ^ 128
  let good := match s.key.lcs with
    | 2 => (match token with | some t => t.toNat == want | none => false)
    | 3 => false
    | _ => true
  let (n, s) := s.free
  let s := s.wr Reg.KEY_DBG_NONCE_NONCE n
  if !good then .next (if s.key.lcs = 2 then s.wr Reg.KEY_STAT_DBG_TOKEN_FAIL 1 else s) else
  let s := (s.zeroize 3 false).wr Reg.GLB_LCS_DEBUG 1
  .next ((s.wr Reg.KEY_STAT_ROOT s.rootCode).raise 228)

end Sys2Proof.Machine
end

