-- ==== Sys2Proof/Machine/Validate.lean ====
section
/-!
DEFINITION. What CINCH validates of a staged configuration (R31): reserved encodings, the limits of R10, references, record
versions, the admission check, the engine budget and each block's own checks; and the tables of R31 with the layouts that
TABLE_LOAD checks (R25).
-/
namespace Sys2Proof.Machine
open Sys2Proof

/-! ### Tables (R25, R31) -/

/-- A table: its code, MAGIC, record size, number of records and owning block. -/
structure TableDesc where
  code : Nat
  magic : Nat
  recSize : Nat
  count : Nat
  blk : Nat
  deriving DecidableEq, Repr

/-- The tables of R31. -/
def tables : List TableDesc :=
  [⟨0x01, 0x4D525453, 128, 8192, 0x0C⟩, ⟨0x02, 0x4C414353, 8, 131072, 0x0C⟩, ⟨0x03, 0x43454850, 256, 1024, 0x10⟩,
    ⟨0x04, 0x54434544, 272, 64, 0x11⟩, ⟨0x05, 0x444F4E4C, 16, 12288, 0x12⟩, ⟨0x06, 0x4152424C, 32, 24576, 0x12⟩,
    ⟨0x07, 0x4457534C, 16, 65536, 0x12⟩, ⟨0x08, 0x41454D4C, 16, 32768, 0x12⟩, ⟨0x09, 0x4749534F, 16, 2048, 0x13⟩,
    ⟨0x0A, 0x4645444F, 16, 1024, 0x13⟩]
  ++ [⟨0x0B, 0x4D4C414F, 32, 64, 0x13⟩, ⟨0x0C, 0x4C555241, 32, 2048, 0x14⟩, ⟨0x0D, 0x53484F43, 8, 1024, 0x14⟩,
    ⟨0x0E, 0x42555047, 256, 8, 0x14⟩, ⟨0x0F, 0x43504143, 256, 8, 0x15⟩, ⟨0x10, 0x54554F50, 576, 64, 0x16⟩,
    ⟨0x11, 0x4E455346, 32, 1024, 0x17⟩, ⟨0x12, 0x52494447, 32, 64, 0x18⟩, ⟨0x13, 0x444F4E47, 32, 8192, 0x18⟩]

/-- The table that a MAGIC names. -/
def tableOf (magic : Nat) : Option TableDesc := tables.find? (fun t => t.magic == magic)

/-! ### Inconsistencies -/

/-- An inconsistency (R31): block, TABLE, INDEX and class, and whether it is a reference to an enabled entry (R377). -/
structure Inc where
  blk : Nat
  tab : Nat
  idx : Nat
  cls : Nat
  ent : Bool
  deriving DecidableEq, Repr

/-- Rank in the order of R31: block, TABLE, INDEX, class. -/
def Inc.rank (i : Inc) : Nat := ((i.blk * 2 ^ 8 + i.tab) * 2 ^ 20 + i.idx) * 2 ^ 8 + i.cls

/-- The first inconsistency of a list. -/
def firstInc : List Inc → Option Inc
  | [] => none
  | i :: l => match firstInc l with
    | none => some i
    | some j => if j.rank < i.rank then some j else some i

/-- Check `n` of a block (class 0x07). -/
def chk (blk tab n : Nat) (ok : Bool) : List Inc := if ok then [] else [⟨blk, tab, n, 7, false⟩]

/-- The part of check `n` that references enabled entries. -/
def chkE (blk tab n : Nat) (ok : Bool) : List Inc := if ok then [] else [⟨blk, tab, n, 7, true⟩]

/-- Records of a table that carry a class of inconsistency. -/
def recInc (blk tab cls : Nat) (l : List (Nat × Rec)) (bad : Nat × Rec → Bool) (ent : Bool := false) : List Inc :=
  (l.filter bad).map (fun e => ⟨blk, tab, e.1, cls, ent⟩)

/-- A register field with an inconsistency: INDEX is the register's offset from the block's base divided by 4. -/
def fldInc (blk cls : Nat) (f : Fld) (bad : Bool) : List Inc := if bad then [⟨blk, 0, f.key / 32 - blk * 2 ^ 14, cls, false⟩] else []

/-! ### Reserved encodings (R4) -/

/-- A PORT code that R89 lists; 0xFF where any port may be named. -/
def portCode (d : Nat) (any : Bool) : Bool := decide (d < 48) || (decide (0x81 ≤ d) && decide (d ≤ 0x98)) || (any && d == 0xFF)

/-- Operation codes of R289. -/
def listedOps : List Nat :=
  [0x01, 0x02, 0x03, 0x04, 0x10, 0x11, 0x12, 0x13, 0x14, 0x15, 0x16, 0x17, 0x18, 0x19] ++
    [0x20, 0x21, 0x22, 0x23, 0x30, 0x31, 0x32, 0x40, 0x41, 0x42, 0xF0]

/-- A record that is not all zero holds a reserved encoding of its table. -/
def reservedIn (code : Nat) (r : Rec) : Bool :=
  r.val != 0 && (match code with
    | 0x01 => decide (7 ≤ r.kind) || r.bitsAt 3 0 2 == 3 || !portCode (r.at 2 1) true
    | 0x02 => decide (2 < r.at 4 1)
    | 0x03 => decide (8 < r.at 1 1) || r.at 8 1 == 0 || decide (32 < r.at 8 1)
    | 0x07 => decide (5 ≤ r.bitsAt 7 0 3)
    | 0x08 => decide (2 < r.at 3 1)
    | 0x09 => decide (4 ≤ r.sigQty)
    | 0x0B => decide (2 ≤ r.at 1 1)
    | 0x0C => decide (7 ≤ r.ruleKind) || r.bitsAt 1 4 2 == 3 || r.bitsAt 1 2 2 == 3
    | 0x0E => !portCode (r.at 1 1) false
    | 0x0F => r.capSource == 3
    | 0x10 => r.outRevMode == 3 || r.outAuth == 3 || !portCode r.outPort false
    | 0x12 => r.dirPrio == 0
    | 0x13 => !listedOps.contains r.nodeOp
    | _ => false)

/-- Reserved encodings of staged register fields. -/
def Cfg.reservedRegs (c : Cfg) : List Inc :=
  let f (blk : Nat) (x : Fld) (bad : Nat → Bool) : List Inc := fldInc blk 1 x (bad (c.fld x))
  let ports := (List.range 48).map (fun n =>
    f 0x04 (Reg.TB_PTP_PORT_ROLE n) (· == 3) ++ f 0x08 (Reg.PORT_CFG_HARN_ID n) (fun v => decide (25 ≤ v))
      ++ f 0x08 (Reg.PORT_CFG_HARN_KIND n) (· == 3) ++ f 0x08 (Reg.PORT_CFG_MODE n) (fun v => decide (6 ≤ v)))
  let tb := f 0x04 Reg.TB_CTL_PPS_OUT_MODE (· == 3) ++ f 0x04 Reg.TB_REF_SEC (fun v => decide (5 ≤ v))
    ++ f 0x04 Reg.TB_REF_PRI (fun v => decide (5 ≤ v)) ++ f 0x04 Reg.TB_PTP_CFG_PROFILE (fun v => decide (2 ≤ v))
    ++ f 0x04 Reg.TB_PPS_OUT_WIDTH_US (fun v => v == 0 || decide (500000 < v))
  let fsl := [0, 1].map (fun i => f 0x17 (Reg.FSL_CTL_PHY i) (· == 3) ++ f 0x17 (Reg.FSL_CTL_BO i) (· == 15))
  tb ++ ports.flatten ++ f 0x10 Reg.PHE_CTL_NCLU (fun v => decide (5 ≤ v)) ++ f 0x11 Reg.STCH_CTL_RATE (fun v => decide (12 ≤ v))
    ++ ((List.range 4).map (fun k => f 0x15 (Reg.CAP_TOUT_SRC k) (· == 3))).flatten
    ++ ((List.range 5).map (fun k => f 0x16 (Reg.PUB_KIND_REV_MODE k) (· == 3))).flatten
    ++ f 0x16 Reg.PUB_CTL_BACKLOG (· == 0) ++ f 0x16 (Reg.PUB_KIND_EVERY_N 0) (· == 0) ++ fsl.flatten
    ++ f 0x1A Reg.SAFE_CTL_PTEST_S (· == 0) ++ f 0x1B Reg.KEY_TAMP_CFG_FILT_US (· == 0)

/-- Reserved encodings and unaccepted versions of records (classes 0x01 and 0x04). -/
def Cfg.recordIncs (c : Cfg) : List Inc :=
  (tables.map (fun t =>
    recInc t.blk t.code 1 (c.listed t.code) (fun e => reservedIn t.code e.2)
      ++ recInc t.blk t.code 4 (c.listed t.code) (fun e => e.2.ver != 1))).flatten

/-! ### What several blocks ask -/

/-- The shape of each enabled entry that references may name. -/
abbrev Look := Nat → Option Shape

/-- The shape of an entry. -/
def Rec.shape (r : Rec) (e : Nat) : Shape := ⟨e, r.kind, r.at 42 1, r.at 43 1, r.at 44 1⟩

/-- The entries enabled in a configuration (R31), and in any member (R377). -/
def Cfg.look (c : Cfg) (members : List MemberShapes) : Look := fun e =>
  if (c.tab 1 e).on then some ((c.tab 1 e).shape e)
  else members.findSome? (fun m => m.shapes.find? (fun x => x.entry == e))

/-- An entry is enabled, and its shape is as asked. -/
def Look.ok (look : Look) (e : Nat) (p : Shape → Bool) : Bool := match look e with | some x => p x | none => false

/-- An enabled entry of KIND 1 to 4 has phasor `i`. -/
def Look.phasor (look : Look) (e i : Nat) : Bool :=
  look.ok e (fun x => decide (1 ≤ x.kind) && decide (x.kind ≤ 4) && decide (i < x.nphasor))

/-- A port, or a member of a Harness, is enabled. -/
def Cfg.portLive (c : Cfg) (d : Nat) : Bool := (c.destPorts d).any (fun p => c.fld (Reg.PORT_CFG_MODE p) != 0)

/-- The port, or the lowest-numbered member of the Harness, has a local address of the version asked. -/
def Cfg.localAddr (c : Cfg) (d : Nat) (v4 : Bool) : Bool :=
  match c.destPorts d with
  | p :: _ => (if v4 then c.fld (Reg.ING_LIP4_ADDR p) else c.fld (Reg.ING_LIP6_ADDR p)) != 0
  | [] => false

/-- No two elements are equal. -/
def allDistinct : List Nat → Bool
  | [] => true
  | a :: l => !l.contains a && allDistinct l

/-- Ranges (first, end) do not overlap. -/
def disjointRanges : List (Nat × Nat) → Bool
  | [] => true
  | a :: l => l.all (fun b => decide (a.2 ≤ b.1) || decide (b.2 ≤ a.1)) && disjointRanges l

/-- An FP32 pattern is greater than 0. -/
def fpPos (n : Nat) : Bool := fpLt 0 (BitVec.ofNat 32 n)

/-- An alarm output exists and is enabled. -/
def Cfg.outEnabled (c : Cfg) (o : Nat) : Bool := decide (o < 256) && c.fld (Reg.ISL_OUT_EN o) == 1

/-- Slot `i` holds a key of algorithm `alg`. -/
def State.slotHolds (s : State) (i alg : Nat) : Bool := (s.slot i).st == 1 && (s.slot i).alg == alg

/-- Slot `i` is VALID with a use bit. -/
def State.slotUse (s : State) (i use : Nat) : Bool := (s.slot i).st == 1 && bitOf (s.slot i).usage use

/-! ### TB and PORT (R56, R77) -/

/-- The checks of TB (R56). -/
def Cfg.checkTb (c : Cfg) : List Inc :=
  let pri := c.fld Reg.TB_REF_PRI
  let sec := c.fld Reg.TB_REF_SEC
  let role (n : Nat) := c.fld (Reg.TB_PTP_PORT_ROLE n)
  let slaves := filterBelow 48 (fun n => role n == 2)
  let harn (n : Nat) := c.fld (Reg.PORT_CFG_HARN_ID n)
  let prp (n : Nat) := c.fld (Reg.PORT_CFG_HARN_KIND n) == 1 && slaves == c.members (harn n)
  let log (f : Fld) : Bool := decide (-4 ≤ signed (c.fld f) 4) && decide (signed (c.fld f) 4 ≤ 0)
  chk 0x04 0 1 (pri != sec || pri == 0)
    ++ chk 0x04 0 2 (match slaves with | [] => true | [_] => true | [a, _] => prp a | _ => false)
    ++ chk 0x04 0 3 ((List.range 48).all (fun n => c.fld (Reg.PORT_CFG_MODE n) != 0 || role n == 0))
    ++ chk 0x04 0 4 ((pri != 1 && sec != 1) || !slaves.isEmpty)
    ++ chk 0x04 0 5 (log Reg.TB_PTP_CFG_LOG_SYNC && log Reg.TB_PTP_CFG_LOG_PDELAY)

/-- All members of a Harness agree in a field. -/
def Cfg.agree (c : Cfg) (l : List Nat) (f : Nat → Fld) : Bool :=
  match l with
  | [] => true
  | a :: l => l.all (fun n => c.fld (f n) == c.fld (f a))

/-- The checks of PORT (R77). -/
def Cfg.checkPort (c : Cfg) : List Inc :=
  let hs := (List.range 24).map (fun h => c.members (h + 1))
  let kind (l : List Nat) := match l with | [] => 0 | a :: _ => c.fld (Reg.PORT_CFG_HARN_KIND a)
  let all (p : Nat → Bool) : Bool := (List.range 48).all p
  let fld (f : Nat → Fld) (n : Nat) := c.fld (f n)
  chk 0x08 0 1 (hs.all (fun l => c.agree l Reg.PORT_CFG_MODE && c.agree l Reg.PORT_CFG_HARN_KIND
      && c.agree l Reg.PORT_CFG_MAX_FRAME && c.agree l Reg.PORT_PRP_AGE_MS))
    ++ chk 0x08 0 2 (hs.all (fun l => kind l != 1 || (match l with
      | [a, b] => fld Reg.PORT_CFG_LAN_ID a == 0 && fld Reg.PORT_CFG_LAN_ID b == 1
      | _ => false)))
    ++ chk 0x08 0 3 (hs.all (fun l => kind l != 2 || (decide (2 ≤ l.length) && decide (l.length ≤ 8))))
    ++ chk 0x08 0 4 (hs.all (fun l => l.all (fun n => fld Reg.PORT_CFG_MODE n != 0)))
    ++ chk 0x08 0 5 (decide (((List.range 48).map (fun n => fld Reg.PORT_RX_LIM_RX_LIMIT n + fld Reg.PORT_TX_LIM_TX_LIMIT n
      + fld Reg.PORT_TX_LIM_Q7_RES n)).sum ≤ 196608))
    ++ chk 0x08 0 6 (all (fun n => decide (64 ≤ fld Reg.PORT_CFG_MAX_FRAME n) && decide (fld Reg.PORT_CFG_MAX_FRAME n ≤ 9216)
      && decide (10 ≤ fld Reg.PORT_PRP_AGE_MS n) && decide (fld Reg.PORT_PRP_AGE_MS n ≤ 2000)))
    ++ chk 0x08 0 7 (all (fun n => fld Reg.PORT_CFG_MODE n == 0 || (fld Reg.PORT_MAC_MAC n != 0 && !bitOf (fld Reg.PORT_MAC_MAC n) 0)))
    ++ chk 0x08 0 8 (all (fun n => (List.range 8).all (fun k =>
      c.fld (Reg.PORT_WAKE_EN n k) == 0 || c.fld (Reg.PORT_WAKE_MASK n k) != 0)))
    ++ chk 0x08 0 9 (all (fun n => (fld Reg.PORT_CFG_HARN_ID n == 0) == (fld Reg.PORT_CFG_HARN_KIND n == 0)))

/-! ### ING (R10, R92) -/

/-- Bytes of a block in a C37.118.2 data frame. -/
def Rec.blockLen (r : Rec) : Nat :=
  let fmt := r.at 45 1
  2 + r.at 42 1 * (if bitOf fmt 1 then 8 else 4) + (if bitOf fmt 3 then 8 else 4) + r.at 43 1 * (if bitOf fmt 2 then 4 else 2)
    + 2 * r.at 44 1

/-- The entries of a head's first `n` blocks. -/
def Cfg.blocks (c : Cfg) (h n : Nat) : List Rec := (List.range n).map (fun k => c.tab 1 (h + k))

/-- Check 2 of R92 for a head. -/
def Cfg.headOk (c : Cfg) (h : Nat) (r : Rec) : Bool :=
  decide (r.at 46 1 ≤ r.at 55 1) && decide (r.at 55 1 ≤ 64) && (List.range (r.at 55 1)).all (fun k =>
    let b := c.tab 1 (h + k)
    k == 0 || (b.bitAt 0 5 && b.kind == r.kind && b.at 46 1 == k && b.at 40 2 == r.at 40 2 && b.bitsAt 48 0 17 == 0 && b.at 74 2 == 0))

/-- The scale records that an entry's range must cover. -/
def Cfg.scaleNeed (c : Cfg) (h : Nat) (r : Rec) : Nat :=
  if r.kind = 4 then r.at 54 1
  else if r.at 46 1 ≤ 1 then r.at 42 1 + r.at 43 1
  else ((c.blocks h (r.at 46 1)).map (fun b => b.at 42 1 + b.at 43 1)).sum

/-- The checks of ING: limits, references and R92. -/
def State.checkIng (s : State) (c : Cfg) : List Inc :=
  let en := c.entries
  let heads := en.filter (fun e => e.2.head)
  let of (k : Nat) : List (Nat × Rec) := heads.filter (fun e => e.2.kind == k)
  let sv : List Nat := (of 4).map (fun e => if e.2.at 40 2 = 14400 then 4 else if e.2.at 40 2 = 4000 ∨ e.2.at 40 2 = 4800 then 1 else 0)
  let key (r : Rec) : Nat := ((r.kind * 2 ^ 48 + r.at 8 6) * 2 ^ 128 + r.at 16 16) * 2 ^ 32 + r.at 14 2 * 2 ^ 16 + r.at 6 2
  let tcpOk (r : Rec) : Bool :=
    r.at 16 16 != 0 && r.at 14 2 != 0 && portCode (r.at 2 1) false && c.localAddr (r.at 2 1) r.outV4
  let gooseBits (r : Rec) : Nat := ((List.range 32).map (fun k => match r.gooseCode k with | 1 => 1 | 2 => 2 | _ => 0)).sum
  let timed := heads.filter (fun e => e.2.kind == 1 || e.2.kind == 2)
  recInc 0x0C 1 2 en (fun e => decide (32 < e.2.at 42 1) || decide (8 < e.2.at 43 1) || decide (4 < e.2.at 44 1)
      || (decide (1 ≤ e.2.kind) && decide (e.2.kind ≤ 3) && (e.2.at 40 2 == 0 || decide (240 < e.2.at 40 2))))
    ++ (if 1024 < sv.sum ∨ 4096 < (of 5).length ∨ 1024 < (of 2).length then [⟨0x0C, 1, 0, 2, false⟩] else [])
    ++ recInc 0x0C 1 3 heads (fun e => decide (1 ≤ e.2.kind) && decide (e.2.kind ≤ 5) && e.2.at 2 1 != 0xFF && !c.portLive (e.2.at 2 1))
    ++ chk 0x0C 1 1 (allDistinct (heads.map (fun e => key e.2)))
    ++ chk 0x0C 1 2 (heads.all (fun e => c.headOk e.1 e.2))
    ++ chk 0x0C 1 3 (timed.all (fun e => e.2.at 72 2 == 16 + ((c.blocks e.1 (e.2.at 46 1)).map Rec.blockLen).sum))
    ++ chk 0x0C 1 4 ((of 4).all (fun e => [4000, 4800, 14400].contains (e.2.at 40 2) && decide (1 ≤ e.2.bitsAt 45 0 4)
        && decide (e.2.bitsAt 45 0 4 ≤ 8) && decide (1 ≤ e.2.at 54 1) && decide (e.2.at 54 1 ≤ 24) && decide (e.2.at 52 2 < 1024))
      && allDistinct ((of 4).map (fun e => e.2.at 52 2)))
    ++ chk 0x0C 1 5 ((of 5).all (fun e => decide (gooseBits e.2 ≤ 16 * e.2.at 44 1)))
    ++ chk 0x0C 1 6 (heads.all (fun e => decide (e.2.bitsAt 48 0 17 + e.2.at 74 2 ≤ 131072) && decide (c.scaleNeed e.1 e.2 ≤ e.2.at 74 2))
      && disjointRanges ((heads.filter (fun e => e.2.at 74 2 != 0)).map (fun e =>
        (e.2.bitsAt 48 0 17, e.2.bitsAt 48 0 17 + e.2.at 74 2))))
    ++ chk 0x0C 1 7 (en.all (fun e => e.2.bitsAt 3 0 2 == 0 || (decide (1 ≤ e.2.kind) && decide (e.2.kind ≤ 3)
      && s.slotHolds (e.2.at 4 1) (e.2.bitsAt 3 0 2) && s.slotHolds (e.2.at 5 1) (e.2.bitsAt 3 0 2))))
    ++ chk 0x0C 1 8 ((of 2).all (fun e => tcpOk e.2))
    ++ chk 0x0C 1 9 ((en.filter (fun e => e.2.kind == 1 || e.2.kind == 2)).all (fun e => decide (1 ≤ e.2.at 60 4) && decide (e.2.at 60 4 ≤ 16777215)))
    ++ chk 0x0C 1 10 (en.all (fun e => decide (1 ≤ e.2.kind) && decide (e.2.kind ≤ 6)))

/-! ### PHE and STCH (R129, R153) -/

/-- The checks of PHE (R129). -/
def Cfg.checkPhe (c : Cfg) : List Inc :=
  let chans := c.pheChannels
  let sv := c.entries.filter (fun e => e.2.kind == 4)
  let ent (r : Rec) : Rec := c.tab 1 (r.at 6 2)
  let groups (r : Rec) : List Nat :=
    (List.range (min 32 (r.at 8 1))).filterMap (fun k => if r.bitsAt (40 + k) 6 2 = 0 then none else some (r.bitsAt (40 + k) 0 5))
      ++ (if r.bitAt 2 7 then [] else [r.bitsAt 2 0 5])
  let used (r : Rec) : List Nat :=
    ((List.range (min 8 (r.at 1 1))).map r.pheGroup).flatten ++ (List.range (min 32 (r.at 8 1))).filterMap (fun k =>
      if r.bitsAt (40 + k) 6 2 = 0 then some (r.bitsAt (40 + k) 0 5) else none) ++ (if r.bitAt 2 7 then [r.bitsAt 2 0 5] else [])
  let nclu := c.fld Reg.PHE_CTL_NCLU
  let wait := c.fld Reg.PHE_CTL_WAIT_US
  chk 0x10 1 1 (sv.all (fun e => (c.tab 3 (e.2.at 52 2)).pheOn && (c.tab 3 (e.2.at 52 2)).at 6 2 == e.1)
      && chans.all (fun x => (sv.filter (fun e => e.2.at 52 2 == x.1)).length == 1))
    ++ chk 0x10 1 2 (chans.all (fun x => x.2.at 8 1 == (ent x.2).at 42 1 && (ent x.2).at 43 1 == 0 && (ent x.2).at 44 1 == 0))
    ++ chk 0x10 1 3 (chans.all (fun x => (used x.2).all (fun k => decide (k < (ent x.2).at 54 1))
      && (groups x.2).all (fun g => decide (g < x.2.at 1 1))))
    ++ chk 0x10 1 4 (chans.all (fun x => !x.2.bitAt 0 6 || decide (c.fs ≤ 2 * (ent x.2).fnom)))
    ++ chk 0x10 1 5 (chans.all (fun x => decide (x.2.at 3 1 ≤ 8)
      && decide (x.2.at 4 2 ≤ windowLength (x.2.bitAt 0 6) ((ent x.2).at 40 2) (ent x.2).fnom c.fs / 8)))
    ++ chk 0x10 3 6 (chans.isEmpty || (nclu != 0 && (c.fld Reg.PHE_CTL_DUAL == 0 || nclu == 2 || nclu == 4)))
    ++ chk 0x10 1 7 (decide ((chans.map (fun x => c.pheLoad x.2)).sum ≤ 1500000000 * c.pheClusters))
    ++ chk 0x10 0 8 (decide (50 ≤ wait) && decide (wait ≤ 20000))

/-- A decimation record is one that R153 accepts. -/
def Rec.decimOk (d : Rec) : Bool :=
  let nt := d.at 5 1
  let h (j : Nat) : Fp := fpDecode (d.decimH j)
  let sum := (List.range d.decimK).foldl (fun acc j => acc.add ((h (j + 1)).mul (.fin false 2 0))) (h 0)
  let ten4 (x : Fp) : Fp := x.mul (.fin false 10000 0)
  let zero : Bool := (List.range 64).all (fun j => decide (j ≤ d.decimK) || d.at (16 + 4 * j) 4 == 0)
  nt % 2 == 1 && decide (3 ≤ nt) && decide (nt ≤ 127) && zero && d.at 2 2 != 0 && d.at 0 2 % d.at 2 2 == 0
    && decide (2 * d.at 2 2 ≤ d.at 0 2) && sum != .nan
    && !(ten4 sum).lt (.fin false 9999 0) && !(Fp.fin false 10001 0).lt (ten4 sum)

/-- The checks of STCH (R153). -/
def Cfg.checkStch (c : Cfg) : List Inc :=
  let en := c.entries
  let fs := c.fs
  let dec := en.filter (fun e => e.2.treat fs == .decimated)
  let horizon := c.fld Reg.STCH_CTL_HORIZON_MS
  let gather := c.fld Reg.STCH_CTL2_REV_GATHER_US
  let size := c.fld Reg.STCH_STORE_SIZE_64M
  chk 0x11 0 1 (decide (c.fld Reg.STCH_CTL_RATE ≤ 11))
    ++ chk 0x11 1 2 (en.all (fun e => e.2.kind == 0 || decide (4 ≤ e.2.kind)
      || (e.2.at 40 2 != 0 && (fs % e.2.at 40 2 == 0 || e.2.at 40 2 % fs == 0))))
    ++ chk 0x11 1 3 (dec.all (fun e => (c.decimRec e.2).isSome))
    ++ chk 0x11 1 4 (dec.all (fun e => match c.decimRec e.2 with | some d => d.decimOk | none => true))
    ++ chk 0x11 1 5 (en.all (fun e =>
      let w := c.fld (Reg.STCH_CLASS_WAIT_US e.2.cls)
      decide (1000 ≤ w) && decide (w ≤ 2000000)))
    ++ chk 0x11 0 6 (decide (horizon ≤ 30000))
    ++ chk 0x11 0 7 (decide (50 ≤ gather) && decide (gather ≤ 100000))
    ++ chk 0x11 1 8 (decide (1 ≤ size) && decide (size ≤ 256)
      && decide (c.sliceLength * fs * (horizon + 2000) ≤ size * 2 ^ 26 * 1000))

/-! ### LSE and OSC (R10, R175, R201) -/

/-- The checks of LSE: the limit of R10, references and R175. -/
def Cfg.checkLse (c : Cfg) (look : Look) : List Inc :=
  let node (n : Nat) : Bool := (c.tab 5 n).nodeOn
  let sourced (r : Rec) : Bool := decide (2 ≤ r.bitsAt 7 0 3) && decide (r.bitsAt 7 0 3 ≤ 4)
  let swEntry (r : Rec) : Bool := !sourced r || look.ok (r.at 4 2) (fun x =>
    x.kind != 4 && decide (1 ≤ x.kind) && decide (x.kind ≤ 6) && decide (r.bitsAt 6 4 2 < x.ndigital))
  let obj (r : Rec) : Bool := if r.at 3 1 = 0 then node (r.at 4 2) else (c.tab 6 (r.at 4 2)).branchOn
  let ctl (f : Fld) := c.fld f
  (if c.fld Reg.LSE_CTL_EN = 1 ∧ 6144 < c.nodes.length ∧ 120 < c.fs then [⟨0x12, 5, 0, 2, false⟩] else [])
    ++ recInc 0x12 7 3 c.switches (fun e => sourced e.2 && (look (e.2.at 4 2)).isNone) true
    ++ recInc 0x12 8 3 c.meas (fun e => (look (e.2.at 0 2)).isNone) true
    ++ chk 0x12 5 1 (c.branches.all (fun e => node (e.2.at 0 2) && node (e.2.at 2 2) && e.2.at 0 2 != e.2.at 2 2
      && fpPos (e.2.at 20 4) && !(fpZero (BitVec.ofNat 32 (e.2.at 8 4)) && fpZero (BitVec.ofNat 32 (e.2.at 12 4)))))
    ++ chk 0x12 1 2 (c.switches.all (fun e => node (e.2.at 0 2)
      && (e.2.at 2 2 == 0xFFFF || (node (e.2.at 2 2) && e.2.at 2 2 != e.2.at 0 2))
      && (e.2.bitsAt 7 0 3 != 4 || decide (e.2.bitsAt 6 0 4 ≤ 14))))
    ++ chkE 0x12 1 2 (c.switches.all (fun e => swEntry e.2))
    ++ chk 0x12 1 3 (c.meas.all (fun e => obj e.2 && fpPos (e.2.at 8 4)))
    ++ chkE 0x12 1 3 (c.meas.all (fun e => look.phasor (e.2.at 0 2) (e.2.at 2 1)))
    ++ chk 0x12 5 4 ((c.listed 5).all (fun e => fpPos (e.2.at 8 4) == e.2.bitAt 12 0))
    ++ chk 0x12 0 5 (decide (ctl Reg.LSE_CTL_MISS_LR ≤ 48) && decide (ctl Reg.LSE_CTL_BD_MAX ≤ 16)
      && decide (1 ≤ ctl Reg.LSE_CTL2_PERSIST_N) && decide (200 ≤ ctl Reg.LSE_CTL2_BD_THRESH))

/-- The lower and upper edge of a band in hundredths of a hertz (R182). -/
def bandRange (band : Nat) : Nat × Nat := ([(1, 10), (10, 100), (100, 500), (500, 4500)][band]?).getD (1, 10)

/-- A pattern's value times 100 is at least `n`, or at most `n`. -/
def fpHundredths (v : Nat) (n : Nat) : Bool × Bool :=
  let x := (fpDecode (BitVec.ofNat 32 v)).mul (.fin false 100 0)
  (x != .nan && !x.lt (.fin false n 0), x != .nan && !(Fp.fin false n 0).lt x)

/-- The checks of OSC for set `n`. -/
def Cfg.checkSet (c : Cfg) (look : Look) (n : Nat) : List Inc :=
  let band := c.oscBand n
  let nm := c.fld (Reg.OSC_SET_A_NMODE n)
  let oi := c.fld (Reg.OSC_SET_A_ORDER_I n)
  let win := c.fld (Reg.OSC_SET_B_WIN_S n)
  let recs := c.oscRecords n
  let ins := c.oscInputs n
  let refs := (ins.filter (fun e => e.2.sigRef)).length
  let rate := c.oscRate n
  let bandOk := (band != 2 || decide (20 ≤ c.fs)) && (band != 3 || c.fs == 240)
  let angles := (recs.filter (fun e => e.2.sigAngleRef)).length
  let needAngle := ins.any (fun e => e.2.sigQty == 0) || !(c.oscDefs n).isEmpty
  let fast (e : Nat) : Bool := let r := c.tab 1 e; r.kind == 4 || decide (rate ≤ r.at 40 2)
  let local_ (e : Nat) : Bool := (c.tab 1 e).on
  (if 24 < nm then [⟨0x13, 0, (Reg.OSC_SET_A_NMODE n).key / 32 - 0x13 * 2 ^ 14, 2, false⟩] else [])
    ++ chk 0x13 9 1 (bandOk && decide (1 ≤ nm) && decide (nm ≤ 24) && decide (4 ≤ oi) && decide (oi ≤ 64)
      && decide (2 * nm + 8 ≤ oi * refs))
    ++ chk 0x13 0 2 (decide (10 ≤ win) && decide (win ≤ 3600) && decide (20 * oi ≤ win * rate) && decide (win * rate ≤ 144000)
      && decide (c.fld (Reg.OSC_SET_B_FO_WIN_S n) ≤ win)
      && decide (c.fld (Reg.OSC_SET_C_DEF_WIN_S n) ≤ c.fld (Reg.OSC_SET_B_FO_WIN_S n)))
    ++ chk 0x13 9 4 (decide (1 ≤ ins.length) && decide (ins.length ≤ 256) && decide (1 ≤ refs) && decide (refs ≤ 8)
      && (!needAngle || angles == 1))
    ++ chkE 0x13 1 5 (ins.all (fun e => (!local_ (e.2.at 0 2) && (look (e.2.at 0 2)).isSome)
      || (fast (e.2.at 0 2) && (band != 3 || (c.tab 1 (e.2.at 0 2)).treat c.fs == .direct))))

/-- The checks of OSC (R201). -/
def Cfg.checkOsc (c : Cfg) (look : Look) : List Inc :=
  let setOn (n : Nat) : Bool := decide (n < 16) && c.fld (Reg.OSC_SET_A_EN n) == 1
  let sets := filterBelow 16 setOn
  let sigs := (c.listed 9).filter (fun e => e.2.sigOn)
  let defs := (c.listed 10).filter (fun e => e.2.bitAt 8 7)
  let alms := (c.listed 11).filter (fun e => e.2.bitAt 2 7)
  let idx (r : Rec) : Bool := look.ok (r.at 0 2) (fun x => decide (1 ≤ x.kind) && decide (x.kind ≤ 4) && (match r.sigQty with
    | 0 => decide (r.sigIdx < x.nphasor) | 1 => decide (r.sigIdx < x.nphasor) | 3 => decide (r.sigIdx < x.nanalog) | _ => true))
  let almOk (r : Rec) : Bool :=
    let n := r.at 0 1
    let (lo, hi) := bandRange (c.oscBand n)
    setOn n && fpLt (BitVec.ofNat 32 (r.at 4 4)) (BitVec.ofNat 32 (r.at 8 4)) && (fpHundredths (r.at 4 4) lo).1
      && (fpHundredths (r.at 8 4) hi).2 && [25, 50, 75, 100].contains (r.at 3 1) && r.at 24 1 != 0 && r.at 25 1 != 0
      && decide (r.at 26 2 < 256)
  (sets.map (c.checkSet look)).flatten
    ++ recInc 0x13 9 3 sigs (fun e => (look (e.2.at 0 2)).isNone) true
    ++ recInc 0x13 10 3 defs (fun e => (look (e.2.at 0 2)).isNone || (look (e.2.at 4 2)).isNone) true
    ++ recInc 0x13 11 3 alms (fun e => !c.outEnabled (e.2.at 26 2))
    ++ chk 0x13 1 3 (sigs.all (fun e => setOn e.2.sigSet && fpPos (e.2.at 8 4)))
    ++ chkE 0x13 1 3 (sigs.all (fun e => idx e.2))
    ++ chk 0x13 9 4 (decide ((sets.map (fun n => (c.oscInputs n).length)).sum ≤ 2048))
    ++ chk 0x13 1 6 (defs.all (fun e => setOn (e.2.at 3 1)))
    ++ chkE 0x13 1 6 (defs.all (fun e => look.ok (e.2.at 0 2) (fun x => decide (e.2.at 2 1 < x.nphasor))
      && look.ok (e.2.at 4 2) (fun x => decide (e.2.at 6 1 < x.nphasor))))
    ++ chk 0x13 11 7 (alms.all (fun e => almOk e.2))
    ++ chk 0x13 0 8 (decide (1 ≤ c.fld Reg.OSC_CTL_MISS_RUN))

/-! ### ISL (R225) -/

/-- A name of 64 bytes is NUL-padded: nothing follows its first NUL. -/
def nulPadded (r : Rec) (off : Nat) : Bool :=
  let bs := (List.range 64).map (fun i => r.at (off + i) 1)
  (bs.dropWhile (· != 0)).all (· == 0)

/-- The checks of ISL (R225). -/
def Cfg.checkIsl (c : Cfg) (look : Look) : List Inc :=
  let rules := (c.listed 12).filter (fun e => e.2.ruleOn)
  let coh := (c.listed 13).filter (fun e => e.2.bitAt 3 7)
  let pubs := (c.listed 14).filter (fun e => e.2.bitAt 0 7)
  let alms := (c.listed 11).filter (fun e => e.2.bitAt 2 7)
  let meas := rules.filter (fun e => decide (e.2.ruleKind ≤ 3))
  let nodeOk (n : Nat) : Bool := n == 0xFFFF || (c.tab 5 n).nodeOn
  let fp (r : Rec) (off : Nat) : Fp := fpDecode (BitVec.ofNat 32 (r.at off 4))
  let selA (r : Rec) : Bool := look.ok (r.at 4 2) (fun x => decide (1 ≤ x.kind) && decide (x.kind ≤ 4)
    && (if r.bitAt 6 7 then decide (r.bitsAt 6 0 5 < x.nanalog) else decide (r.bitsAt 6 0 5 < x.nphasor)))
  let selB (r : Rec) : Bool := r.ruleKind != 1 || look.phasor (r.at 8 2) (r.bitsAt 10 0 5)
  let span (n : Nat) : Bool := decide (1 ≤ n) && decide (n ≤ 32)
  let win := c.fld Reg.ISL_COH_A_CLU_WIN
  let min_ := c.fld Reg.ISL_TOPO_MIN_NODES
  let outs := filterBelow 256 (fun o => c.fld (Reg.ISL_OUT_EN o) == 1)
  recInc 0x14 12 3 meas (fun e => (look (e.2.at 4 2)).isNone || (e.2.ruleKind == 1 && (look (e.2.at 8 2)).isNone)) true
    ++ recInc 0x14 12 3 rules (fun e => !c.outEnabled (e.2.at 2 2))
    ++ recInc 0x14 13 3 coh (fun e => (look (e.2.at 0 2)).isNone) true
    ++ recInc 0x14 14 3 pubs (fun e => !c.portLive (e.2.at 1 1))
    ++ chk 0x14 12 1 (rules.all (fun e => decide (e.2.ruleKind ≤ 6) && e.2.bitsAt 1 4 2 != 3 && e.2.bitsAt 1 2 2 != 3
      && span (e.2.at 7 1) && span (e.2.at 11 1) && c.outEnabled (e.2.at 2 2)))
    ++ chk 0x14 1 2 (meas.all (fun e => e.2.ruleKind != 1 || !e.2.bitAt 6 7))
    ++ chkE 0x14 1 2 (meas.all (fun e => selA e.2 && selB e.2))
    ++ chk 0x14 12 3 (meas.all (fun e => fp e.2 20 != .nan && !(fp e.2 20).lt (.fin false 0 0)
      && (e.2.bitsAt 1 4 2 != 2 || !((fp e.2 16).add (fp e.2 20).neg).lt ((fp e.2 12).add (fp e.2 20)))))
    ++ chk 0x14 5 4 (rules.all (fun e => (match e.2.ruleKind with
      | 4 => nodeOk (e.2.at 4 2) | 6 => nodeOk (e.2.at 4 2)
      | 5 => e.2.at 4 2 == 0xFFFF || (c.tab 13 (e.2.at 4 2)).bitAt 3 7
      | _ => true)))
    ++ chk 0x14 11 5 (rules.all (fun e => natOf e.2.ruleSafety == c.fld (Reg.ISL_OUT_SAFETY (e.2.at 2 2)))
      && alms.all (fun e => c.outEnabled (e.2.at 26 2) && c.fld (Reg.ISL_OUT_SAFETY (e.2.at 26 2)) == 0))
    ++ chk 0x14 0 6 (outs.all (fun o => c.fld (Reg.ISL_OUT_PIN_EN o) == 0 || (c.fld (Reg.ISL_PIN_EN (c.fld (Reg.ISL_OUT_PIN o))) == 1
      && c.fld (Reg.ISL_PIN_SAFETY (c.fld (Reg.ISL_OUT_PIN o))) == c.fld (Reg.ISL_OUT_SAFETY o))))
    ++ chk 0x14 14 7 (pubs.all (fun e => c.portLive (e.2.at 1 1) && e.2.bitAt 4 0 && decide (100 ≤ e.2.at 16 2)
      && decide (e.2.at 16 2 ≤ 10000) && nulPadded e.2 20 && nulPadded e.2 84 && nulPadded e.2 148))
    ++ chk 0x14 1 8 (coh.all (fun e => nodeOk (e.2.at 4 2)) && (c.fld Reg.ISL_CTL_COH_EN == 0 ||
      ((c.tab 13 (c.fld Reg.ISL_COH_A_REF_SIG)).bitAt 3 7 && decide (10 ≤ win) && decide (win ≤ 1200)
        && span (c.fld Reg.ISL_COH_C_N_ISL) && decide (1 ≤ c.fld Reg.ISL_COH_A_MIN_SIG))))
    ++ chkE 0x14 1 8 (coh.all (fun e => look.phasor (e.2.at 0 2) (e.2.at 2 1)))
    ++ chk 0x14 5 9 (c.fld Reg.ISL_CTL_TOPO_EN == 0 || ((c.tab 5 (c.fld Reg.ISL_TOPO_MAIN_NODE)).nodeOn
      && decide (1 ≤ min_) && decide (min_ ≤ 12288)))

/-! ### CAP and PUB (R243, R251, R264) -/

/-- The live rate B of a capture channel, in bytes per second (R243). -/
def Cfg.capLive (c : Cfg) (r : Rec) : Nat :=
  match r.capSource with
  | 0 => c.sliceLength * c.fs
  | 1 => ((c.listed 1).map (fun e =>
      if e.2.on && e.2.kind == 4 && r.bitAt 64 (e.2.at 52 2) then e.2.at 40 2 * (24 + 8 * e.2.at 54 1) else 0)).sum
  | _ => ((List.range 48).map (fun n => if r.bitAt 44 n then (match c.fld (Reg.PORT_CFG_MODE n) with
      | 1 => 125000000 | 2 => 125000000 | 3 => 312500000 | 0 => 0 | _ => 1250000000) else 0)).sum * 12 / 10

/-- COPY_MBS of a channel as the sum of R243 counts it. -/
def Rec.capShare (r : Rec) : Nat := if r.capOn && r.capGuar then r.at 40 4 else 0

/-- The admission check of a GUARANTEED channel (R243) against the active configuration `old`. -/
def Cfg.admitted (c old : Cfg) (r : Rec) : Bool :=
  let b := c.capLive r
  let copy := r.at 40 4 * 1000000
  let sum := ((List.range 8).map (fun k => max (c.tab 15 k).capShare (old.tab 15 k).capShare)).sum
  decide ((if r.capSource = 2 then b else 4 * b) ≤ copy) && decide (c.capWorst r ≤ r.capBuf)
    && (r.capSource != 0 || decide (b * (c.fld Reg.STCH_CTL_HORIZON_MS + r.at 20 4 + 2000)
      ≤ c.fld Reg.STCH_STORE_SIZE_64M * 2 ^ 26 * 1000))
    && decide (sum * 100 ≤ 92 * c.fld Reg.CAP_CTL_RES_MBS)

/-- The checks of CAP (R243, R251). -/
def Cfg.checkCap (c old : Cfg) : List Inc :=
  let chans := (c.listed 15).filter (fun e => e.2.capOn)
  let slots (r : Rec) : List Nat := ((List.range 8).map (fun k => r.at (4 + 2 * k) 2)).filter (· != 0xFFFF)
  let lim (r : Rec) : Bool := decide (r.at 20 4 ≤ (if r.capSource = 0 then 32000 else 10000)) && decide (r.at 24 4 ≤ 60000)
    && (if r.capSource = 2 then r.at 28 2 == 0 && decide (64 ≤ r.at 38 2) && decide (r.at 38 2 ≤ 9216)
      else decide (r.at 28 2 ≤ 30000) && r.at 38 2 == 0)
    && decide (1 ≤ r.at 36 2) && decide (r.at 36 2 ≤ 96)
  let ports (r : Rec) : List Nat := if r.capSource = 2 then filterBelow 48 (r.bitAt 44) else []
  recInc 0x15 15 3 chans (fun e => (slots e.2).any (fun o => !c.outEnabled o) || (ports e.2).any (fun p => !c.portLive p))
    ++ recInc 0x15 15 5 chans (fun e => e.2.capGuar && !c.admitted old e.2)
    ++ chk 0x15 15 1 (chans.all (fun e => e.2.capSource != 3 && e.2.bitsAt 2 11 5 == 0 && (e.2.at 2 2 != 0 || !(slots e.2).isEmpty)))
    ++ chk 0x15 15 2 (chans.all (fun e => lim e.2) && decide ((chans.map (fun e => e.2.at 36 2)).sum ≤ 96))
    ++ chk 0x15 15 3 (chans.all (fun e => decide (2 ≤ e.2.capSource) || decide (e.2.at 28 2 ≤ c.fld Reg.STCH_CTL_HORIZON_MS)))
    ++ chk 0x15 15 4 (chans.all (fun e => (slots e.2).all c.outEnabled))
    ++ chk 0x15 3 5 (chans.all (fun e => (e.2.capSource != 1 || (filterBelow 1024 (e.2.bitAt 64)).all (fun j => (c.tab 3 j).pheOn))
      && (ports e.2).all c.portLive))
    ++ chk 0x15 15 6 ((List.range 8).all (fun n => (!chans.any (fun e => e.2.bitAt 2 n) || c.fld (Reg.CAP_TIN_EDGE n) != 0)
      && decide (c.fld (Reg.CAP_TIN_MIN_NS n) ≤ 1000)))
    ++ chk 0x15 0 7 (decide (c.fld Reg.CAP_CTL_RES_MBS ≤ 13600))

/-- The longest payload of an output's frame with its trailers (R256 to R258). -/
def Cfg.outPayload (c : Cfg) (look : Look) (r : Rec) : Nat :=
  let parts := r.selectors.map (fun x =>
    let sh := (look x.1).getD ((c.tab 1 x.1).shape x.1)
    (popCount 32 x.2.2, if bitOf x.2.1 0 then sh.nanalog else 0, if bitOf x.2.1 1 then sh.ndigital else 0))
  if r.out61850 then
    match parts with
    | (ph, an, dg) :: _ => spduLen (2 * ph + 2 + an) dg r.outAuth
    | [] => spduLen 2 0 r.outAuth
  else 16 + (parts.map (fun (ph, an, dg) => 2 + 8 * ph + 8 + 4 * an + 2 * dg)).sum + 8 + (if r.outAuth = 0 then 0 else 17)

/-- The checks of PUB (R264). -/
def State.checkPub (s : State) (c : Cfg) (look : Look) : List Inc :=
  let outs := (c.listed 16).filter (fun e => e.2.outOn)
  let pairs (p : Nat) : List Nat := (outs.filter (fun e => (c.destPorts e.2.outPort).contains p)).map (fun e =>
    e.2.outId * 2 ^ 16 + e.2.at 34 2)
  let kinds := filterBelow 5 (fun k => c.fld (Reg.PUB_KIND_EN k) == 1)
  recInc 0x16 16 3 outs (fun e => e.2.selectors.any (fun x => (look x.1).isNone)) true
    ++ recInc 0x16 16 3 outs (fun e => !c.portLive e.2.outPort)
    ++ chk 0x16 16 1 (outs.all (fun e => e.2.outRevMode != 3 && decide (1 ≤ e.2.at 2 1) && decide (e.2.at 2 1 ≤ 64)
      && e.2.at 6 2 != 0 && c.fs % e.2.at 6 2 == 0 && c.portLive e.2.outPort))
    ++ chkE 0x16 1 2 (outs.all (fun e => e.2.selectors.all (fun x => look.ok x.1 (fun sh => decide (x.2.2 < 2 ^ sh.nphasor)))))
    ++ chk 0x16 16 3 (outs.all (fun e => !e.2.out61850 || e.2.at 2 1 == 1))
    ++ chk 0x16 1 4 (outs.all (fun e => (c.destPorts e.2.outPort).all (fun p =>
      decide (udpLen e.2 (c.outPayload look e.2) ≤ c.fld (Reg.PORT_CFG_MAX_FRAME p)))))
    ++ chk 0x16 16 5 (outs.all (fun e => e.2.outAuth != 3 && (e.2.outAuth == 0 || s.slotHolds e.2.outKey e.2.outAuth)))
    ++ chk 0x16 16 6 (outs.all (fun e => e.2.at 16 16 != 0 && e.2.at 32 2 != 0 && c.localAddr e.2.outPort e.2.outV4)
      && (List.range 48).all (fun p => allDistinct (pairs p)))
    ++ chk 0x16 0 7 (kinds.all (fun k => s.rd (Reg.HIF_RING_CFG_KIND (c.fld (Reg.PUB_KIND_RING k))) == 3
      && c.fld (Reg.PUB_KIND_REV_MODE k) != 3
      && (k != 0 || (c.fld (Reg.PUB_KIND_EVERY_N 0) != 0 && c.fs % c.fld (Reg.PUB_KIND_EVERY_N 0) == 0))))

/-! ### FSL and SCHED (R285, R302, R309) -/

/-- Check 4 of R285: two records meet in a slot. -/
def slotClash (a b : Rec) : Bool :=
  a.senSlot == b.senSlot && a.at 16 1 % 2 ^ min a.senCycle b.senCycle == b.at 16 1 % 2 ^ min a.senCycle b.senCycle

/-- No two records of a list meet. -/
def noClash : List Rec → Bool
  | [] => true
  | a :: l => !l.any (slotClash a) && noClash l

/-- The checks of FSL (R285). -/
def State.checkFsl (s : State) (c : Cfg) : List Inc :=
  let ifs := [0, 1].filter (fun i => c.fld (Reg.FSL_CTL_EN i) == 1)
  let sens := (c.listed 17).filter (fun e => e.2.senOn)
  let on (i : Nat) := sens.filter (fun e => senIf e.1 == i)
  let short (i : Nat) := c.fld (Reg.FSL_ADDR_SHORT i)
  let chan (i : Nat) : Bool := c.fld (Reg.FSL_CTL_PHY i) != 0
    || (decide (11 ≤ c.fld (Reg.FSL_CTL_CHANNEL i)) && decide (c.fld (Reg.FSL_CTL_CHANNEL i) ≤ 26))
  let slot0 (i : Nat) : Nat := (c.fld (Reg.FSL_CTL_FINAL_CAP i) + 1) * c.fslBi i / 16
  let lvl (n : Nat) : Bool := decide (5 ≤ n) && decide (n ≤ 7)
  let k6 := c.entries.filter (fun e => e.2.kind == 6)
  let fields (r : Rec) : Bool := r.at 2 1 == 0xFF && r.at 8 6 == 0 && r.at 16 16 == 0 && r.at 14 2 == 0 && r.at 42 1 == 0
    && r.bitsAt 3 0 2 == 0 && r.at 60 4 == 0
  recInc 0x17 17 3 sens (fun e => !(c.tab 1 (e.2.at 10 2)).on)
    ++ chk 0x17 0 1 (ifs.all (fun i => decide (c.fld (Reg.FSL_CTL_PHY i) ≤ 2) && chan i && decide (c.fld (Reg.FSL_CTL_BO i) ≤ 14)
      && decide (short i < 0xFFFE) && s.slotHolds (c.fld (Reg.FSL_SEC_KEY_SLOT i)) 2))
    ++ chk 0x17 0 2 (ifs.all (fun i => decide (slot0 i + c.fld (Reg.FSL_SLOT_NSLOT i) * c.fld (Reg.FSL_SLOT_SLOT_US i) * 1000 ≤ c.fslBi i)
      && decide (1000 ≤ c.fld (Reg.FSL_SLOT_SLOT_US i)) && lvl (c.fld (Reg.FSL_SEC_BCN_LEVEL i))))
    ++ chk 0x17 17 3 ([0, 1].all (fun i => allDistinct ((on i).map (fun e => e.2.senShort)) && allDistinct ((on i).map (fun e => e.2.senExt)))
      && sens.all (fun e => e.2.senShort != short (senIf e.1) && lvl (e.2.at 13 1)
        && decide (e.2.senSlot < c.fld (Reg.FSL_SLOT_NSLOT (senIf e.1))) && decide (e.2.at 16 1 < 2 ^ e.2.senCycle)))
    ++ chk 0x17 17 4 ([0, 1].all (fun i => noClash ((on i).map (·.2))))
    ++ chk 0x17 1 5 (sens.all (fun e => let r := c.tab 1 (e.2.at 10 2); r.on && r.kind == 6 && r.at 6 2 == e.1 && fields r)
      && k6.all (fun e => (c.tab 17 (e.2.at 6 2)).senOn && (c.tab 17 (e.2.at 6 2)).at 10 2 == e.1))

/-- The number of inputs of an operation (R289). -/
def opInputs (op : Nat) : Nat :=
  if op = 0x01 ∨ op = 0x02 then 0
  else if op = 0x03 ∨ (0x10 ≤ op ∧ op ≤ 0x13) ∨ op = 0x15 then 2
  else if op = 0x42 then 3 else 1

/-- The lengths that R289 requires of a node: `a`, `b` and `c` are those of its inputs. -/
def nodeLenOk (r : Rec) (a b c : Nat) : Bool :=
  let len := r.nodeLen
  match r.nodeOp with
  | 0x01 => len == (if r.nodeP 1 < 32 then 2 else 1)
  | 0x02 => decide (1 ≤ len) && decide (len ≤ 4)
  | 0x03 => len == a + b
  | 0x04 => decide (1 ≤ len) && decide (r.nodeP 0 + len ≤ a)
  | 0x10 => len == a && (b == a || b == 1)
  | 0x11 => len == a && (b == a || b == 1)
  | 0x12 => len == a && (b == a || b == 1)
  | 0x13 => len == a && (b == a || b == 1)
  | 0x15 => len == a && a % 2 == 0 && b == a
  | 0x16 => len == a && a % 2 == 0
  | 0x17 => a % 2 == 0 && 2 * len == a
  | 0x18 => a % 2 == 0 && 2 * len == a
  | 0x20 => len == 1
  | 0x21 => len == 1
  | 0x22 => len == 1
  | 0x23 => len == 1
  | 0x42 => len == b && a == b && c == b
  | 0xF0 => len == 0
  | _ => len == a

/-- Node `k` is one that check 2 of R309 accepts. -/
def nodeOk (ns : List Rec) (k : Nat) : Bool :=
  match ns[k]? with
  | none => false
  | some r =>
    let len (i : Nat) : Nat := match ns[r.nodeIn i]? with | some x => if r.nodeIn i < k then x.nodeLen else 0 | none => 0
    listedOps.contains r.nodeOp
      && [0, 1, 2].all (fun i => if i < opInputs r.nodeOp then decide (r.nodeIn i < k) else r.nodeIn i == 0xFFFF)
      && (r.nodeOp == 0xF0 || (decide (1 ≤ r.nodeLen) && decide (r.nodeLen ≤ 256))) && nodeLenOk r (len 0) (len 1) (len 2)

/-- The field that a LOAD names exists in its entry. -/
def loadOk (look : Look) (r : Rec) : Bool :=
  let f := r.nodeP 1
  look.ok (r.nodeP 0) (fun x => if f < 32 then decide (f < x.nphasor) else if f ≤ 33 then true
    else if 40 ≤ f ∧ f ≤ 47 then decide (f - 40 < x.nanalog) else if 48 ≤ f ∧ f ≤ 51 then decide (f - 48 < x.ndigital) else false)

/-- The checks of SCHED: references, the engine budget (R302) and R309. -/
def Cfg.checkSched (c : Cfg) (look : Look) : List Inc :=
  let gs := c.graphs
  let loads := (gs.map (fun e => ((c.graphNodes e.2).zip (List.range e.2.dirNodes)).filterMap (fun x =>
    if x.1.nodeOp = 1 then some (e.2.dirFirst + x.2, x.1) else none))).flatten
  let outOk (ns : List Rec) (words : Nat) (r : Rec) : Bool :=
    decide (r.nodeP 0 + (match ns[r.nodeIn 0]? with | some x => x.nodeLen | none => 0) ≤ words)
  let free (r : Rec) (lo hi : Nat) : Bool := (List.range 16).any (fun k => decide (lo ≤ k) && decide (k < hi) && bitOf r.dirMask k
    && !c.pheReserved.contains k)
  let period (r : Rec) : Bool := if r.dirTimed then decide (1000 ≤ r.at 16 4) && 1000000 % r.at 16 4 == 0 else r.at 16 4 == 0
  let budget : List Inc := match c.placement with
    | .error 0xFFFF => [⟨0x18, 0, 0xFFFF, 6, false⟩]
    | .error g => [⟨0x18, 0x12, g, 6, false⟩]
    | .ok _ => []
  recInc 0x18 19 3 loads (fun e => (look (e.2.nodeP 0)).isNone) true ++ budget
    ++ chk 0x18 18 1 (gs.all (fun e => decide (1 ≤ e.2.dirNodes) && decide (e.2.dirNodes ≤ 512) && decide (e.2.dirFirst + e.2.dirNodes ≤ 8192))
      && disjointRanges (gs.map (fun e => (e.2.dirFirst, e.2.dirFirst + e.2.dirNodes))))
    ++ chk 0x18 18 2 (gs.all (fun e => (List.range e.2.dirNodes).all (nodeOk (c.graphNodes e.2))))
    ++ chkE 0x18 1 3 (loads.all (fun e => loadOk look e.2))
    ++ chk 0x18 18 4 (gs.all (fun e => period e.2 && (!e.2.dirTimed || !(c.graphNodes e.2).any (fun n => stateful n.nodeOp))))
    ++ chk 0x18 18 5 (gs.all (fun e =>
      let ns := c.graphNodes e.2
      let outs := ns.filter (fun n => n.nodeOp == 0xF0)
      decide (1 ≤ e.2.dirWords) && decide (e.2.dirWords ≤ 1024) && !outs.isEmpty && outs.all (outOk ns e.2.dirWords)))
    ++ chk 0x18 18 6 (gs.all (fun e => e.2.dirPrio != 0 && decide (10 ≤ e.2.at 12 4) && decide (e.2.at 12 4 ≤ 1000000) && free e.2 0 16
      && (!e.2.dirSafety || (free e.2 0 8 && free e.2 8 16))))
    ++ chk 0x18 0 7 (decide (c.fld Reg.SCHED_CTL_AFF_WAIT_NS ≤ 1000))

/-! ### HIF, SAFE, KEY and PWR (R337, R392, R411, R431) -/

/-- The checks of HIF (R337), on the ring configuration in force. -/
def State.checkHif (s : State) (c : Cfg) : List Inc :=
  let chans := (c.listed 15).filter (fun e => e.2.capOn)
  let ing := [(Reg.ING_RING_CFG_EN, Reg.ING_RING_CFG_RING), (Reg.ING_RING_UNM_EN, Reg.ING_RING_UNM_RING),
    (Reg.ING_RING_HDR_EN, Reg.ING_RING_HDR_RING)]
  let kinds := filterBelow 5 (fun k => c.fld (Reg.PUB_KIND_EN k) == 1)
  let on (k : Nat) : List Nat := filterBelow 64 (fun r => s.ringIs r k)
  let room (r : Nat) : Nat := 2 ^ s.rd (Reg.HIF_RING_CFG_BUF_LOG2 r) * (2 ^ s.rd (Reg.HIF_RING_CFG_SQ_LOG2 r) - 1)
  chk 0x01 15 1 (ing.all (fun p => c.fld p.1 == 0 || s.ringIs (c.fld p.2) 2) && kinds.all (fun k => s.ringIs (c.fld (Reg.PUB_KIND_RING k)) 3)
      && chans.all (fun e => s.ringIs (e.2.at 1 1) 4))
    ++ chk 0x01 0 2 ((List.range 4).all (fun q => !s.on (Reg.HIF_EVQ_EN q) || s.ringIs (s.rd (Reg.HIF_EVQ_RING q)) 5)
      && (List.range 256).all (fun e => !s.on (Reg.HIF_EVT_ROUTE_EN e) || s.on (Reg.HIF_EVQ_EN (s.rd (Reg.HIF_EVT_ROUTE_EVQ e)))))
    ++ chk 0x01 15 3 ((on 2).all (fun r => decide (9216 ≤ room r)) && (on 3).all (fun r => decide (2 ^ 22 ≤ room r))
      && chans.all (fun e => decide (e.2.capBuf ≤ room (e.2.at 1 1))))
    ++ chk 0x01 0 4 ((on 1).all (fun r => decide (s.rd (Reg.HIF_RING_CFG_SQ_LOG2 r) + 1 ≤ s.rd (Reg.HIF_RING_CFG_CQ_LOG2 r))))

/-- The checks of SAFE, KEY and PWR (R392, R411, R431). -/
def State.checkLast (s : State) (c : Cfg) : List Inc :=
  let mode := s.rd Reg.PAIR_CTL_MODE
  let lo := c.fld Reg.SAFE_WDT_CFG_WIN_LO_US
  let hi := c.fld Reg.SAFE_WDT_CFG_WIN_HI_US
  let pt := c.fld Reg.SAFE_CTL_PTEST_S
  let ft := c.fld Reg.KEY_TAMP_CFG_FILT_US
  let dr := c.fld Reg.PWR_CFG_DRAIN_MS
  let outs := (c.listed 16).filter (fun e => e.2.outOn && e.2.outAuth != 0)
  let auth := c.entries.filter (fun e => e.2.bitsAt 3 0 2 != 0)
  let wit := s.rd Reg.PAIR_WIT_KEY_SLOT
  let wake := (List.range 4).filterMap (fun w =>
    let b := bits (c.fld Reg.PWR_WAKE_PORT_SEL) (8 * w) 8
    if bitOf b 7 then some (b % 64) else none)
  let safePin := (List.range 16).any (fun p => c.fld (Reg.ISL_PIN_EN p) == 1 && c.fld (Reg.ISL_PIN_SAFETY p) == 1)
  chk 0x1A 1 1 (c.fld Reg.PHE_CTL_DUAL == 1 || !c.entries.any (fun e => e.2.kind == 4 && c.safetyFed e.1))
    ++ chk 0x1A 0 2 (decide (lo < hi) && decide (hi ≤ 2000) && decide (50 ≤ lo))
    ++ chk 0x1A 0 3 (decide (1 ≤ pt) && decide (pt ≤ 255))
    ++ chk 0x1A 0 4 (mode != 1 || !safePin || s.rd Reg.PAIR_WIT_HOLD_MAX_MS != 0)
    ++ chk 0x1B 1 1 (auth.all (fun e => s.slotUse (e.2.at 4 1) 0 && s.slotUse (e.2.at 5 1) 0))
    ++ chk 0x1B 16 2 (outs.all (fun e => s.slotUse e.2.outKey 1))
    ++ chk 0x1B 0 3 (([0, 1].filter (fun i => c.fld (Reg.FSL_CTL_EN i) == 1)).all (fun i => s.slotUse (c.fld (Reg.FSL_SEC_KEY_SLOT i)) 2))
    ++ chk 0x1B 0 4 ((mode != 1 && mode != 3) || (s.slotUse wit 3 && (s.slot wit).alg == 1))
    ++ chk 0x1B 0 5 (decide (1 ≤ ft) && decide (ft ≤ 255))
    ++ chk 0x1D 0 1 (wake.all (fun p => decide (p < 48) && c.fld (Reg.PORT_CFG_MODE p) != 0
      && (List.range 8).any (fun k => c.fld (Reg.PORT_WAKE_EN p k) == 1)))
    ++ chk 0x1D 0 2 (allDistinct wake)
    ++ chk 0x1D 0 3 (decide (1 ≤ dr) && decide (dr ≤ 200))

/-! ### The whole -/

/-- Every inconsistency of a staged configuration (R31). -/
def State.inconsistencies (s : State) (c : Cfg) (look : Look) : List Inc :=
  c.reservedRegs ++ c.recordIncs ++ s.checkHif c ++ c.checkTb ++ c.checkPort ++ s.checkIng c ++ c.checkPhe ++ c.checkStch
    ++ c.checkLse look ++ c.checkOsc look ++ c.checkIsl look ++ c.checkCap s.act ++ s.checkPub c look ++ s.checkFsl c
    ++ c.checkSched look ++ s.checkLast c

end Sys2Proof.Machine
end

