-- ==== Sys2Proof/Machine/Stage.lean ====
section
/-!
DEFINITION. Staging: TABLE_LOAD, staged words and what an Active forwards to its Belay (R24, R25, R38), and the staging of
firmware images (R433 to R440).
-/
namespace Sys2Proof.Machine
open Sys2Proof

/-! ### Commands behind a held CINCH (R329) -/

/-- A TABLE_LOAD, CINCH or UPDATE_STAGE dequeued while a CINCH is held is kept behind it; else it starts. -/
def State.queued (s : State) (i : Instr) (t : State) : Result :=
  if s.hif.heldCinch.isSome then .next { s with hif := { s.hif with behind := s.hif.behind ++ [i] } } else .next t

/-! ### Table images (R25, R88, R485) -/

/-- The format checks of R25: the table that an image of a length names, when they pass. -/
def TableImage.table? (i : TableImage) (len : Nat) : Option TableDesc :=
  match tableOf i.magic.toNat with
  | none => none
  | some t =>
    if i.recSize.toNat = t.recSize ∧ i.first.toNat + i.count.toNat ≤ t.count ∧ i.reserved = 0
        ∧ len = 64 + i.count.toNat * t.recSize ∧ crc32 i.crcBytes = i.crc.toNat then some t else none

/-- The reserved bits of a table's records, as first bit and number (R4). -/
def reservedBits (code : Nat) : List (Nat × Nat) :=
  match code with
  | 0x01 => [(11, 5), (26, 6), (8 * 48 + 17, 15), (8 * 76, 416)]
  | 0x02 => [(40, 24)]
  | 0x03 => [(0, 6), (21, 2), (72, 56), (1344, 704)] ++ (List.range 32).map (fun k => (8 * (40 + k) + 5, 1))
  | 0x04 => [(48, 80)]
  | 0x05 => [(97, 6), (104, 24)]
  | 0x06 => [(32, 7), (40, 24), (224, 32)]
  | 0x07 => [(59, 3), (64, 64)]
  | 0x08 => [(48, 7), (56, 8), (96, 32)]
  | 0x09 => [(32, 5), (40, 24), (96, 32)]
  | 0x0A => [(64, 7), (72, 56)]
  | 0x0B => [(16, 7), (224, 32)]
  | 0x0C => [(8, 2), (53, 2), (224, 32)]
  | 0x0D => [(24, 7), (48, 16)]
  | 0x0E => [(0, 7), (144, 16), (1696, 352)]
  | 0x0F => [(0, 1), (27, 5), (400, 16), (416, 96), (1536, 512)]
  | 0x10 => [(0, 1), (480, 32)] ++ (List.range 64).map (fun k => (8 * (64 + 8 * k) + 18, 14))
  | 0x11 => [(96, 7), (125, 3), (144, 16), (192, 64)]
  | 0x12 => [(2, 3), (8, 8), (80, 16), (160, 96)]
  | _ => [(8, 8), (80, 16), (224, 32)]

/-- A record's value as it is kept: reserved bits read 0 (R4). -/
def recordKept (code v : Nat) : Nat := (reservedBits code).foldl (fun v b => v - bits v b.1 b.2 * 2 ^ b.1) v

/-- The records of an image replace those of a copy, each with the image's VERSION. -/
def Cfg.load (c : Cfg) (code : Nat) (i : TableImage) : Cfg :=
  (i.records.take i.count.toNat).zipIdx.foldl (fun c (v, k) =>
    c.setTab code (i.first.toNat + k) ⟨i.version.toNat, recordKept code (v % 2 ^ (8 * i.recSize.toNat))⟩) c

/-- A TABLE_LOAD ends, with RESULT of R333. -/
def State.loadDone (s : State) (tag : Nat) (st : Status) (magic count : Nat) : State :=
  s.mgmtDone .tableLoad tag st (magic + 2 ^ 32 * count)

/-- TABLE_LOAD starts (R25, R30, R38): on an Active its completion waits for the Belay's acknowledgement.  The image goes on VC3, where
R359 puts table forwarding, and not on the control channel of R38: DESIGN CHOICE, notes/assumptions/25.md. -/
def State.tableLoad (s : State) (tag : BitVec 16) (len : BitVec 32) (image : TableImage) (addr : BitVec 48) (dma : Dma) : State :=
  let t := tag.toNat
  let magic := image.magic.toNat
  if s.belay then s.loadDone t .notPermitted 0 0
  else if s.glb.sealed then s.loadDone t .busy 0 0
  else if len.toNat < 64 ∨ 16 * 2 ^ 20 < len.toNat then s.loadDone t .invalid 0 0
  else
    let (ok, s) := s.cmdDma false 0 addr.toNat dma
    if !ok then s.loadDone t .xltFault 0 0 else
    match image.table? len.toNat with
    | none => s.loadDone t .invalid magic 0
    | some d =>
      let s := { s with shd := s.shd.load d.code image }
      if !s.forwards then s.loadDone t .ok magic image.count.toNat else
      let s := State.mgmtStart { s with glb := { s.glb with
        forwards := s.glb.forwards ++ [(t, magic, image.count.toNat)] } } .tableLoad t
      s.toPeer 3 (.tableForward (some tag) image)

/-- TABLE_LOAD (R25, R329, R334). -/
def execTableLoad (tag : BitVec 16) (len : BitVec 32) (image : TableImage) (addr : BitVec 48) (dma : Dma) (s : State) : Result :=
  s.served .tableLoad tag (s.queued (.tableLoad tag len image addr dma) (s.tableLoad tag len image addr dma))

/-- A forwarded TABLE_LOAD completes. -/
def State.forwardDone (s : State) (f : Nat × Nat × Nat) : State :=
  State.loadDone { s with glb := { s.glb with forwards := s.glb.forwards.erase f } } f.1 .ok f.2.1 f.2.2

/-- The partner is lost: no acknowledgement comes, and the images in the Active's own shadow complete. -/
def State.forwardsLost (s : State) : State := s.glb.forwards.foldl State.forwardDone s

/-- TABLE_FORWARD (R38): the Belay takes the image into its shadow and acknowledges it. -/
def execTableForward (tag : Option (BitVec 16)) (image : TableImage) (s : State) : Result :=
  when s.belay s (match tableOf image.magic.toNat with
    | none => s
    | some d => State.toPeer { s with shd := s.shd.load d.code image } 3 (.tableAck tag))

/-- TABLE_FORWARD_ACK (R38): the TABLE_LOAD of that TAG completes. -/
def execTableForwardAck (tag : Option (BitVec 16)) (s : State) : Result :=
  match tag with
  | none => .next s
  | some t =>
    match s.glb.forwards.find? (fun f => f.1 == t.toNat) with
    | some f => .next (s.forwardDone f)
    | none => .next s

/-! ### Staged words (R5, R24, R38) -/

/-- The value of a field after a write of the word at byte `a`: the bits that lie in the word are replaced. -/
def Fld.merge (f : Fld) (a old v : Nat) : Nat :=
  let lo := max f.key (8 * a)
  let hi := min (f.key + f.width) (8 * a + 32)
  setBits old (lo - f.key) (hi - lo) (v / 2 ^ (lo - 8 * a))

/-- A field has bits in the word at byte `a`. -/
def Fld.inWord (f : Fld) (a : Nat) : Bool := decide (f.key < 8 * a + 32) && decide (8 * a < f.key + f.width)

/-- The staged fields of a word take the value written to the word (R24). -/
def State.stageWord (s : State) (a v : Nat) : State :=
  ((fieldsAt a).filter (fun f => f.acc == .st && f.inWord a)).foldl (fun s f =>
    let w := f.merge a (s.shd.fld f) v
    -- bit 6 of each byte of PWR_WAKE_PORT.SEL is reserved (R4)
    let w := if f = Reg.PWR_WAKE_PORT_SEL then w &&& 0xBFBFBFBF else w
    let s : State := { s with shd := s.shd.setFld f w }
    if f = Reg.TB_CTL_FREF then { s with tb := { s.tb with frefWritten := true } } else s) s

/-- STAGED_WRITE_FORWARD (R38): the Belay takes a staged write of the Active. -/
def execStagedWriteForward (addr : BitVec 26) (value : BitVec 32) (s : State) : Result :=
  when s.belay s (s.stageWord addr.toNat value.toNat)

/-! ### Boot flash (R433, R434) -/

/-- UPD raises source `232 + k` (R448). -/
def State.updEvent (s : State) (k : Nat) : State := s.raise (232 + k)

/-- Result codes of spec/21. -/
def updResult (s : State) (code : Nat) : State := if code = 0 then s else s.wr Reg.UPD_STAT_LAST_RESULT code

/-- The slot that is not running (R437). -/
def State.otherSlot (s : State) : Nat := 1 - s.rd Reg.PWR_STAT_BOOT_SLOT

/-- The registers that show the directory (R449). -/
def State.dirShow (s : State) : State :=
  let d := s.upd.dir
  let o := s.otherSlot
  let st := if o = 0 then d.state0 else d.state1
  let s := s.wr Reg.UPD_STAT_ACTIVE_SLOT d.active
  let s := s.wr Reg.UPD_VER_STAGED_FW_VER (if st = 0 then 0 else if o = 0 then d.ver0 else d.ver1)
  let s := s.wrB Reg.UPD_CFG_STORE_PRESENT (d.store != 0xFF)
  let s := s.wr Reg.UPD_CFG_STORE_COPY (if d.store = 0xFF then 0 else d.store)
  s.wr Reg.UPD_CFG_STORE_STORE_VER (match kvGet? s.upd.stores d.store with | some c => if d.store = 0xFF then 0 else c.ver | none => 0)

/-- The 64 bytes of a directory record with its SEQ (R434). -/
def Directory.bytes (d : Directory) (seq : Nat) : List Byte :=
  let b := leBytes 4 0x52494455 ++ leBytes 4 seq ++ leBytes 1 d.active ++ leBytes 1 d.trial
    ++ leBytes 1 (natOf d.reqHost + 2 * natOf d.reqRun + 4 * natOf d.attempted) ++ leBytes 1 d.store ++ leBytes 1 d.state0
    ++ leBytes 1 d.state1 ++ leBytes 2 0 ++ leBytes 4 d.ver0 ++ leBytes 4 d.ver1 ++ List.replicate 36 0
  b ++ leBytes 4 (crc32 b)

/-- A directory write (R433, R434): to the copy not in use, with SEQ one higher. -/
def State.writeDir (s : State) (d : Directory) : State :=
  let s := s.emit (.norWrite (0x8000 * (1 - s.upd.copy)) (d.bytes ((s.upd.seq + 1) % 2 ^ 32)))
  State.dirShow { s with upd := { s.upd with dir := d, seq := (s.upd.seq + 1) % 2 ^ 32, copy := 1 - s.upd.copy } }

/-- A directory with the state and FW_VER of a slot replaced. -/
def Directory.slot (d : Directory) (slot st ver : Nat) : Directory :=
  if slot = 0 then { d with state0 := st, ver0 := ver } else { d with state1 := st, ver1 := ver }

/-! ### Staging (R436 to R439) -/

/-- The result of verification (R436), 0 when the image is verified. -/
def State.verify (s : State) (i : Image) : Nat :=
  if i.magic ≠ 0x4D495A56 ∨ i.fmt ≠ 1 ∨ i.hdrLen ≠ 256 ∨ i.reserved.any (fun b => b != 0) ∨ i.imgLen.toNat < 256
      ∨ 25165824 < i.imgLen.toNat ∨ i.received ≠ i.imgLen.toNat then 0x02
  else if i.part.toNat ≠ 2 ^ 16 * s.rd Reg.GLB_ID_PART + 2 ^ 12 * s.rd Reg.GLB_ID_STEP_MAJOR + 2 ^ 8 * s.rd Reg.GLB_ID_STEP_MINOR then 0x03
  else if 4 ≤ i.keyIdx.toNat ∨ bitOf s.key.revoked i.keyIdx.toNat then 0x04
  else if !i.sigOk then 0x05
  else if i.bodyHash ≠ i.bodySha then 0x06
  else if i.secVer.toNat < s.key.secVer then 0x07
  else 0

/-- UPDATE_STAGE ends, with RESULT of R437. -/
def State.stageDone (s : State) (tag : Nat) (st : Status) (code source ver : Nat) : State :=
  (updResult s code).mgmtDone .updateStage tag st (code + 2 ^ 8 * source + 2 ^ 32 * ver)

/-- A receive buffer takes a source (R437), which has one: a second staging from it while it is in use is turned away. -/
def State.source (s : State) (tag : BitVec 16) (source : Nat) (image : Option Image) (f : State → State) : State :=
  if s.upd.sources.any (fun x => x.source == source) then s.stageDone tag.toNat .busy 0 source 0
  else f (State.mgmtStart { s with upd := { s.upd with sources := s.upd.sources ++ [⟨source, tag.toNat, image⟩] } } .updateStage tag.toNat)

/-- STAGE starts: IMG_LEN bytes are read, as far as LEN goes. -/
def State.stageImage (s : State) (tag : BitVec 16) (len : BitVec 32) (addr : BitVec 48) (dma : Dma) (image : Image) : State :=
  let (ok, s) := s.cmdDma false 0 addr.toNat dma
  if !ok then s.stageDone tag.toNat .xltFault 0 0 0
  else s.source tag 0 (some { image with received := min len.toNat image.received }) id

/-- UPDATE_STAGE STAGE (R437). -/
def execUpdateStageStage (tag : BitVec 16) (len : BitVec 32) (addr : BitVec 48) (dma : Dma) (image : Image) (s : State) : Result :=
  s.served .updateStage tag (s.queued (.updateStageStage tag len addr dma image) (s.stageImage tag len addr dma image))

/-- PULL starts: from the pair partner, or from the time master of a team; a package without either is not permitted. -/
def State.pullImage (s : State) (tag : BitVec 16) : State :=
  let mode := s.rd Reg.PAIR_CTL_MODE
  let u := if mode = 1 then s.peer else s.rd Reg.PAIR_CTL_MASTER
  if !s.on Reg.PAIR_CTL_ENABLE || (mode != 1 && mode != 2) || u == 0 || u == s.unitId then s.stageDone tag.toNat .notPermitted 0 0 0
  else s.source tag u none (fun s => s.sendHjel u 3 .pullRequest)

/-- UPDATE_STAGE PULL (R437). -/
def execUpdateStagePull (tag : BitVec 16) (s : State) : Result :=
  s.served .updateStage tag (s.queued (.updateStagePull tag) (s.pullImage tag))

/-- PULL_REQUEST (R437): the running image leaves on VC3. -/
def execPullRequest (unit : Fin 16) (s : State) : Result :=
  match s.upd.run with
  | some i => .next (s.sendHjel unit 3 (.image i))
  | none => .next s

/-- A source that completes verification goes before another in the same cycle (R439). -/
def Staging.before (a b : Staging × Image) : Bool :=
  decide (b.2.fwVer.toNat < a.2.fwVer.toNat) || (a.2.fwVer == b.2.fwVer && decide (a.1.source < b.1.source))

/-- The slot write of the source that won starts. -/
def State.startWrite (s : State) (x : Staging) (i : Image) : State :=
  let s := { s with upd := { s.upd with writing := some { x with image := some i }, images := kvDel s.upd.images s.otherSlot } }
  ((s.wr Reg.UPD_STAT_STATE 1).wr Reg.UPD_STAT_SOURCE x.source).updEvent 0

/-- IMAGE_VERIFIED (R436, R438, R439): the verifications that end in one cycle, by source; a pulled image comes with its
source, and without one its transfer failed. -/
def execImageVerified (done : List (Fin 16 × Option Image)) (s : State) : Result :=
  let ended : List (Staging × Option Image) := done.filterMap (fun d =>
    (s.upd.sources.find? (fun x => x.source == d.1.val)).map (fun x => (x, if x.image.isSome then x.image else d.2)))
  let s := { s with upd := { s.upd with sources := s.upd.sources.filter (fun x => !ended.any (fun e => e.1.source == x.source)) } }
  let good : List (Staging × Image) := ended.filterMap (fun e => match e.2 with
    | some i => if s.verify i = 0 then some (e.1, i) else none
    | none => none)
  let s := ended.foldl (fun s e => match e.2 with
    | none => s.stageDone e.1.tag .degraded 0 e.1.source 0
    | some i =>
      let code := s.verify i
      if code = 0 then s else (s.stageDone e.1.tag .invalid code e.1.source i.fwVer.toNat).updEvent 1) s
  let idle := s.rd Reg.UPD_STAT_STATE == 0
  .next (good.foldl (fun s g =>
    if idle && good.all (fun o => o.1.source == g.1.source || Staging.before g o) then s.startWrite g.1 g.2
    else ((s.stageDone g.1.tag .busy 0x08 g.1.source g.2.fwVer.toNat).bump .upd C.UPD_REFUSED).updEvent 2) s)

/-- SLOT_WRITE_COMPLETE (R438): write and read-back compare equal, or differ. -/
def execSlotWriteComplete (equal : Bool) (s : State) : Result :=
  match s.upd.writing with
  | none => .next s
  | some x =>
    let o := s.otherSlot
    let s := { s with upd := { s.upd with writing := none } }
    match x.image, equal with
    | some i, true =>
      let s := State.writeDir { s with upd := { s.upd with images := kvSet s.upd.images o i } } (s.upd.dir.slot o 3 i.fwVer.toNat)
      .next (((s.wr Reg.UPD_STAT_STATE 2).bump .upd C.UPD_STAGED).stageDone x.tag .ok 0 x.source i.fwVer.toNat)
    | i, _ =>
      let s := (s.writeDir (s.upd.dir.slot o 0 0)).wr Reg.UPD_STAT_STATE 0
      .next (s.stageDone x.tag .degraded 0x09 x.source (match i with | some i => i.fwVer.toNat | none => 0))

/-- ABANDON starts: a staged or scheduled image is dropped; in any other state there is none. -/
def State.abandon (s : State) (tag : BitVec 16) : State :=
  let st := s.rd Reg.UPD_STAT_STATE
  if st ≠ 2 ∧ st ≠ 3 then s.stageDone tag.toNat .invalid 0 0 0 else
  let src := s.rd Reg.UPD_STAT_SOURCE
  let o := s.otherSlot
  let ver := match kvGet? s.upd.images o with | some i => i.fwVer.toNat | none => 0
  let s := { s with upd := { s.upd with act := none, images := kvDel s.upd.images o } }
  ((s.writeDir (s.upd.dir.slot o 0 0)).wr Reg.UPD_STAT_STATE 0).stageDone tag.toNat .ok 0x10 src ver

/-- UPDATE_STAGE ABANDON (R437, R438). -/
def execUpdateStageAbandon (tag : BitVec 16) (s : State) : Result :=
  s.served .updateStage tag (s.queued (.updateStageAbandon tag) (s.abandon tag))

/-- The store copy not in use (R437, R445). -/
def State.otherStore (s : State) : Nat := if s.upd.dir.store = 0 then 1 else 0

/-- SAVE_CFG starts: it writes the active configuration to the store copy not in use. -/
def State.saveCfg (s : State) (tag : BitVec 16) : State :=
  if s.rd Reg.UPD_STAT_STATE = 4 ∨ s.upd.saving.isSome then s.stageDone tag.toNat .busy 0 0 0 else
  let ver := match s.upd.run with | some i => i.cfgVer.toNat | none => 0
  State.mgmtStart { s with upd := { s.upd with
    saving := some (some tag.toNat, s.otherStore, ⟨ver, s.rd Reg.GLB_EPOCH_EPOCH, s.act⟩) } } .updateStage tag.toNat

/-- UPDATE_STAGE SAVE_CFG (R437, R439). -/
def execUpdateStageSaveCfg (tag : BitVec 16) (s : State) : Result :=
  s.served .updateStage tag (s.queued (.updateStageSaveCfg tag) (s.saveCfg tag))

/-- CFG_STORE_WRITTEN (R437, R443, R446): a store copy is written and reads back equal, or not.  SAVE_CFG makes it current and
completes; a migrated one sets CFG_MET and becomes current at the commit, at once outside a trial. -/
def execCfgStoreWritten (equal : Bool) (s : State) : Result :=
  match s.upd.saving with
  | none => .next s
  | some (tag, copy, content) =>
    let s := { s with upd := { s.upd with saving := none } }
    let s := if equal then { s with upd := { s.upd with stores := kvSet s.upd.stores copy content } }
      else { s with upd := { s.upd with stores := kvDel s.upd.stores copy } }
    match tag, equal with
    | some t, true => .next ((s.writeDir { s.upd.dir with store := copy }).stageDone t .ok 0 0 0)
    | some t, false => .next (s.stageDone t .degraded 0x09 0 0)
    | none, true =>
      if s.rd Reg.UPD_STAT_STATE = 4 then .next (s.wr Reg.UPD_TRIAL_CFG_MET 1)
      else .next (s.writeDir { s.upd.dir with store := copy })
    | none, false => .next s

/-! ### Activation (R440) -/

/-- A CINCH is held or pending in this package. -/
def State.cinching (s : State) : Bool :=
  s.hif.heldCinch.isSome || s.glb.cinch.isSome || s.glb.member.isSome

/-- The image in the slot not running. -/
def State.stagedImage (s : State) : Option Image := kvGet? s.upd.images s.otherSlot

/-- The staged image migrates the current store's version, or there is none (R440). -/
def State.cfgInRange (s : State) : Bool :=
  match s.stagedImage, kvGet? s.upd.stores s.upd.dir.store with
  | some i, some c => s.upd.dir.store == 0xFF || (decide (i.cfgMin.toNat ≤ c.ver) && decide (c.ver ≤ i.cfgVer.toNat))
  | _, _ => true

/-- An activation is scheduled (R438): event 235. -/
def State.scheduleAct (s : State) (t : Instant) (flags : Nat) : State :=
  let s := { s with upd := { s.upd with act := some (t, flags % 4) } }
  (((s.wr Reg.UPD_STAT_STATE 3).wrInstant Reg.UPD_ACT_TIME_S Reg.UPD_ACT_TIME_NS t)).updEvent 3

/-- ACTIVATE starts (R36, R37, R440): `team` for this unit and every partner or member. -/
def State.activate (s : State) (team : Bool) (tag : BitVec 16) (len : BitVec 32) (addr : BitVec 48) (dma : Dma) (flags : BitVec 8)
    (at_ : Nat) (grace : BitVec 16) : State :=
  let src := s.rd Reg.UPD_STAT_SOURCE
  let ver := match s.stagedImage with | some i => i.fwVer.toNat | none => 0
  let done (s : State) (st : Status) (code : Nat) : State := s.stageDone tag.toNat st code src ver
  let leads := s.on Reg.PAIR_CTL_ENABLE && s.rd Reg.PAIR_CTL_MODE != 0 && s.rd Reg.PAIR_CTL_MODE != 3 && s.coordinator
  if len.toNat < 64 then done s .invalid 0 else
  let (ok, s) := s.cmdDma false 0 addr.toNat dma
  if !ok then done s .xltFault 0
  else if s.rd Reg.UPD_STAT_STATE ≠ 2 then done s .invalid 0
  else if s.cinching || s.pwr.sleep.isSome then done s .busy 0
  else if !s.cfgInRange then done s .invalid 0x0A
  else if team && !leads then done s .notPermitted 0
  else
    let fs := s.act.fs
    match if at_ = 0 then some (s.now + 1000000, false) else s.scheduleAt at_ grace.toNat with
    | none => done s .past 0
    | some (due, late) =>
    let t := gridFrom fs due
    let units := if team then s.partners else []
    if units.isEmpty then done (s.scheduleAct t flags.toNat) (if late then .late else .ok) 0 else
    let meas : BitVec 256 := match s.stagedImage with | some i => i.measurement | none => 0
    let s := State.mgmtStart { s with upd := { s.upd with team := some ⟨tag.toNat, t, late, flags.toNat, units, s.now⟩ } } .updateStage tag.toNat
    s.toUnits units 0 (.activate meas t)

/-- UPDATE_STAGE ACTIVATE_TEAM (R440). -/
def execUpdateStageActivateTeam (tag : BitVec 16) (len : BitVec 32) (addr : BitVec 48) (dma : Dma) (flags : BitVec 8)
    (at_ : Nat) (grace : BitVec 16) (s : State) : Result :=
  s.served .updateStage tag
    (s.queued (.updateStageActivateTeam tag len addr dma flags at_ grace) (s.activate true tag len addr dma flags at_ grace))

/-- UPDATE_STAGE ACTIVATE_LOCAL (R440). -/
def execUpdateStageActivateLocal (tag : BitVec 16) (len : BitVec 32) (addr : BitVec 48) (dma : Dma) (flags : BitVec 8)
    (at_ : Nat) (grace : BitVec 16) (s : State) : Result :=
  s.served .updateStage tag
    (s.queued (.updateStageActivateLocal tag len addr dma flags at_ grace) (s.activate false tag len addr dma flags at_ grace))

/-- ACTIVATE_TEAM_MESSAGE (R440): ready only with the same image STAGED and the recipient's own checks passed; it then holds the
schedule on its own. -/
def execActivateTeamMessage (unit : Fin 16) (measurement : BitVec 256) (at_ : Nat) (s : State) : Result :=
  let same := match s.stagedImage with | some i => i.measurement == measurement | none => false
  let ready := s.rd Reg.UPD_STAT_STATE == 2 && same && !s.cinching && s.pwr.sleep.isNone && s.cfgInRange
  .next (State.sendHjel (if ready then s.scheduleAct at_ 0 else s) unit 0 (.activateAnswer ready))

/-- ACTIVATE_TEAM_ANSWER (R440): a refusal refuses the command; after the last ready answer the activation is scheduled. -/
def execActivateTeamAnswer (unit : Fin 16) (ready : Bool) (s : State) : Result :=
  match s.upd.team with
  | none => .next s
  | some a =>
    let src := s.rd Reg.UPD_STAT_SOURCE
    let ver := match s.stagedImage with | some i => i.fwVer.toNat | none => 0
    if !a.waiting.contains unit.val then .next s
    else if !ready then .next (State.stageDone { s with upd := { s.upd with team := none } } a.tag .invalid 0x0B src ver)
    else
      let left := a.waiting.filter (fun u => u != unit.val)
      if !left.isEmpty then .next { s with upd := { s.upd with team := some { a with waiting := left } } } else
      let s := State.scheduleAct { s with upd := { s.upd with team := none } } a.at_ a.flags
      .next (s.stageDone a.tag (if a.late then .late else .ok) 0 src ver)

/-- ACTIVATE_TEAM_TIMEOUT (R440): 20 ms without an answer. -/
def execActivateTeamTimeout (s : State) : Result :=
  match s.upd.team with
  | none => .next s
  | some a =>
    when (decide (a.sentAt + 20000000 ≤ s.now)) s
      (State.stageDone { s with upd := { s.upd with team := none } } a.tag .invalid 0x0B (s.rd Reg.UPD_STAT_SOURCE)
        (match s.stagedImage with | some i => i.fwVer.toNat | none => 0))

end Sys2Proof.Machine
end

