-- ==== Sys2Proof/Machine/Cinch.lean ====
section
/-!
DEFINITION. CINCH: acceptance, validation, the application boundary, and the three phases across a rope team (spec/02).
-/
namespace Sys2Proof.Machine
open Sys2Proof

/-! ### Small parts -/

/-- The epoch after `e` (R23). -/
def epochNext (e : Nat) : Nat := if e = 2 ^ 32 - 1 then 1 else e + 1

/-- RESULT of a CINCH (R333): the active epoch, and the boundary where it applied. -/
def State.cinchResult (s : State) (b : Option Instant) : Nat :=
  s.rd Reg.GLB_EPOCH_EPOCH + (match b with | some t => 2 ^ 32 * (t % nsPerS) + 2 ^ 64 * (t / nsPerS % 2 ^ 32) | none => 0)

/-- A CINCH completes: LAST_STATUS shows how. -/
def State.cinchDone (s : State) (tag : Nat) (st : Status) (b : Option Instant) : State :=
  (s.wr Reg.GLB_CINCH_STAT_LAST_STATUS st.code).mgmtDone .cinch tag st (s.cinchResult b)

/-- PENDING and EPOCH_PEND show the CINCH pending here, by target. -/
def State.showPending (s : State) (target : Option Nat) : State :=
  (s.wrB Reg.GLB_CINCH_STAT_PENDING target.isSome).wr Reg.GLB_EPOCH_PEND_TARGET (target.getD 0)

/-- The first inconsistency is recorded (R31). -/
def State.recordInc (s : State) (cls blk tab idx member : Nat) : State :=
  let s := (s.wr Reg.GLB_CINCH_STAT_REFUSE_CLASS cls).wr Reg.GLB_CINCH_STAT_REFUSE_BLOCK blk
  ((s.wr Reg.GLB_CINCH_INDEX_TABLE tab).wr Reg.GLB_CINCH_INDEX_MEMBER member).wr Reg.GLB_CINCH_INDEX_INDEX idx

/-- The shadow unseals and what was prepared for the CINCH is dropped. -/
def State.release (s : State) : State := s.lseAbandon.unseal.showPending none

/-- A configuration as bytes, for the digest of R39. -/
def Cfg.bytes (c : Cfg) : List Byte :=
  (c.regs.map (fun e => leBytes 4 e.1 ++ leBytes 8 e.2)).flatten
    ++ (c.tabs.map (fun e => leBytes 4 e.1 ++ leBytes 2 e.2.ver ++ leBytes 576 e.2.val)).flatten

/-- The digest of a configuration (R39). -/
def Cfg.digest (c : Cfg) : Nat := sha256 c.bytes

/-- The enabled-entry bitmap of a configuration, entry `e` in bit `e` (R39). -/
def Cfg.bitmap (c : Cfg) : Nat := (c.entries.map (fun e => 2 ^ e.1)).sum

/-- The shapes of the enabled entries, ascending (R377). -/
def Cfg.shapes (c : Cfg) : List (Nat × Nat × Nat × Nat) := c.entries.map (fun e => (e.2.kind, e.2.at 42 1, e.2.at 43 1, e.2.at 44 1))

/-- The shapes of a readiness answer by entry (R377). -/
def shapesOf (bitmap : Nat) (shapes : List (Nat × Nat × Nat × Nat)) : List Shape :=
  ((filterBelow 8192 (bitOf bitmap)).zip shapes).map (fun (e, k, p, a, d) => ⟨e, k, p, a, d⟩)

/-- The first inconsistency of the shadow (R31); references to enabled entries count only where `ents` holds (R377). -/
def State.firstRefusal (s : State) (look : Look) (ents : Bool) : Option Inc :=
  firstInc ((s.inconsistencies s.shd look).filter (fun i => ents || !i.ent))

/-- The coordinator takes references to enabled entries over the whole team (R377). -/
def State.teamLook (s : State) : Bool :=
  s.on Reg.PAIR_CTL_ENABLE && s.rd Reg.PAIR_CTL_MODE == 2 && s.on Reg.PAIR_CTL_TSLICE

/-! ### Acceptance (R28 to R30, R329) -/

/-- The commands kept behind a CINCH start in their order; a CINCH among them is held in turn, the rest behind it (R329). -/
def startBehind : List Instr → State → State
  | [], s => s
  | i :: l, s => match i with
    | .cinch .. => { s with hif := { s.hif with heldCinch := some (i, s.hif.running), behind := l } }
    | .tableLoad tag len image addr dma => startBehind l (s.tableLoad tag len image addr dma)
    | .updateStageStage tag len addr dma image => startBehind l (s.stageImage tag len addr dma image)
    | .updateStagePull tag => startBehind l (s.pullImage tag)
    | .updateStageActivateTeam tag len addr dma fl at_ gr => startBehind l (s.activate true tag len addr dma fl at_ gr)
    | .updateStageActivateLocal tag len addr dma fl at_ gr => startBehind l (s.activate false tag len addr dma fl at_ gr)
    | .updateStageAbandon tag => startBehind l (s.abandon tag)
    | .updateStageSaveCfg tag => startBehind l (s.saveCfg tag)
    | _ => startBehind l s

/-- The CINCH is no longer held: what stood behind it starts. -/
def State.behindStarts (s : State) : State := startBehind s.hif.behind { s with hif := { s.hif with behind := [] } }

/-- CINCH (R329): dequeued, it is held for every command in progress; CINCH_ACCEPT accepts or refuses it. -/
def execCinch (tag : BitVec 16) (target : BitVec 32) (timed : Bool) (effS : BitVec 48) (effNs : BitVec 32) (grace : BitVec 16)
    (s : State) : Result :=
  let i : Instr := .cinch tag target timed effS effNs grace
  s.served .cinch tag (s.queued i { s with hif := { s.hif with heldCinch := some (i, s.hif.running) } })

/-- The partner of an Active is in SYNC (R371). -/
def State.partnerSyncs (s : State) : Bool :=
  s.rd Reg.PAIR_STAT_STATE == 4 && s.on Reg.PAIR_STAT_PARTNER_OK
    && (match kvGet? s.pair.heard s.peer with | some (h, _) => h.state == 2 | none => false)

/-- The checks of R28 in their order: the status of the first that fails. -/
def State.cinchRefused (s : State) (target : Nat) (eff : Option Instant) (grace : Nat) : Option Status :=
  if !s.coordinator then some .notPermitted
  else if s.glb.cinch.isSome || s.glb.member.isSome || s.partnerSyncs then some .busy
  else if target ≠ epochNext (s.rd Reg.GLB_EPOCH_EPOCH) then some .invalid
  else match eff with
    | none => none
    | some t =>
      if s.now + 3600 * nsPerS < t then some .invalid
      else if (s.scheduleAt t grace).isNone then some .past
      else none

/-- A held CINCH with nothing left to wait for is accepted, which seals the shadow and starts validation, or is refused. -/
def State.acceptCinch (s : State) (tag target : Nat) (eff : Option Instant) (grace : Nat) : State :=
  match s.cinchRefused target eff grace with
  | some st => s.cinchDone tag st none
  | none =>
    let c : Cinch :=
      { tag, target, eff, grace, accepted := s.now, phase := .validating, boundary := 0, late := false, waiting := [], bitmaps := []
        alone := false, sentAt := 0 }
    let s := { s with glb := { s.glb with cinch := some c, sealed := true, aborted := none } }
    ((s.mgmtStart .cinch tag).showPending (some target)).lseAccept

/-- CINCH_ACCEPT (R28, R30, R329). -/
def execCinchAccept (s : State) : Result :=
  match s.hif.heldCinch with
  | some (.cinch tag target timed effS effNs grace, waits) =>
    if waits.any (fun w => s.hif.running.contains w) then .next s else
    let s := { s with hif := { s.hif with heldCinch := none } }
    let eff := if timed then some (instantOf effS.toNat effNs.toNat) else none
    .next (s.acceptCinch tag.toNat target.toNat eff grace.toNat).behindStarts
  | _ => .next s

/-! ### The boundary (R32) -/

/-- The CINCH in progress is replaced. -/
def State.setCinch (s : State) (c : Option Cinch) : State := { s with glb := { s.glb with cinch := c } }

/-- The CINCH ends without applying (R31, R39): nothing changes, and the shadow unseals. -/
def State.refuse (s : State) (c : Cinch) (st : Status) : State := ((s.setCinch none).release).cinchDone c.tag st none

/-- Slice instants at which the shadow may apply: whole seconds where it changes the slice rate. -/
def State.boundaryFrom (s : State) (t : Instant) : Instant :=
  if s.shd.fs = s.act.fs then gridFrom s.act.fs t else (t + nsPerS - 1) / nsPerS * nsPerS

/-- The application boundary that R32 gives now, and whether it is late. -/
def State.chooseBoundary (s : State) (c : Cinch) : Instant × Bool :=
  let soonest := s.boundaryFrom (s.now + 1000000)
  match c.eff with
  | none => (soonest, false)
  | some e =>
    let b := s.boundaryFrom e
    if c.accepted ≤ e ∧ s.now + 1000000 ≤ b then (b, false) else (soonest, true)

/-- A boundary falls at or after 10 ms before a scheduled activation (R441). -/
def State.meetsActivation (s : State) (b : Instant) : Bool :=
  match s.upd.act with | some (t, _) => decide (t ≤ b + 10000000) | none => false

/-- The members told of a CINCH. -/
def Cinch.units (c : Cinch) : List Nat := c.waiting ++ c.bitmaps.map (·.1)

/-- The coordinator aborts (R39): the decision goes to every member and is repeated until the boundary. -/
def State.abortTeam (s : State) (c : Cinch) : State :=
  State.toUnits { s with glb := { s.glb with aborted := some (c.target, c.boundary) } } c.units 0 .abort

/-- Validation, and every member's readiness, are complete: the commit leaves, or an activation too near refuses the CINCH. -/
def State.decideCinch (s : State) (c : Cinch) : State :=
  let (b, late) :=
    if c.phase = .preparing ∧ s.now + 1000000 ≤ c.boundary then (c.boundary, c.late) else s.chooseBoundary c
  if s.meetsActivation b then (s.abortTeam c).refuse c .busy else
  (s.setCinch (some { c with phase := .ready, boundary := b, late })).toUnits c.units 0 (.commit b)

/-- CINCH_VALIDATED (R31, R32, R39, R41): a refusal, the choice of the boundary, or the prepare messages.  An Active whose
partner is no Belay in contact goes on alone. -/
def execCinchValidated (s : State) : Result :=
  match s.glb.cinch with
  | none => .next s
  | some c =>
    if c.phase ≠ .validating then .next s else
    match s.firstRefusal (s.shd.look []) (!s.teamLook) with
    | some i => .next ((s.recordInc i.cls i.blk i.tab i.idx 0).refuse c .refusedInconsistent)
    | none =>
      let pair := s.pairMode
      let units := if pair then (if s.forwards then [s.peer] else [])
        else if s.on Reg.PAIR_CTL_ENABLE && s.rd Reg.PAIR_CTL_MODE == 2 then s.partners else []
      let c := { c with alone := pair && units.isEmpty }
      if units.isEmpty then .next (s.decideCinch c) else
      let (b, late) := s.chooseBoundary c
      if s.meetsActivation b then .next (s.refuse c .busy) else
      let s := s.setCinch (some { c with phase := .preparing, boundary := b, late, waiting := units, sentAt := s.now })
      .next (s.toUnits units 0 (.prepare c.target b (if pair then some s.shd.digest else none)))

/-- The boundary of a CINCH whose members are not all ready at its 1 ms margin moves under R32, and every member is told. -/
def State.moveBoundary (s : State) : State :=
  match s.glb.cinch with
  | some c =>
    if c.phase = .preparing ∧ c.boundary < s.now + 1000000 then
      let (b, late) := s.chooseBoundary c
      (s.setCinch (some { c with boundary := b, late })).toUnits c.units 0
        (.prepare c.target b (if s.pairMode then some s.shd.digest else none))
    else s
  | none => s

/-- CINCH_READY_ANSWER (R31, R39, R377): a refusal or, in a larger team, overlapping entries end the CINCH; after the last ready answer,
references over the team are checked and the CINCH is decided.  REFUSE_BLOCK for class 0x0A (0) and MEMBER where the coordinator's
own check over the team fails (its own UNIT_ID) are the model's choice: DESIGN CHOICE, notes/assumptions/25.md. -/
def execCinchReadyAnswer (unit : Fin 16) (ready : Bool) (bitmap : Nat) (shapes : List (Nat × Nat × Nat × Nat)) (s : State) : Result :=
  match s.glb.cinch with
  | none => .next s
  | some c =>
    let u := unit.val
    if c.phase ≠ .preparing ∨ !c.waiting.contains u then .next s
    else if !ready then .next (((s.recordInc 0x0A 0 0 0 u).abortTeam c).refuse c .refusedInconsistent)
    else
      let team := !s.pairMode
      let clash := if team then filterBelow 8192 (fun e => bitOf bitmap e
        && (bitOf s.shd.bitmap e || c.bitmaps.any (fun m => bitOf m.2 e))) else []
      match clash with
      | e :: _ => .next (((s.recordInc 0x08 0x0C 1 e u).abortTeam c).refuse c .refusedInconsistent)
      | [] =>
        let c := { c with waiting := c.waiting.filter (fun w => w != u), bitmaps := c.bitmaps ++ [(u, bitmap)] }
        let known : List MemberShapes := s.pair.shapes.filter (fun m => m.unit != u) ++ [⟨u, shapesOf bitmap shapes⟩]
        let s := if team then { s with pair := { s.pair with shapes := known } } else s
        if !c.waiting.isEmpty then .next ((s.setCinch (some c)).moveBoundary)
        else if s.teamLook && (s.firstRefusal (s.shd.look s.pair.shapes) true).isSome then
          .next (((s.recordInc 0x0A 0 0 0 s.unitId).abortTeam c).refuse c .refusedInconsistent)
        else .next (s.decideCinch c)

/-- CINCH_PREPARE_TIMEOUT (R39): 20 ms without an answer. -/
def execCinchPrepareTimeout (s : State) : Result :=
  match s.glb.cinch with
  | none => .next s
  | some c =>
    when (c.phase == .preparing && decide (c.sentAt + 20000000 ≤ s.now)) s ((s.abortTeam c).refuse c .degraded)

/-! ### Members (R39, R40) -/

/-- The package answers a coordinator: a Belay, or a team member that is not the time master. -/
def State.cinchMember (s : State) : Bool :=
  s.belay || (s.on Reg.PAIR_CTL_ENABLE && s.rd Reg.PAIR_CTL_MODE == 2 && !s.coordinator)

/-- The unit that coordinates this member. -/
def State.coordinatorUnit (s : State) : Nat := if s.rd Reg.PAIR_CTL_MODE = 1 then s.peer else s.rd Reg.PAIR_CTL_MASTER

/-- The member's part of the CINCH is replaced. -/
def State.setMember (s : State) (m : Option MemberCinch) : State := { s with glb := { s.glb with member := m } }

/-- CINCH_PREPARE (R39): the member validates its shadow, and a Belay compares the digest; ready, it stays sealed until the
decision.  A prepare for the same target only moves the boundary.  That a member whose own epoch is not the target less one refuses,
and that it records class 0x09 with REFUSE_BLOCK 0, is the model's choice: DESIGN CHOICE, notes/assumptions/25.md. -/
def execCinchPrepare (target : BitVec 32) (boundary : Nat) (digest : Option Nat) (s : State) : Result :=
  if !s.cinchMember then .next s else
  let t := target.toNat
  let again := match s.glb.member with | some m => m.target == t && !m.diverged | none => false
  if again then .next (match s.glb.member with | some m => s.setMember (some { m with boundary }) | none => s) else
  let differs := match digest with | some d => d != s.shd.digest | none => false
  let bad : Option Inc := if differs then some ⟨0, 0, 0, 9, false⟩
    else if t ≠ epochNext (s.rd Reg.GLB_EPOCH_EPOCH) then some ⟨0, 0, 0, 9, false⟩ else s.firstRefusal (s.shd.look []) true
  match bad with
  | some i => .next ((s.recordInc i.cls i.blk i.tab i.idx 0).sendHjel s.coordinatorUnit 0 (.ready false 0 []))
  | none =>
    let s := State.setMember { s with glb := { s.glb with sealed := true } } (some ⟨t, boundary, none, false⟩)
    .next (((s.showPending (some t)).lseAccept).sendHjel s.coordinatorUnit 0 (.ready true s.shd.bitmap s.shd.shapes))

/-- The member's decision is to commit at a boundary; one already past is the first slice boundary from now. -/
def State.memberCommit (s : State) (boundary : Instant) : State :=
  match s.glb.member with
  | none => s
  | some m =>
    if m.decision.isSome then s else
    let b := if m.diverged ∨ boundary ≤ s.now then s.boundaryFrom (s.now + 1) else boundary
    s.setMember (some { m with decision := some true, boundary := b })

/-- CINCH_COMMIT (R39, R40). -/
def execCinchCommit (boundary : Nat) (s : State) : Result := .next (s.memberCommit boundary)

/-- The member's decision is to abort: it unseals and is not diverged. -/
def State.memberAbort (s : State) : State :=
  if s.glb.member.isNone then s else ((s.setMember none).release).wr Reg.GLB_CINCH_STAT_DIVERGED 0

/-- CINCH_ABORT (R39, R40). -/
def execCinchAbort (s : State) : Result := .next s.memberAbort

/-! ### Application (R33 to R35) -/

/-- Auto-negotiation switched off or on in a mode that has it (R70): off, AN_DONE reads 0 and SPEED shows the highest rate of the mode; on,
the link trains anew (notes/assumptions/35.md). -/
def State.anApply (s : State) (old : Cfg) : State :=
  ((List.range 48).filter (fun n => old.fld (Reg.PORT_CFG_AN_EN n) != s.act.fld (Reg.PORT_CFG_AN_EN n)
      && hasAn (s.cf (Reg.PORT_CFG_MODE n)))).foldl (fun s n =>
    if s.cfOn (Reg.PORT_CFG_AN_EN n) then s.dropLink n
    else (s.wr (Reg.PORT_STAT_AN_DONE n) 0).wr (Reg.PORT_STAT_SPEED n) (speedOf (s.cf (Reg.PORT_CFG_MODE n)) false 0)) s

/-- Ports take a changed MODE (R71): the link drops, the transmitter idles, and queued frames are discarded. -/
def State.portApply (s : State) (old : Cfg) (b : Instant) : State :=
  ((List.range 48).filter (fun n => old.fld (Reg.PORT_CFG_MODE n) != s.act.fld (Reg.PORT_CFG_MODE n))).foldl (fun s n =>
    let s := (s.dropLink n).discardQueued n
    s.setPrt n { s.prt n with idleUntil := b + 2000000 }) (s.anApply old)

/-- The time base takes changed references and FREF (R55, R64): a reference no longer selected is given up. -/
def State.tbApply (s : State) (old : Cfg) : State :=
  let r := s.rd Reg.TB_STAT_ACTIVE_REF
  let s := if r ≠ 0 ∧ s.cf Reg.TB_REF_PRI ≠ r ∧ s.cf Reg.TB_REF_SEC ≠ r then s.loseRef false else s
  let written := s.tb.frefWritten || old.fld Reg.TB_CTL_FREF != s.cf Reg.TB_CTL_FREF
  let fref := s.cfOn Reg.TB_CTL_FREF && (if written then s.tb.ref10mPresent else s.tb.pllRef10m)
  let roles := (List.range 48).any (fun n => old.fld (Reg.TB_PTP_PORT_ROLE n) != s.cf (Reg.TB_PTP_PORT_ROLE n))
  let lost := s.cfOn Reg.TB_CTL_FREF && !s.tb.ref10mPresent
  let s := if lost && !s.on Reg.TB_STAT_FREF_LOST then s.raise 59 else s
  let s := s.wrB Reg.TB_STAT_FREF_LOST lost
  { s with tb := { s.tb with pllRef10m := fref, frefWritten := false, ptpPort := if roles then none else s.tb.ptpPort } }

/-- The battery copy of KEY_TAMP_CFG that a configuration gives (R407). -/
def Cfg.tampCfg (c : Cfg) : Nat :=
  2 ^ 24 * c.fld Reg.KEY_TAMP_CFG_FILT_US + 2 ^ 16 * c.fld Reg.KEY_TAMP_CFG_INT_EN + 2 ^ 4 * c.fld Reg.KEY_TAMP_CFG_POL
    + c.fld Reg.KEY_TAMP_CFG_EN

/-- The connections of a configuration (R96): the enabled entries of KIND 2, each with its port, peer port and peer address. -/
def Cfg.connected (c : Cfg) : List (Nat × Nat × Nat × Nat) :=
  (c.entries.filter (fun e => e.2.kind == 2 && e.2.head)).map (fun e => (e.1, e.2.at 2 1, e.2.at 14 2, e.2.at 16 16))

/-- The publisher states of entries that a configuration changes are forgotten (notes/assumptions/41.md). -/
def State.goosesForget (s : State) (old : Cfg) : State :=
  { s with ing := { s.ing with ent := s.ing.ent.map (fun e =>
      if sameEntry old s.act e.1 then e else (e.1, { e.2 with goose := none })) } }

/-- PHASE follows the Stitcher (R416): RUNNING from READY or WAKING on, once it produces. -/
def State.phaseRuns (s : State) : State :=
  if s.producing ∧ (s.rd Reg.PWR_STAT_PHASE = 6 ∨ s.rd Reg.PWR_STAT_PHASE = 11) then s.wr Reg.PWR_STAT_PHASE 7 else s

/-- Every block switches to configuration `new` with epoch `epoch` at boundary `b` (R33 to R35): slices of an epoch before the
previous one close, the previous configuration retires, and each block takes its changes. -/
def State.switchTo (s : State) (new : Cfg) (epoch : Nat) (b : Instant) : State :=
  let old := s.act
  let s := match s.ret with | some r => (s.closeBefore r.boundary).retire | none => s
  let s := (old.connected.filter (fun e => !new.connected.contains e)).foldl (fun s e =>
    ((s.sendTcp e.1 2 1).sendTcp e.1 3 0).setConn e.1 Conn.init) s
  let s := { s with
    ret := some ⟨old, s.rd Reg.GLB_EPOCH_EPOCH, b, b + 1000000 * old.fld Reg.STCH_CTL_HORIZON_MS⟩, act := new }
  let s := (s.wr Reg.GLB_EPOCH_EPOCH epoch).wrInstant Reg.GLB_LAST_BOUNDARY_S Reg.GLB_LAST_BOUNDARY_NS b
  let starts := old.fld Reg.STCH_CTL_EN == 0 && new.fld Reg.STCH_CTL_EN == 1
  let s := if starts then s.setIdle [] else s
  let s := ((((s.stchApply old b).pheApply old b).portApply old b).tbApply old).lseApply old b
  let s := ((((s.oscApply old b).capApply old).pubApply old b).fslApply old b).schedApply old b
  let s := s.bindKeys.keyShow
  let s := { s with key := { s.key with tampCfg := new.tampCfg } }
  let s := (new.connected.filter (fun e => !old.connected.contains e)).foldl (fun s e => s.openConn e.1) s
  let s := s.goosesForget old
  (s.islApply old b).phaseRuns

/-- The shadow applies at `b`. -/
def State.applyCinch (s : State) (b : Instant) : State :=
  ((s.switchTo s.shd (epochNext (s.rd Reg.GLB_EPOCH_EPOCH)) b).unseal).showPending none

/-- CINCH_APPLY (R33, R40, R41): the boundary of a decided CINCH is reached.  The coordinator completes it, or waits for the
members' confirmations; a member confirms; one without a decision keeps its epoch and is diverged. -/
def execCinchApply (s : State) : Result :=
  match s.glb.cinch, s.glb.member with
  | some c, _ =>
    if c.phase ≠ .ready ∨ s.now < c.boundary then .next s else
    let s := s.applyCinch c.boundary
    let units := c.bitmaps.map (·.1)
    if units.isEmpty then
      .next ((s.setCinch none).cinchDone c.tag (if c.alone then .degraded else if c.late then .late else .ok) (some c.boundary))
    else .next (s.setCinch (some { c with phase := .confirming, waiting := units }))
  | none, some m =>
    if s.now < m.boundary ∨ m.diverged && m.decision.isNone then .next s else
    match m.decision with
    | some _ =>
      let s := (s.setMember none).applyCinch m.boundary
      .next ((s.wr Reg.GLB_CINCH_STAT_DIVERGED 0).sendHjel s.coordinatorUnit 0 .confirm)
    | none => .next (((s.setMember (some { m with diverged := true })).wr Reg.GLB_CINCH_STAT_DIVERGED 1).pairEvent 8)
  | none, none => .next s

/-- CINCH_CONFIRM (R33, R39): after the last confirmation the coordinator completes the CINCH. -/
def execCinchConfirm (unit : Fin 16) (s : State) : Result :=
  match s.glb.cinch with
  | none => .next s
  | some c =>
    if c.phase ≠ .confirming then .next s else
    let left := c.waiting.filter (fun u => u != unit.val)
    if !left.isEmpty then .next (s.setCinch (some { c with waiting := left }))
    else .next ((s.setCinch none).cinchDone c.tag (if c.late then .late else .ok) (some c.boundary))

/-- CINCH_CONFIRM_TIMEOUT (R39, R40): 5 ms after the boundary without every confirmation. -/
def execCinchConfirmTimeout (s : State) : Result :=
  match s.glb.cinch with
  | none => .next s
  | some c =>
    when (c.phase == .confirming && decide (c.boundary + 5000000 ≤ s.now)) s
      ((s.setCinch none).cinchDone c.tag .degraded (some c.boundary))

/-- RETIRING_COPY_EXPIRY (R35): the previous epoch's revision horizon is over.  Slices of that epoch still OPEN, or released and not
yet closed, keep its configuration and epoch until they close (R33, R146): DESIGN CHOICE, notes/assumptions/25.md. -/
def execRetiringCopyExpiry (s : State) : Result :=
  match s.ret with
  | none => .next s
  | some r => when (decide (r.expiry ≤ s.now)) s s.retire

end Sys2Proof.Machine
end

