-- ==== Sys2Proof/Machine/Pair.lean ====
section
/-!
DEFINITION. Redundant pairs, the witness, Hjel links, resynchronisation, time transfer and rope teams (spec/17).
-/
namespace Sys2Proof.Machine
open Sys2Proof

/-! ### Claims (R356, R357) -/

/-- Epoch `a` is higher than epoch `b`, modulo 4,096. -/
def epochAbove (a b : Nat) : Bool := let d := (a + 4096 - b % 4096) % 4096; decide (1 ≤ d) && decide (d ≤ 2047)

/-- Claim `a` is higher than claim `b` (R356). -/
def claimAbove (a b : Nat) : Bool := epochAbove (a / 16) (b / 16) || (a / 16 == b / 16 && decide (b % 16 < a % 16))

/-- The unit's claim epoch is stored, and its current claim formed from it (R356, R357). -/
def State.setClaim (s : State) (epoch : Nat) : State :=
  State.wr { s with pair := { s.pair with epoch := epoch % 4096 } } Reg.PAIR_STAT_CLAIM (epoch % 4096 * 16 + s.unitId)

/-- This unit's current claim. -/
def State.claim (s : State) : Nat := s.rd Reg.PAIR_STAT_CLAIM

/-! ### The state machine (R362 to R365) -/

/-- A package that runs pairing or a team sends and reads heartbeats, outside the Cairn condition (R361, R453). -/
def State.pairing (s : State) : Bool :=
  s.on Reg.PAIR_CTL_ENABLE && (s.rd Reg.PAIR_STAT_STATE != 0 || s.rd Reg.PAIR_CTL_MODE == 2) && !s.on Reg.ERR_STAT_FATAL

/-- A transition to state `st` (R362, R363): event 194, and the outputs follow. -/
def State.goPair (s : State) (st : Nat) : State := (((s.wr Reg.PAIR_STAT_STATE st).pairEvent 2).gooseSilence).setPins

/-- Output streams resume (R263, R364): each from the oldest slice held later than the instant last reported, from the next
slice not yet released where none was reported. -/
def State.resumeOutputs (s : State) (last : KV Instant) : State :=
  let from_ : KV Instant := (List.range 64).map (fun o => (o, match kvGet? last o with
    | some t => t + 1
    | none => max s.unreleased (kvGetD s.pub.from_ o 0)))
  let kept := s.stch.work.filter (fun w => w.who != .outputs)
  let again : List Work := (s.stch.store.filter (fun r => !r.team)).map (fun r => ⟨.outputs, r⟩)
  { s with pub := { s.pub with from_ }, stch := { s.stch with work := kept ++ again } }

/-- The unit enters ACTIVE with a claim epoch (R362 to R364): outputs resume, with the partner's reports where the unit was not ACTIVE
before, and every GOOSE alarm publisher begins a new state.  A CINCH of its former Active stays pending (R30, R40). -/
def State.becomeActive (s : State) (epoch : Nat) : State :=
  let was := s.pair.wasActive
  let h := (kvGet? s.pair.heard s.peer).map (·.1)
  let s := s.setClaim epoch
  let s := { s with pair := { s.pair with wasActive := true, resync := none, retryAt := none } }
  let s := match was, h with
    | false, some h =>
      let s := { s with isl := { s.isl with stNums := h.stNums } }
      s.wr Reg.PUB_OUT_ON_ON h.outOn
    | _, _ => s
  let s := s.goPair 4
  let s := s.resumeOutputs (match was, h with | false, some h => h.outLast | _, _ => s.pub.newest)
  (List.range 8).foldl (fun s p =>
    match kvGet? s.isl.lastDec p with
    | some (slice, rev, epoch) => if s.pubOn p && s.gooseMode == 2 then s.newGoose p s.now slice rev epoch else s
    | none => s) s

/-- The unit enters SYNC (R362, R371): outputs stop, and SYNC_REQ leaves. -/
def State.enterSync (s : State) : State :=
  State.toPeer (State.goPair { s with pair := { s.pair with wasActive := false, resync := none, retryAt := none } } 2) 0 .syncReq

/-- The unit enters QUERY. -/
def State.enterQuery (s : State) : State := State.goPair { s with pair := { s.pair with queryAt := s.now } } 5

/-- START_WAIT_EXPIRY (R362). -/
def execStartWaitExpiry (s : State) : Result :=
  when (s.rd Reg.PAIR_STAT_STATE == 1 && decide (s.pair.startAt + 1000000 * s.rd Reg.PAIR_CTL_START_WAIT_MS ≤ s.now)) s s.enterQuery

/-- HOLD_MAX_EXPIRY (R365): once in a stay in HOLD. -/
def execHoldMaxExpiry (s : State) : Result :=
  let lim := s.rd Reg.PAIR_WIT_HOLD_MAX_MS
  when (s.rd Reg.PAIR_STAT_STATE == 7 && lim != 0 && decide (s.pair.holdAt + 1000000 * lim ≤ s.now)) s
    (((State.enterSafe { s with pair := { s.pair with holdAt := s.now + 2 ^ 80 } } 0x0E).pinRegs).pairEvent 12)

/-! ### Heartbeats (R361) -/

/-- The decision that heartbeats carry (R39): none, commit or abort, with the target and boundary of the CINCH pending. -/
def State.decision (s : State) : Nat × Nat × Instant :=
  match s.glb.cinch, s.glb.aborted with
  | some c, _ => (if c.phase = .ready ∨ c.phase = .confirming then 1 else 0, c.target, c.boundary)
  | none, some (t, b) => if s.now ≤ b then (2, t, b) else (0, 0, 0)
  | none, none => (0, 0, 0)

/-- The heartbeat sent to a unit (R361). -/
def State.heartbeatTo (s : State) (unit : Nat) : Heartbeat :=
  let (d, t, b) := s.decision
  let pair := s.rd Reg.PAIR_CTL_MODE == 1
  { unit := s.unitId, state := s.rd Reg.PAIR_STAT_STATE, witOk := s.on Reg.PAIR_STAT_WIT_OK, timeMaster := s.timeMaster
    claim := s.claim, epoch := s.rd Reg.GLB_EPOCH_EPOCH, seq := s.pair.seq, ts := s.now, decision := d, target := t, boundary := b
    peerSeq := (match kvGet? s.pair.heard unit with | some (h, _) => h.seq | none => 0)
    stNums := if pair then s.isl.stNums else [], outOn := if pair then s.rd Reg.PUB_OUT_ON_ON else 0
    outLast := if pair then s.pub.newest else [] }

/-- The units that a heartbeat goes to: over every link that is up to the unit at its end in a pair; in a team from the time
master to each member, and from a member to the time master. -/
def State.heartbeatUnits (s : State) : List Nat :=
  if s.rd Reg.PAIR_CTL_MODE = 1 then ((List.range 4).filter s.linkUp).map (fun l => s.rd (Reg.PAIR_LINK_PEER l))
  else if s.coordinator then s.partners else [s.rd Reg.PAIR_CTL_MASTER]

/-- A heartbeat leaves: in a pair on each link itself, else along the route. -/
def State.sendHeartbeat (s : State) (u : Nat) : State :=
  let m : Hjel := .heartbeat (s.heartbeatTo u)
  (if s.rd Reg.PAIR_CTL_MODE = 1 then s.emitHjel u 0 m else s.sendHjel u 0 m).bump .pair C.PAIR_HB_SENT

/-- HEARTBEAT_SEND (R39, R361, R385): every 250 us, none in the safe state.  A CINCH boundary that can no longer be met moves first. -/
def execHeartbeatSend (s : State) : Result :=
  when (s.pairing && !s.safe && decide (s.pair.sentAt + 250000 ≤ s.now)) s
    (let s := s.moveBoundary
     let s := s.heartbeatUnits.foldl State.sendHeartbeat s
     { s with pair := { s.pair with
        seq := (s.pair.seq + 1) % 2 ^ 32, sentAt := s.now
        sent := s.pair.sent.filter (fun x => decide (s.now ≤ x.2 + 1000000)) ++ [(s.pair.seq, s.now)] } })

/-- A heartbeat is of the expected partner, member or time master (R361). -/
def State.expectedHb (s : State) (h : Heartbeat) : Bool :=
  h.unit != 0 && h.unit != s.unitId && h.claim % 16 == h.unit
    && (if s.rd Reg.PAIR_CTL_MODE = 1 then s.peer == 0 || s.peer == h.unit
        else if s.coordinator then s.partners.contains h.unit else h.unit == s.rd Reg.PAIR_CTL_MASTER)

/-- The partner's latest heartbeat tells that it hears this unit (R361). -/
def State.twoWay (s : State) (h : Heartbeat) : Bool :=
  s.pair.sent.any (fun x => x.1 == h.peerSeq && decide (s.now ≤ x.2 + 1000000))

/-- A member reads the coordinator's decision in its heartbeat (R39, R40). -/
def State.readDecision (s : State) (h : Heartbeat) : State :=
  match s.glb.member with
  | none => s
  | some m =>
    if !s.cinchMember || h.unit ≠ s.coordinatorUnit || h.target ≠ m.target then s
    else if h.decision = 1 then s.memberCommit h.boundary
    else if h.decision = 2 then s.memberAbort
    else if m.decision.isNone && !m.diverged then s.setMember (some { m with boundary := h.boundary }) else s

/-- The transitions that a valid heartbeat from the partner brings (R362). -/
def State.pairStep (s : State) (h : Heartbeat) : State :=
  let st := s.rd Reg.PAIR_STAT_STATE
  if h.state = 4 then
    if st = 1 ∨ ((st = 4 ∨ st = 5 ∨ st = 6 ∨ st = 7) ∧ claimAbove h.claim s.claim) then s.enterSync
    else if st = 3 ∧ s.pair.epoch ≠ (h.claim / 16 + 4095) % 4096 then s.setClaim (h.claim / 16 + 4095)
    else s
  else if (st = 1 ∨ st = 5 ∨ st = 7) ∧ s.twoWay h ∧ claimAbove s.claim h.claim then
    s.becomeActive ((if epochAbove (h.claim / 16) s.pair.epoch then h.claim / 16 else s.pair.epoch) + 1)
  else s

/-- HEARTBEAT_RECEIVE (R39, R361, R362). -/
def execHeartbeatReceive (h : Heartbeat) (s : State) : Result :=
  if !s.pairing || !s.expectedHb h then .next s else
  let found := s.pair.lost.contains h.unit
  let s := State.bump { s with pair := { s.pair with
    heard := kvSet s.pair.heard h.unit (h, s.now), lost := setDel s.pair.lost h.unit } } .pair C.PAIR_HB_RECV
  let s := if found then s.pairEvent 1 else s
  let s := s.readDecision h
  if s.rd Reg.PAIR_CTL_MODE ≠ 1 then .next s else
  let s := ((s.wr Reg.PAIR_STAT_PARTNER h.unit).wr Reg.PAIR_STAT_PARTNER_OK 1).wr Reg.PAIR_PARTNER_CLAIM h.claim
  .next ((s.wr Reg.PAIR_PARTNER_AGE_US 0).pairStep h)

/-- PARTNER_LOST (R361, R362, R375): 1,000 us without a valid heartbeat of a unit heard before. -/
def execPartnerLost (unit : Fin 16) (s : State) : Result :=
  let u := unit.val
  let due := match kvGet? s.pair.heard u with | some (_, t) => decide (t + 1000000 ≤ s.now) | none => false
  if !s.pairing || !due || s.pair.lost.contains u then .next s else
  let s := (State.bump { s with pair := { s.pair with lost := setAdd s.pair.lost u } } .pair C.PAIR_HB_MISSED).pairEvent 0
  if s.rd Reg.PAIR_CTL_MODE ≠ 1 then .next s else
  let s := (s.wr Reg.PAIR_STAT_PARTNER_OK 0).forwardsLost
  .next (if s.rd Reg.PAIR_STAT_STATE = 3 ∨ s.rd Reg.PAIR_STAT_STATE = 4 then s.enterQuery else s)

/-! ### Enabling (R355, R362, R380) -/

/-- The fields of PAIR_CTL take a written word; a reserved encoding leaves its field (R4). -/
def State.pairCtl (s : State) (v : Nat) : State :=
  let s := (s.wr Reg.PAIR_CTL_START_WAIT_MS (bits v 0 16)).wr Reg.PAIR_CTL_TSLICE (bits v 19 1)
  let s := s.wr Reg.PAIR_CTL_MASTER (bits v 20 4)
  let s := if bits v 24 4 = 0 then s else s.wr Reg.PAIR_CTL_UNIT_ID (bits v 24 4)
  let s := if 4 ≤ bits v 28 3 then s else s.wr Reg.PAIR_CTL_MODE (bits v 28 3)
  s.setClaim s.pair.epoch

/-- The word that PAIR_CTL reads, ENABLE apart. -/
def State.pairCtlWord (s : State) : Nat :=
  s.rd Reg.PAIR_CTL_START_WAIT_MS + 2 ^ 19 * s.rd Reg.PAIR_CTL_TSLICE + 2 ^ 20 * s.rd Reg.PAIR_CTL_MASTER
    + 2 ^ 24 * s.rd Reg.PAIR_CTL_UNIT_ID + 2 ^ 28 * s.rd Reg.PAIR_CTL_MODE

/-- PAIR_ENABLE (R362, R380): a write of PAIR_CTL with ENABLE 1, discarded while STATE is not OFF.  With MODE 1 the unit goes to
START, with MODE 3 the witness starts afresh. -/
def execPairEnable (word : BitVec 32) (s : State) : Result :=
  if !s.barOpen 0x190000 then .next s
  else if s.rd Reg.PAIR_STAT_STATE ≠ 0 then .next (s.wr Reg.PAIR_STAT_CFG_WR 1)
  else
    let was := s.on Reg.PAIR_CTL_ENABLE
    let s := (s.pairCtl word.toNat).wr Reg.PAIR_CTL_ENABLE 1
    let s := if was then s else { s with pair := { s.pair with
      heard := [], lost := [], sent := [], sentAt := s.now, wit := { Witness.reset with slotAt := s.now } } }
    if s.rd Reg.PAIR_CTL_MODE = 1 ∧ !s.quarantine then
      .next (State.goPair { s with pair := { s.pair with startAt := s.now, cmpAt := s.now, witAt := s.now, witSeq := none
                                                         wasActive := false } } 1)
    else .next s.setPins

/-- PAIR_DISABLE (R362, R380): a write of PAIR_CTL with ENABLE 0.  While STATE is not OFF only a write that clears nothing but
ENABLE has effect, in a state that may go to OFF. -/
def execPairDisable (word : BitVec 32) (s : State) : Result :=
  let st := s.rd Reg.PAIR_STAT_STATE
  let only := word.toNat % 2 ^ 31 - 2 ^ 16 * bits word.toNat 16 3 == s.pairCtlWord
  if !s.barOpen 0x190000 then .next s
  else if st = 0 then .next (((s.pairCtl word.toNat).wr Reg.PAIR_CTL_ENABLE 0).setPins)
  else if only && (st == 1 || st == 2 || st == 6 || st == 7) then
    let s := ((s.wr Reg.PAIR_CTL_ENABLE 0).wr Reg.PAIR_STAT_PARTNER 0).wr Reg.PAIR_STAT_PARTNER_OK 0
    let s := ((s.wr Reg.PAIR_STAT_WIT_OK 0).wr Reg.PAIR_PARTNER_CLAIM 0).wr Reg.PAIR_PARTNER_AGE_US 0xFFFF
    .next (State.goPair { s with pair := { s.pair with
      heard := [], lost := [], resync := none, retryAt := none, wasActive := false } } 0)
  else .next (s.wr Reg.PAIR_STAT_CFG_WR 1)

/-! ### The witness line, at a unit (R366 to R368) -/

/-- Bytes 0 to 5 of a witness frame (R367). -/
def witHead (typ unit claim seq : Nat) : List Byte := [0x7E] ++ leBytes 1 (16 * typ + unit) ++ leBytes 2 claim ++ leBytes 2 seq

/-- The use bit of witness authentication (R395). -/
def useWitness : Nat := 3

/-- TAG of a witness frame under the witness key, none where the key cannot be used (R367). -/
def State.witTag (s : State) (typ unit claim seq : Nat) : Option Nat × State :=
  let (k, s) := s.keyStart (s.rd Reg.PAIR_WIT_KEY_SLOT) 1 useWitness
  (if k.usable then some (hmacSha256 k.key ((witHead typ unit claim seq).drop 1) % 2 ^ 32) else none, s)

/-- A frame's CRC and TAG are right. -/
def State.witGood (s : State) (typ : Nat) (f : WitFrame) : Bool × State :=
  let bytes := witHead typ f.unit f.claim.toNat f.seq.toNat ++ leBytes 4 f.tag.toNat
  if crc16 bytes ≠ f.crc.toNat then (false, s) else
  let (t, s) := s.witTag typ f.unit f.claim.toNat f.seq.toNat
  (t == some f.tag.toNat, s)

/-- A frame leaves on the witness line, unless no key is there to tag it. -/
def State.sendWit (s : State) (typ unit claim seq : Nat) : State :=
  match s.witTag typ unit claim seq with
  | (some t, s) => s.emit (.witness typ unit claim seq t)
  | (none, s) => s

/-- A unit of a pair accepts a witness frame addressed to it, or discards it (R367, R368): with an accepted one the witness is
reachable, and a unit in HOLD goes back to QUERY. -/
def State.witAccept (s : State) (typ : Nat) (f : WitFrame) : Bool × State :=
  if s.rd Reg.PAIR_STAT_STATE = 0 ∨ s.on Reg.ERR_STAT_FATAL ∨ f.unit.val ≠ s.unitId then (false, s) else
  let (ok, s) := s.witGood typ f
  let above := match s.pair.witSeq with
    | some q => let d := (f.seq.toNat + 2 ^ 16 - q) % 2 ^ 16; decide (1 ≤ d) && decide (d < 2 ^ 15)
    | none => true
  if !ok || !above then (false, s.bump .pair C.PAIR_WIT_BAD) else
  let s := State.bump { s with pair := { s.pair with witSeq := some f.seq.toNat, witAt := s.now } } .pair C.PAIR_WIT_FRAMES
  let s := if s.on Reg.PAIR_STAT_WIT_OK then s else (s.wr Reg.PAIR_STAT_WIT_OK 1).pairEvent 4
  (true, if s.rd Reg.PAIR_STAT_STATE = 7 then s.enterQuery else s)

/-- A unit answers a frame addressed to it: QUERY in QUERY, HOLD or BELAY_HOLD, else OK (R366, R367); not in the safe state
(R385). -/
def State.witAnswer (s : State) (seq : BitVec 16) : State :=
  let st := s.rd Reg.PAIR_STAT_STATE
  if s.safe then s else s.sendWit (if 5 ≤ st then 9 else 8) s.unitId s.claim seq.toNat

/-- WITNESS_POLL (R367). -/
def execWitnessPoll (frame : WitFrame) (s : State) : Result :=
  let (ok, s) := s.witAccept 1 frame
  .next (if ok then s.witAnswer frame.seq else s)

/-- WITNESS_GRANT (R362, R367): a unit in QUERY or BELAY_HOLD takes the granted claim; SWITCHOVERS counts where it was not ACTIVE
before. -/
def execWitnessGrant (frame : WitFrame) (s : State) : Result :=
  let (ok, s) := s.witAccept 2 frame
  if !ok then .next s else
  let st := s.rd Reg.PAIR_STAT_STATE
  let s := if st = 5 ∨ st = 6 then
      (if s.pair.wasActive then s else s.bump .pair C.PAIR_SWITCHOVERS).becomeActive (frame.claim.toNat / 16)
    else s
  .next (s.witAnswer frame.seq)

/-- WITNESS_DENY (R362): a unit in QUERY or BELAY_HOLD is in BELAY_HOLD, event 197. -/
def execWitnessDeny (frame : WitFrame) (s : State) : Result :=
  let (ok, s) := s.witAccept 3 frame
  if !ok then .next s else
  let st := s.rd Reg.PAIR_STAT_STATE
  let s := if st = 5 ∨ st = 6 then (s.goPair 6).pairEvent 5 else s
  .next (s.witAnswer frame.seq)

/-- WITNESS_UNREACHABLE (R362, R368): 2 ms without a valid frame; a unit in QUERY goes to HOLD when it has found the witness
unreachable for 2 ms in it. -/
def execWitnessUnreachable (s : State) : Result :=
  let on := s.rd Reg.PAIR_STAT_STATE != 0 && s.rd Reg.PAIR_CTL_MODE == 1 && !s.on Reg.ERR_STAT_FATAL
  if !on then .next s else
  let s := if s.on Reg.PAIR_STAT_WIT_OK && decide (s.pair.witAt + 2000000 ≤ s.now) then (s.wr Reg.PAIR_STAT_WIT_OK 0).pairEvent 3 else s
  if s.rd Reg.PAIR_STAT_STATE = 5 ∧ max s.pair.witAt s.pair.queryAt + 2000000 ≤ s.now then
    .next (State.goPair { s with pair := { s.pair with holdAt := s.now } } 7)
  else .next s

/-! ### The witness (R368, R369) -/

/-- The package is a witness (R355). -/
def State.isWitness (s : State) : Bool :=
  !s.safe && s.on Reg.PAIR_CTL_ENABLE && s.rd Reg.PAIR_CTL_MODE == 3 && !s.on Reg.ERR_STAT_FATAL

/-- A unit that was never heard. -/
def WitUnit.init : WitUnit := ⟨0, 0, false, none⟩

/-- The witness's record of a unit. -/
def State.witUnit (s : State) (u : Nat) : WitUnit := (kvGet? s.pair.wit.units u).getD WitUnit.init

/-- The witness's record of a unit is replaced. -/
def State.setWit (s : State) (u : Nat) (x : WitUnit) : State :=
  { s with pair := { s.pair with wit := { s.pair.wit with units := kvSet s.pair.wit.units u x } } }

/-- The units that the witness serves. -/
def State.witServes (s : State) : List Nat := [s.rd Reg.PAIR_WIT_WUNIT_A, s.rd Reg.PAIR_WIT_WUNIT_B]

/-- The other unit. -/
def State.witOther (s : State) (u : Nat) : Nat :=
  if u = s.rd Reg.PAIR_WIT_WUNIT_A then s.rd Reg.PAIR_WIT_WUNIT_B else s.rd Reg.PAIR_WIT_WUNIT_A

/-- WITNESS_SLOT (R368): every 250 us one unit is addressed, alternating, with the GRANT or DENY that waits for it, else a POLL. -/
def execWitnessSlot (s : State) : Result :=
  let w := s.pair.wit
  if !s.isWitness || decide (s.now < w.slotAt + 250000) then .next s else
  let u := if w.second then s.rd Reg.PAIR_WIT_WUNIT_B else s.rd Reg.PAIR_WIT_WUNIT_A
  let x := s.witUnit u
  let seq := (w.seq + 1) % 2 ^ 16
  let (typ, claim) := match x.reply with
    | some (true, c) => (2, c)
    | some (false, c) => (3, c)
    | none => (1, w.highest)
  let s := s.setWit u { x with missed := if x.awaiting then min 2 (x.missed + 1) else x.missed, awaiting := true, reply := none }
  let s := { s with pair := { s.pair with wit := { s.pair.wit with seq, slotAt := s.now, second := !w.second } } }
  .next (s.sendWit typ u claim seq)

/-- A claim is granted to a unit (R369): the higher epoch known plus 1, with its UNIT_ID. -/
def State.witGrant (s : State) (u : Nat) : State :=
  let c := (s.pair.wit.highest / 16 + 1) % 4096 * 16 + u
  let s := s.setWit u { s.witUnit u with reply := some (true, c) }
  { s with pair := { s.pair with wit := { s.pair.wit with highest := c, window := none } } }

/-- The witness decides among the claims of a window (R369). -/
def State.witDecide (s : State) (l : KV (Nat × Bool)) : State :=
  let best := l.foldl (fun (b : Option (Nat × Nat)) e => match b with
    | none => some (e.1, e.2.1)
    | some m => if claimAbove e.2.1 m.2 then some (e.1, e.2.1) else b) none
  let s := { s with pair := { s.pair with wit := { s.pair.wit with window := none } } }
  match best with
  | none => s
  | some (w, _) =>
    let high := s.pair.wit.highest
    let s := (l.filter (fun e => e.1 != w && e.2.2)).foldl (fun s e => s.setWit e.1 { s.witUnit e.1 with reply := some (false, high) }) s
    if (kvGetD l w (0, false)).2 then s.witGrant w else s

/-- WITNESS_ANSWER (R367 to R369): a unit's OK or QUERY to the frame addressed to it. -/
def execWitnessAnswer (query : Bool) (frame : WitFrame) (s : State) : Result :=
  let u := frame.unit.val
  if !s.isWitness || !s.witServes.contains u then .next s else
  let (ok, s) := s.witGood (if query then 9 else 8) frame
  let x := s.witUnit u
  if !ok || !x.awaiting || frame.seq.toNat ≠ s.pair.wit.seq then .next (s.bump .pair C.PAIR_WIT_BAD) else
  let c := frame.claim.toNat
  let s := (s.setWit u { x with claim := c, missed := 0, awaiting := false }).bump .pair C.PAIR_WIT_FRAMES
  let s := if claimAbove c s.pair.wit.highest then { s with pair := { s.pair with wit := { s.pair.wit with highest := c } } } else s
  if query ∧ 2 ≤ (s.witUnit (s.witOther u)).missed then .next (s.witGrant u) else
  match s.pair.wit.window, query with
  | none, false => .next s
  | w, _ =>
    let (t, l) : Instant × KV (Nat × Bool) := match w with | some p => p | none => (s.now, [])
    let l := kvSet l u (c, query || (kvGetD l u (0, false)).2)
    if l.any (fun e => e.1 == s.witOther u) then .next (s.witDecide l)
    else .next { s with pair := { s.pair with wit := { s.pair.wit with window := some (t, l) } } }

/-- WITNESS_WINDOW_EXPIRY (R369): 2 ms after the first QUERY. -/
def execWitnessWindowExpiry (s : State) : Result :=
  match s.pair.wit.window with
  | none => .next s
  | some (t, l) => when (s.isWitness && decide (t + 2000000 ≤ s.now)) s (s.witDecide l)

/-! ### Resynchronisation (R371) -/

/-- SYNC_REQ (R371): the Active sends its configuration and names the boundary. -/
def execSyncReq (unit : Fin 16) (s : State) : Result :=
  when (s.rd Reg.PAIR_STAT_STATE == 4 && s.peer == unit.val && !s.on Reg.ERR_STAT_FATAL) s
    (s.toPeer 3 (.resync ⟨s.act, s.shd, s.rd Reg.GLB_EPOCH_EPOCH, s.claim, s.rd Reg.PUB_OUT_ON_ON,
      gridFrom s.act.fs (s.now + 5000000)⟩))

/-- RESYNC_IMAGE (R371): the syncing unit validates what it received. -/
def execResyncImage (image : ResyncImage) (s : State) : Result :=
  when (s.rd Reg.PAIR_STAT_STATE == 2) s
    (if (firstInc (s.inconsistencies image.act (image.act.look []))).isSome then
      ((State.wr { s with pair := { s.pair with retryAt := some (s.now + 10 * nsPerS) } } Reg.PAIR_STAT_RESYNC_FAIL 1).pairEvent 11)
    else { s with pair := { s.pair with resync := some image } })

/-- RESYNC_RETRY (R371): 10 s after a refusal. -/
def execResyncRetry (s : State) : Result :=
  match s.pair.retryAt with
  | none => .next s
  | some t =>
    when (s.rd Reg.PAIR_STAT_STATE == 2 && decide (t ≤ s.now)) s
      (State.toPeer { s with pair := { s.pair with retryAt := none } } 0 .syncReq)

/-- RESYNC_BOUNDARY (R371): the unit takes configuration, shadow, epoch and on/off states, and enters BELAY.  A CINCH on which it had
diverged ends with it: DESIGN CHOICE, notes/assumptions/57.md. -/
def execResyncBoundary (s : State) : Result :=
  match s.pair.resync with
  | none => .next s
  | some r =>
    when (s.rd Reg.PAIR_STAT_STATE == 2 && decide (r.boundary ≤ s.now)) s
      (let s := (State.memberAbort { s with pair := { s.pair with resync := none } }).switchTo r.act r.epoch r.boundary
       let s := State.setClaim { s with shd := r.shd } (r.claim / 16 + 4095)
       ((s.wr Reg.PUB_OUT_ON_ON r.outOn).goPair 3).pairEvent 10)

/-- ONOFF_FORWARD (R259): the Belay applies an on/off change of the Active. -/
def execOnoffForward (o : Fin 64) (on : Bool) (s : State) : Result := when s.belay s (s.turn o on)

/-! ### Time transfer (R373) -/

/-- TIME_MESSAGE_SEND (R373): every 1 ms. -/
def execTimeMessageSend (s : State) : Result :=
  when (s.timeMaster && s.pairing && decide (s.pair.timeAt + 1000000 ≤ s.now)) s
    (State.toUnits { s with pair := { s.pair with timeAt := s.now } } s.partners 1 (.time s.now))

/-- The unit that is this package's time master (R373). -/
def State.timeMasterUnit (s : State) : Nat :=
  if s.rd Reg.PAIR_CTL_MODE = 1 then
    (match kvGet? s.pair.heard s.peer with | some (h, _) => if h.state = 4 then s.peer else 0 | none => 0)
  else if s.rd Reg.PAIR_CTL_MODE = 2 then s.rd Reg.PAIR_CTL_MASTER else 0

/-- TIME_MESSAGE (R373): counted while consecutive, with the offset that the servo measures from it. -/
def execTimeMessage (unit : Fin 16) (offset : Int) (s : State) : Result :=
  when (s.pairing && !s.timeMaster && unit.val != 0 && s.timeMasterUnit == unit.val) s
    (let q := s.tb.refs
     let n := if s.now ≤ q.hjelLast + 1100000 then q.hjelMsgs + 1 else 1
     State.measured { s with tb := { s.tb with refs := { q with hjelMsgs := n, hjelLast := s.now } } } refHJEL offset)

/-! ### Links (R358, R360) -/

/-- Link `l` before anything arrived on it. -/
def HjelLink.init : HjelLink := ⟨0, 0, [], 0, 0⟩

/-- Link `l`. -/
def State.hjelLink (s : State) (l : Nat) : HjelLink := (kvGet? s.pair.links l).getD HjelLink.init

/-- Link `l` is replaced. -/
def State.setLink (s : State) (l : Nat) (x : HjelLink) : State := { s with pair := { s.pair with links := kvSet s.pair.links l x } }

/-- HJEL_DELAY_MEASURE (R373): every 125 ms while the link is up. -/
def execHjelDelayMeasure (link : Fin 4) (delay : Nat) (s : State) : Result :=
  let x := s.hjelLink link
  when (s.linkUp link && decide (x.delayAt + 125000000 ≤ s.now)) s (s.setLink link { x with delay, delayAt := s.now })

/-- A message that reached its last flit (R359, R360): for this package its own command follows; for another unit it is passed
on, unless it has crossed 3 links or has no route. -/
def State.hjelMessage (s : State) (vc crossed : Nat) (bytes : List Byte) : State :=
  let dst := ((bytes[1]?).getD 0).toNat % 16
  if dst = s.unitId then s else
  match s.routeTo dst with
  | some l => if crossed < 3 then s.emit (.forward l vc bytes) else s.routeDiscard
  | none => s.routeDiscard

/-- HJEL_FLIT (R358, R360, R450): a flit with a wrong CRC is replayed, logged with code 0x04; one out of sequence belongs to a
replay; the flits of a virtual channel make up its messages. -/
def execHjelFlit (link : Fin 4) (flit : Flit) (crossed : Nat) (s : State) : Result :=
  let l := link.val
  if !s.linkUp l then .next s else
  let x := s.hjelLink l
  let body := leBytes 1 (flit.vc.val + 16 * flit.typ.val) ++ leBytes 1 flit.seq.toNat ++ flit.payload
  if crc32 body ≠ flit.crc.toNat then
    .next (((s.setLink l { x with replays := x.replays + 1 }).bump .pair C.PAIR_LINK_RETRY).correctable 0xFF l 0x04 0)
  else if 4 ≤ flit.typ.val ∨ flit.seq.toNat ≠ x.expect then .next s
  else
    let vc := flit.vc.val
    let sofar := if flit.typ.val = 0 ∨ flit.typ.val = 3 then [] else kvGetD x.parts vc []
    let whole := sofar ++ flit.payload
    let ended := flit.typ.val = 2 ∨ flit.typ.val = 3
    let s := s.setLink l { x with
      expect := (x.expect + 1) % 256, replays := 0, parts := if ended then kvDel x.parts vc else kvSet x.parts vc whole }
    .next (if ended then s.hjelMessage vc crossed whole else s)

/-- HJEL_LINK_UP (R358): training ends, and the peer's UNIT_ID is learned. -/
def execHjelLinkUp (link : Fin 4) (peer : Fin 16) (s : State) : Result :=
  let l := link.val
  when (s.on (Reg.PAIR_LINK_EN l) && !s.linkUp l && !s.dark) s
    ((((s.wr (Reg.PAIR_LINK_LSTATE l) 2).wr (Reg.PAIR_LINK_PEER l) peer.val).setLink l HjelLink.init).pairEvent 6)

/-- A link goes down and trains again while it is enabled (R358); the Hjel reference is lost with the route to the time master
(R373). -/
def State.linkDown (s : State) (l : Nat) : State :=
  let s := ((s.wr (Reg.PAIR_LINK_LSTATE l) (if s.on (Reg.PAIR_LINK_EN l) then 1 else 0)).setLink l HjelLink.init).pairEvent 6
  if s.timeMasterUnit = 0 ∨ (s.routeTo s.timeMasterUnit).isSome then s
  else if s.rd Reg.TB_STAT_ACTIVE_REF = refHJEL then s.loseRef false
  else { s with tb := { s.tb with refs := s.tb.refs.restart refHJEL } }

/-- HJEL_LINK_DOWN (R358): 8 replays of one flit, or 10 us without block lock. -/
def execHjelLinkDown (link : Fin 4) (noLock : Bool) (s : State) : Result :=
  when (s.linkUp link && (noLock || decide (8 ≤ (s.hjelLink link).replays))) s (s.linkDown link)

/-! ### Team slices (R376) -/

/-- TEAM_REVISION (R376): a member's revision 0 of the time master's epoch joins the team slice of its instant. -/
def execTeamRevision (unit : Fin 16) (rev : Revision) (s : State) : Result :=
  let t := rev.instant
  let made := s.stch.store.any (fun r => r.team && r.instant == t)
  when (s.teamMaster && s.partners.contains unit.val && !made && rev.rev == 0 && rev.epoch == s.epochAt t) s
    (let x := s.teamSlice t
     let s := s.setTeam t { x with parts := kvSet x.parts unit.val rev }
     if x.own.isSome then s.tryAssemble t else s)

/-- TEAM_WAIT_EXPIRY (R376): TEAM_WAIT_US after the time master's own revision 0. -/
def execTeamWaitExpiry (s : State) : Result :=
  match s.pair.team.find? (fun e => e.2.own.isSome && decide (e.2.ownAt + 1000 * s.rd Reg.PAIR_TEAM_TEAM_WAIT_US ≤ s.now)) with
  | some e => when s.teamMaster s (s.assemble e.1)
  | none => .next s

end Sys2Proof.Machine
end

