-- ==== Sys2Proof/Machine/Safe.lean ====
section
/-!
DEFINITION. Functional safety: the diagnostics that are not part of another block, the proof test and the periodic self-test
(spec/18).  The safe state itself stands in Diag.lean.
-/
namespace Sys2Proof.Machine
open Sys2Proof

/-- A safe-state reaction shown at the pins (R385). -/
def State.react (s : State) (cause : Nat) : State := (s.enterSafe cause).pinRegs

/-- A write anywhere in the SAFE block (R389): one of the first value of SAFE_FORCE arms the proof test, any other disarms it. -/
def State.safeWrite (s : State) (first : Bool) : State := { s with safety := { s.safety with armed := first } }

/-- SAFE_FORCE_WRITE (R389): the second value right after the first forces the safe state. -/
def execSafeForceWrite (value : BitVec 32) (s : State) : Result :=
  if !s.barOpen 0x1A001C then .next s else
  if value = 0xAF5E ∧ s.safety.armed then .next ((s.safeWrite false).react 0x11)
  else .next (s.safeWrite (value == 0x5AFE))

/-- LOCKSTEP_MISMATCH (R383). -/
def execLockstepMismatch (pair : Fin 2) (s : State) : Result := .next (s.react (1 + pair.val))

/-- WATCHDOG_EXPIRY (R383). -/
def execWatchdogExpiry (s : State) : Result := .next (s.react 0x03)

/-- The ns from one service of the watchdog to the next: within its window, as firmware chooses (R383, notes/assumptions/61.md). -/
def State.wdtInterval (s : State) (n : Nat) : Nat :=
  let lo := 1000 * s.cf Reg.SAFE_WDT_CFG_WIN_LO_US
  lo + Config.wdtService n % (1000 * s.cf Reg.SAFE_WDT_CFG_WIN_HI_US - lo + 1)

/-- Warden firmware, once it runs, services the watchdog and counts the service (R383, R394, R416). -/
def State.wdtWatch (s : State) : State :=
  if s.rd Reg.PWR_STAT_PHASE < 3 ∨ s.now < s.safety.wdtAt + s.wdtInterval (s.rd (Blk.safe.cnt C.SAFE_WDT_SERVICES)) then s
  else State.bump { s with safety := { s.safety with wdtAt := s.now } } .safe C.SAFE_WDT_SERVICES

/-- CLOCK_FAULT (R383). -/
def execClockFault (s : State) : Result := .next (s.react 0x04)

/-- SUPPLY_FAULT (R383, R468): RAIL_FLT shows the rail. -/
def execSupplyFault (rail : Fin 8) (s : State) : Result := .next ((s.orBit Reg.SAFE_MON_RAIL_FLT rail).react 0x05)

/-- TEMPERATURE_FAULT (R383, R393, R479): a new highest reading, in 0.01 degrees Celsius; event 211 above 110, the safe state
above 115. -/
def execTemperatureFault (tj : BitVec 16) (s : State) : Result :=
  let t := signed tj.toNat 16
  let s := if signed (s.rd Reg.SAFE_MON_TJ_MAX) 16 < t then s.wr Reg.SAFE_MON_TJ_MAX tj.toNat else s
  let s := if 11000 < t then s.raise 211 else s
  .next (if 11500 < t then s.react 0x06 else s)

/-- TB_PLAUS_CHECK (R66, R383): over one second the time base advanced more than 1 percent from 2 ns per tick, the allowance for
steps apart, in units of 10^-6 ns, or N read outside its range. -/
def execTbPlausCheck (advancePerTick : Nat) (s : State) : Result :=
  when (decide (advancePerTick < 1980000) || decide (2020000 < advancePerTick)) s
    (((s.wr Reg.TB_STAT_PLAUS 1).raise 56).react 0x0D)

/-- The self-tests that R388 repeats: all but those of the lockstep comparators, watchdog and monitors. -/
def periodicTests : Nat := 2 ^ 16 - 2 ^ 7

/-- PERIODIC_SELFTEST (R388): every PTEST_S seconds while slices are produced; bit k of `fail` tells that the test of the
diagnostic with CAUSE k failed. -/
def execPeriodicSelftest (fail : BitVec 16) (s : State) : Result :=
  when (s.producing && decide (s.safety.ptestAt + nsPerS * s.cf Reg.SAFE_CTL_PTEST_S ≤ s.now)) s
    (let f := fail.toNat &&& periodicTests
     let s := State.bump { s with safety := { s.safety with ptestAt := s.now } } .safe C.SAFE_PTESTS_RUN
     let s := s.wr Reg.SAFE_TEST_STAT_FAIL ((s.rd Reg.SAFE_TEST_STAT_FAIL &&& (2 ^ 16 - 1 - periodicTests)) ||| f)
     if f = 0 then s else (s.raise 210).react 0x10)

end Sys2Proof.Machine
end

