-- ==== Sys2Proof/Machine/Pwr.lean ====
section
/-!
DEFINITION. Reset, the start, block restart and Bivouac (spec/20), and the activation, trial, commit and fallback of firmware
(R441 to R446).
-/
namespace Sys2Proof.Machine
open Sys2Proof

/-! ### Resets (R414, R415) -/

/-- Register fields that every reset keeps: those of the battery domain (R414), and the result that the directory keeps (R449). -/
def keptFields : List Fld :=
  [Reg.KEY_TAMPER_UNPOWERED, Reg.KEY_TAMPER_SRC, Reg.KEY_ZTIME_S, Reg.KEY_ZTIME_NS, Reg.KEY_ZINFO_REASON, Reg.KEY_ZINFO_COUNT,
    Reg.UPD_STAT_LAST_RESULT]

/-- How long the trial timer has run (R442). -/
def State.trialElapsed (s : State) : Nat :=
  if s.rd Reg.UPD_STAT_STATE = 4 then s.upd.trialUsed + (s.now - s.upd.trialFrom) else s.upd.trialUsed

/-- What every reset leaves (R414): the battery domain unless its memory is lost (R409), fuses, boot flash, the level of the WAKE
pin, and whether a 10 MHz reference is there; everything else starts afresh.  PHASE reads RESET. -/
def State.restart (s : State) (lost : Bool) : State :=
  let r := State.reset
  let kept : FMap := s.dev.filter (fun e => keptFields.any (fun f => f.key == e.1) && (!lost || e.1 == Reg.UPD_STAT_LAST_RESULT.key))
  let ifs : KV FslIf := s.fsl.ifs.map (fun e => (e.1, { FslIf.init with counter := e.2.counter, kcv := e.2.kcv }))
  let t : State := { r with
    pending := s.pending, out := s.out, freeCtr := s.freeCtr, dev := kept
    tb := { r.tb with ref10mPresent := s.tb.ref10mPresent }
    slots := if lost then [] else s.slots
    pair := { r.pair with epoch := if lost then 0 else s.pair.epoch }
    key := { s.key with
      tampCfg := if lost then tampCfgLost else s.key.tampCfg, att := none, attWait := [], due := s.key.due && !lost }
    fsl := { r.fsl with ifs := if lost then [] else ifs.filter (fun e => decide (e.2 ≠ FslIf.init)) }
    upd := { r.upd with
      dir := s.upd.dir, seq := s.upd.seq, copy := s.upd.copy, images := s.upd.images, stores := s.upd.stores, fell := s.upd.fell
      trialUsed := s.trialElapsed } }
  ((t.wrB Reg.KEY_STAT_RAM_LOST lost).wr Reg.PWR_STAT_WAKE_LVL (s.rd Reg.PWR_STAT_WAKE_LVL)).wr Reg.PWR_STAT_PHASE 0

/-- A power-on reset (R414), with its RST_CAUSE. -/
def State.powerOn (s : State) (cause : Nat) (lost : Bool) : State := (s.restart lost).wr Reg.PWR_STAT_RST_CAUSE cause

/-- A system reset (R414): it also keeps the PCIe link and configuration space, and the cause and instant of the safe state. -/
def State.systemReset (s : State) (cause : Nat) : State :=
  let r := s.restart false
  let r := { r with hif := { r.hif with linkUp := s.hif.linkUp, busMaster := s.hif.busMaster } }
  let r := r.wr Reg.SAFE_STAT_CAUSE (s.rd Reg.SAFE_STAT_CAUSE)
  let r := (r.wr Reg.SAFE_ENTRY_TIME_S (s.rd Reg.SAFE_ENTRY_TIME_S)).wr Reg.SAFE_ENTRY_TIME_NS (s.rd Reg.SAFE_ENTRY_TIME_NS)
  r.wr Reg.PWR_STAT_RST_CAUSE cause

/-- POWER_ON_RESET (R409, R414): PORST_N low; `ramLost` tells whether VBAT_KEY was absent too. -/
def execPowerOnReset (ramLost : Bool) (s : State) : Result := .next (s.powerOn 0 ramLost)

/-- BROWN_OUT (R414, R468). -/
def execBrownOut (ramLost : Bool) (s : State) : Result := .next (s.powerOn 1 ramLost)

/-- A write anywhere in the PWR block (R415): one of the first value of PWR_RST arms the sequence, any other disarms it. -/
def State.pwrWrite (s : State) (first : Bool) : State := { s with pwr := { s.pwr with armed := first } }

/-- PWR_RST_WRITE (R415): the second value right after the first resets the system. -/
def execPwrRstWrite (value : BitVec 32) (s : State) : Result :=
  .next (if s.pwr.armed ∧ value = 0xA7E5 then s.systemReset 2 else s.pwrWrite (value == 0x5E7A))

/-! ### The start (R416 to R419, R442, R444) -/

/-- The device falls back (R444): the trial slot is BAD and TRIAL cleared, and the committed slot boots; the cause shows when
firmware starts. -/
def State.fallBack (s : State) (code : Nat) : State :=
  let d := s.upd.dir
  let d := d.slot d.trial 2 (if d.trial = 0 then d.ver0 else d.ver1)
  let s := (s.wr Reg.PWR_STAT_BOOT_SLOT d.active).wr Reg.UPD_STAT_STATE 0
  State.writeDir { s with upd := { s.upd with fell := some code } } { d with trial := 0xFF, reqHost := false, reqRun := false, attempted := false }

/-- The boot ROM chooses the slot (R442, R444): a trial not yet attempted starts with its timer; an attempted one falls back, its
cause unknown where a power loss ended it. -/
def State.bootChoice (s : State) : State :=
  let d := s.upd.dir
  if d.trial = 0xFF then (s.wr Reg.PWR_STAT_BOOT_SLOT d.active).dirShow
  else if d.attempted then
    match s.upd.fell with
    | some c => s.fallBack c
    | none => let (n, s) := s.free; s.fallBack (n % 256)
  else
    let s := (s.wr Reg.PWR_STAT_BOOT_SLOT d.trial).wr Reg.UPD_STAT_STATE 4
    State.writeDir { s with upd := { s.upd with trialUsed := 0, trialFrom := s.now } } { d with attempted := true }

/-- The registers that fuses and the battery domain give (R356, R398, R407, R413, R449). -/
def State.readFuses (s : State) : State :=
  let s := (s.wr Reg.GLB_LCS_STATE s.key.lcs).wr Reg.KEY_DEVID_DEVID s.key.devid
  let s := (s.wr Reg.UPD_SEC_SEC_VER s.key.secVer).wr Reg.UPD_SEC_KEY_REVOKED s.key.revoked
  let tamp (c : Cfg) : Cfg :=
    let v := s.key.tampCfg
    (((c.setFld Reg.KEY_TAMP_CFG_FILT_US (bits v 24 8)).setFld Reg.KEY_TAMP_CFG_INT_EN (bits v 16 4)).setFld
      Reg.KEY_TAMP_CFG_POL (bits v 4 4)).setFld Reg.KEY_TAMP_CFG_EN (bits v 0 4)
  let s := { s with act := tamp s.act, shd := tamp s.shd }
  (s.wr Reg.KEY_STAT_ROOT s.rootCode).setClaim s.pair.epoch

/-- The key store starts (R399, R408, R409): event 230 where its memory was lost, the events of a trip without supplies, and
QUARANTINE where a source is found latched. -/
def State.keyStoreStarts (s : State) : State :=
  let (n, s) := s.free
  let s := (s.wr Reg.KEY_DBG_NONCE_NONCE n).keyShow
  let s := if s.on Reg.KEY_STAT_RAM_LOST then s.raise 230 else s
  let s := if s.key.due then (State.raise { s with key := { s.key with due := false } } 225).raise 226 else s
  if s.rd Reg.KEY_TAMPER_SRC = 0 then s else s.wr Reg.GLB_LCS_QUARANTINE 1

/-- RESET_RELEASE (R416): the boot ROM reads fuses and directory and starts the key store. -/
def execResetRelease (s : State) : Result :=
  when (decide (s.rd Reg.PWR_STAT_PHASE ≤ 1)) s
    ((((s.wr Reg.PWR_STAT_PHASE 2).readFuses).keyStoreStarts).bootChoice)

/-- The image of a slot, where it verifies (R436). -/
def State.bootable (s : State) (slot : Nat) : Option Image :=
  match kvGet? s.upd.images slot with
  | some i => if s.verify i = 0 then some i else none
  | none => none

/-- The numbers of all queues. -/
def allQueues : List Nat := (List.range 0x800).filter queueExists

/-- Migration at the first start of an image that writes a newer store (R443, R446): the converted copy is being written, or the
condition of a trial is met without one. -/
def State.migrate (s : State) (i : Image) : State :=
  match (if s.upd.dir.store = 0xFF then none else kvGet? s.upd.stores s.upd.dir.store) with
  | none => s.wr Reg.UPD_TRIAL_CFG_MET 1
  | some c =>
    if i.cfgVer.toNat ≤ c.ver then s.wr Reg.UPD_TRIAL_CFG_MET 1
    else if c.ver < i.cfgMin.toNat then s
    else { s with upd := { s.upd with saving := some (none, s.otherStore, { c with ver := i.cfgVer.toNat }) } }

/-- Firmware that starts after a fallback shows its cause (R444, R449). -/
def State.showFallback (s : State) : State :=
  match s.upd.fell with
  | some c => State.updEvent ((State.bump { s with upd := { s.upd with fell := none } } .upd C.UPD_FALLBACKS).wr
      Reg.UPD_STAT_LAST_RESULT c) 6
  | none => s

/-- Warden firmware of image `i` starts from slot `k` (R306, R401, R416, R438, R444, R446). -/
def State.firmwareStarts (s : State) (k : Nat) (i : Image) : State :=
  let s := (s.wr Reg.PWR_STAT_BOOT_SLOT k).wr Reg.PWR_STAT_PHASE 4
  let s := State.wr { s with upd := { s.upd with run := some i } } Reg.UPD_VER_RUN_FW_VER i.fwVer.toNat
  let s := (((s.setIdle allQueues).deriveAtt).dirShow).showFallback
  if s.rd Reg.UPD_STAT_STATE ≠ 4 then (s.migrate i).wr Reg.UPD_TRIAL_CFG_MET 0
  else
    let s := (s.updEvent 4).migrate i
    (s.wrB Reg.UPD_TRIAL_HOST_MET (!s.upd.dir.reqHost)).wrB Reg.UPD_TRIAL_RUN_MET (!s.upd.dir.reqRun)

/-- LOAD_COMPLETE (R416, R436, R442, R444, R447): the chosen slot verifies and its firmware starts; a trial slot that does not
verify falls back, a committed one that does not gives way to the other; without either the device is in NO_IMAGE. -/
def execLoadComplete (s : State) : Result :=
  if s.rd Reg.PWR_STAT_PHASE ≠ 2 then .next s else
  let s := if s.rd Reg.UPD_STAT_STATE = 4 ∧ (s.bootable (s.rd Reg.PWR_STAT_BOOT_SLOT)).isNone then s.fallBack 0x0E else s
  let k := s.rd Reg.PWR_STAT_BOOT_SLOT
  match s.bootable k, s.bootable (1 - k) with
  | some i, _ => .next (s.firmwareStarts k i)
  | none, some i => .next (s.firmwareStarts (1 - k) i)
  | none, none => .next (s.wr Reg.PWR_STAT_PHASE 9)

/-- A start-up self-test failure (R387). -/
def State.selftestFails (s : State) : State := (s.raise 210).react 0x0F

/-- The start of a trial ends in fallback (R444): the cause is kept for the next start. -/
def State.trialFails (s : State) (code : Nat) : State := State.systemReset { s with upd := { s.upd with fell := some code } } 3

/-- The engines whose check failed execute nothing, the others anything (R418). -/
def State.microcode (s : State) (fail : Nat) : State :=
  (List.range 64).foldl (fun s e => s.setEngine e { s.engine e with failed := bitOf fail e }) s

/-- MICROCODE_LOADED (R387, R388, R418): bit e of `fail` tells that the check of engine e failed, which counts as a start-up self-test
failure, at a wake as a periodic one. -/
def execMicrocodeLoaded (fail : BitVec 64) (s : State) : Result :=
  let t := s.microcode fail.toNat
  match s.rd Reg.PWR_STAT_PHASE with
  | 4 => .next ((if fail = 0 then t else t.selftestFails).wr Reg.PWR_STAT_PHASE 5)
  | 11 => .next (if fail = 0 then t else (t.raise 210).react 0x10)
  | _ => .next s

/-- SELFTEST_COMPLETE (R387, R408, R416, R443, R444): bit k of `fail` tells that the test of the diagnostic with CAUSE k failed. -/
def execSelftestComplete (fail : BitVec 16) (s : State) : Result :=
  if s.rd Reg.PWR_STAT_PHASE ≠ 5 then .next s else
  let s := s.wr Reg.SAFE_TEST_STAT_FAIL fail.toNat
  let s := if fail = 0 then s else s.selftestFails
  let ok := fail == 0 && !(s.safe && s.rd Reg.SAFE_STAT_CAUSE == 0x0F)
  if s.rd Reg.UPD_STAT_STATE = 4 ∧ !ok then .next (s.trialFails 0x0D) else
  let s := s.wrB Reg.SAFE_STAT_SELFTEST_OK ok
  if s.on Reg.GLB_LCS_QUARANTINE then .next (s.wr Reg.PWR_STAT_PHASE 8) else
  .next ((s.wr Reg.PWR_STAT_PHASE 6).wrB Reg.UPD_TRIAL_START_MET (s.rd Reg.UPD_STAT_STATE == 4 && ok && !s.safe))

/-! ### Block restart (R420) -/

/-- The unit codes of R420. -/
def restartUnit (u : Nat) : Bool :=
  decide (u < 0x32) || u == 0x40 || u == 0x41 || u == 0x42 || (decide (0x50 ≤ u) && decide (u < 0x54))

/-- The queues whose consumer is a unit, where the spec names them (R304, R306). -/
def unitQueues (u : Nat) : List Nat :=
  if u < 0x30 then (List.range 8).map (fun q => 0x30 + 8 * u + q)
  else if u = 0x40 then (List.range 0x80).map (fun q => 0x200 + q)
  else if 0x50 ≤ u ∧ u < 0x54 then (List.range 16).map (fun q => 0x280 + 16 * (u - 0x50) + q)
  else []

/-- Received frames of a port still in cells are discarded. -/
def State.discardReceived (s : State) (n : Nat) : State :=
  let s := s.setPrt n { s.prt n with rxCells := 0 }
  { s with
    port := { s.port with
      inq := s.port.inq.filter (fun f => f.port != n), rxq := s.port.rxq.filter (fun f => f.port != n) }
    ing := { s.ing with parsed := s.ing.parsed.map (fun p => if p.port = n then { p with cells := 0 } else p) } }

/-- A transceiver is in reset: what was in progress on its interface is lost (R268). -/
def State.fslDown (s : State) (i : Nat) : State :=
  let s := ((s.wr (Reg.FSL_STAT_IF_UP i) 0).wr (Reg.FSL_STAT_BEACONING i) 0)
  s.setFslIf i { s.fslIf i with air := none, polled := [], able := none }

/-- A unit stops and returns to reset state: what R420 says is lost. -/
def State.stopUnit (s : State) (u : Nat) : State :=
  if u < 0x30 then ((s.dropLink u).discardQueued u).discardReceived u
  else if u < 0x32 then (s.fslDown (u - 0x30)).dlDrop (fun d => senIf d.sensor == u - 0x30)
  else if u = 0x40 then s.restartHif
  else if u = 0x41 then s.pub.items.foldl State.dropItem s
  else if u = 0x42 then s.capBivouac
  else if s.linkUp (u - 0x50) then s.linkDown (u - 0x50)
  else s

/-- BLOCK_RESTART (R306, R415, R420): a write of PWR_BLK_RST with GO 1; discarded while a restart runs (BUSY_WR) or for a reserved
UNIT. -/
def execBlockRestart (word : BitVec 32) (s : State) : Result :=
  let s := s.pwrWrite false
  let u := word.toNat % 256
  if !bitOf word.toNat 31 then .next s
  else if s.on Reg.PWR_BLK_STAT_BUSY then .next (s.wr Reg.PWR_BLK_STAT_BUSY_WR 1)
  else if !restartUnit u then .next s
  else
    let s := State.wr { s with pwr := { s.pwr with unit := some u } } Reg.PWR_BLK_STAT_BUSY 1
    .next (((s.wr Reg.PWR_BLK_STAT_UNIT u).setIdle (distinct (s.sched.idle ++ unitQueues u))).stopUnit u)

/-- BLOCK_RESTART_DONE (R268, R306, R420): the unit resumes under the active configuration. -/
def execBlockRestartDone (s : State) : Result :=
  match s.pwr.unit with
  | none => .next s
  | some u =>
    let s := State.wr { s with pwr := { s.pwr with unit := none } } Reg.PWR_BLK_STAT_BUSY 0
    let s := s.setIdle (s.sched.idle.filter (fun q => !(unitQueues u).contains q))
    .next (if 0x30 ≤ u ∧ u < 0x32 ∧ s.cfOn (Reg.FSL_CTL_EN (u - 0x30)) then
        ((s.wr (Reg.FSL_STAT_IF_UP (u - 0x30)) 1).fslEvent 0 (u - 0x30)).fslWatch
      else s)

/-! ### Entry to Bivouac (R422, R423) -/

/-- A wake source other than the timed wake is enabled (R427). -/
def State.wakeEnabled (s : State) : Bool :=
  s.cfOn Reg.PWR_WAKE_CFG_PIN_EN || !s.wakePorts.isEmpty || s.cf Reg.PWR_WAKE_CFG_ALM_EN != 0

/-- What keeps a SLEEP out (R422): a CINCH, a scheduled activation, or a TABLE_LOAD, KEY_OP, UPDATE_STAGE or ATTEST in progress. -/
def State.sleepBusy (s : State) : Bool :=
  s.cinching || s.upd.act.isSome || s.hif.running.any (fun r => r.1 == 1 || r.1 == 5 || r.1 == 6 || r.1 == 9)

/-- SLEEP (R422 to R424): its checks in order; a wake time past within its grace completes late without Bivouac. -/
def execSleep (tag : BitVec 16) (timed : Bool) (wakeS : BitVec 48) (wakeNs : BitVec 32) (grace : BitVec 16) (s : State) : Result :=
  let t := tag.toNat
  let w := instantOf wakeS.toNat wakeNs.toNat
  s.served .sleep tag (
    if s.on Reg.PAIR_CTL_ENABLE then .next (s.mgmtDone .sleep t .notPermitted)
    else if s.sleepBusy then .next (s.mgmtDone .sleep t .busy)
    else if !timed && !s.wakeEnabled then .next (s.mgmtDone .sleep t .invalid)
    else if timed && decide (s.now + 2592000 * nsPerS < w) then .next (s.mgmtDone .sleep t .invalid)
    else
      match (if timed then s.scheduleAt w grace.toNat else some (s.now, false)) with
      | none => .next (s.mgmtDone .sleep t .past)
      | some (due, true) =>
        .next (State.mgmtStart { s with pwr := { s.pwr with late := s.pwr.late ++ [(t, due)] } } .sleep t)
      | some (_, false) =>
        let soon := s.now + 1000000
        let b := if s.producing then gridFrom s.act.fs soon else soon
        let x : Sleep := ⟨t, if timed then some w else none, b, .entering, none, false⟩
        .next ((State.mgmtStart { s with pwr := { s.pwr with sleep := some x } } .sleep t).wr Reg.PWR_STAT_PHASE 10))

/-- SLEEP_LATE_COMPLETION (R422): the slice boundary of a late SLEEP is reached. -/
def execSleepLateCompletion (s : State) : Result :=
  match s.pwr.late.find? (fun x => decide (x.2 ≤ s.now)) with
  | none => .next s
  | some x => .next (State.mgmtDone { s with pwr := { s.pwr with late := s.pwr.late.erase x } } .sleep x.1 .late)

/-- The actions at an entry boundary `b` (R423): the Stitcher stops, with pending revisions released and every slice closed; alarms,
outputs, capture and queued downlinks stop; a refactorisation is abandoned.  An OPEN slice before `b` releases revision 0 first, with
FINAL (DEDUCED: R147 has no other way from OPEN to CLOSED, notes/assumptions/64.md). -/
def State.entryActions (s : State) (b : Instant) : State :=
  let s := (s.stch.slices.filter (fun x => x.phase == .gathering)).foldl State.releaseNext s
  let s := (s.openSlices.filter (fun x => decide (x.instant < b))).foldl (fun s x => s.release0 { x with final := true }) s
  let s := State.stopProducing { s with stch := { s.stch with slices := [] } } b
  let s := State.wr { s with lse := { s.lse with running := none, held := false, staged := none } } Reg.LSE_STAT_REFACTOR_BUSY 0
  (((s.setPins).gooseSilence).capBivouac).dlDrop (fun _ => true)

/-- The SLEEP in progress is replaced. -/
def State.setSleep (s : State) (x : Option Sleep) : State := { s with pwr := { s.pwr with sleep := x } }

/-- BIVOUAC_ENTRY (R423): the entry boundary is reached. -/
def execBivouacEntry (s : State) : Result :=
  match s.pwr.sleep with
  | none => .next s
  | some x =>
    when (x.stage == .entering && decide (x.boundary ≤ s.now)) s
      (((s.setSleep (some { x with stage := .draining })).wrInstant Reg.PWR_ENTRY_TIME_S Reg.PWR_ENTRY_TIME_NS x.boundary).entryActions
        x.boundary)

/-- The drain is over `DRAIN_MS` after an entry boundary. -/
def State.drained (s : State) (b : Instant) : Bool := decide (b + 1000000 * s.cf Reg.PWR_CFG_DRAIN_MS ≤ s.now)

/-- Entry counts as loss of the active reference (R51, R426); the event of a change is raised at wake.  Also tells whether STATE
changed. -/
def State.sleepRef (s : State) : Bool × State :=
  let old := s.tbState
  let s := { s with tb := { s.tb with refs := s.tb.refs.restart (s.rd Reg.TB_STAT_ACTIVE_REF) } }
  let s := s.wr Reg.TB_STAT_ACTIVE_REF 0
  if old ≠ tbLOCKED ∧ old ≠ tbACQUIRING then (false, s) else
  let new := if s.tb.everLocked then tbHOLDOVER else tbFREE
  let s := { s with tb := { s.tb with
    leftLocked := if old = tbLOCKED then some s.now else s.tb.leftLocked, lockCount := 0
    holdWrite := new == tbHOLDOVER && !s.on Reg.TB_CTL_OWNER } }
  (true, (s.wr Reg.TB_STAT_STATE new).setTq)

/-- What the analysis dies, PHE, the other ports and the links lose when their power gates open (R421, R423). -/
def State.gatesOpen (s : State) : State :=
  let s := ((List.range 48).filter (fun n => !s.wakePorts.contains n)).foldl State.dropLink s
  let s := (List.range 48).foldl State.discardReceived s
  let s := (List.range 4).foldl (fun s l => if s.linkUp l then s.linkDown l else s) s
  let s := (s.fslDown 0).fslDown 1
  let chans : KV PheChan := s.phe.chans.map (fun e => (e.1, { e.2 with samples := [], next := none, done := [], runs := [] }))
  let sets : KV OscSet := s.osc.sets.map (fun e => (e.1, { e.2 with run := none }))
  let s := { s with
    ing := { s.ing with parsed := [] }
    phe := ⟨[], chans⟩
    stch := { s.stch with inbox := [], work := [] }
    osc := { s.osc with sets }
    isl := { s.isl with reclust := none, cluDue := none, compare := [] }
    sched := { s.sched with
      runs := [], engines := [], clusters := [], aff := [], chains := [], queues := s.sched.queues.filter (fun e => decide (e.1 < 0x400)) }
    cap := { s.cap with tout := [], xfire := none, cal := none }
    tb := { s.tb with ppsOut := false } }
  (s.wr Reg.CAP_CAL_BUSY 0).wr Reg.CAP_X_XFIRE_IN 0

/-- BIVOUAC_DRAIN_END (R423, R427): undelivered items drop, pending SCHEDULEs complete, and the device is in Bivouac; where a wake
event fell during entry it wakes at once. -/
def execBivouacDrainEnd (s : State) : Result :=
  match s.pwr.sleep with
  | none => .next s
  | some x =>
    if x.stage ≠ .draining ∨ !s.drained x.boundary then .next s else
    let s := s.pub.items.foldl State.dropItem s
    let s := s.hif.schedules.foldl (fun s c => s.mgmtDone .schedule c.tag .degraded) { s with hif := { s.hif with schedules := [] } }
    let (changed, s) := s.gatesOpen.sleepRef
    let awake := x.event.isSome
    let s := s.setSleep (some { x with stage := if awake then .waking false else .asleep, changed })
    .next (if awake then s.wr Reg.PWR_STAT_PHASE 11 else s)

/-! ### Wake events (R425, R427) -/

/-- How long `n` crystal edges last (R425). -/
def State.edgesNs (s : State) (n : Nat) : Nat :=
  let ppb := if s.on Reg.PWR_AON_CAL_VALID then signed (s.rd Reg.PWR_AON_CAL_PPB) 24 else 0
  30517578125000 * n / ((1000000000 : Int) + ppb).toNat

/-- The instant of crystal edge `n` of a Bivouac: projected from the hand-over (R425), or the present one before it. -/
def State.edgeInstant (s : State) (x : Sleep) (n : Nat) : Instant :=
  match x.stage with
  | .entering => s.now
  | .draining => s.now
  | _ => s.now + s.edgesNs n

/-- The number by which a wake event is known: its crystal edge, or the instant while the device still enters. -/
def State.edgeId (s : State) (x : Sleep) (n : Nat) : Nat :=
  match x.stage with
  | .entering => s.now
  | .draining => s.now
  | _ => n

/-- A wake event of reason `r` at crystal edge `n` (R424, R427, R429): the first is latched and recorded, and the wake sequence
starts unless entry still runs; a cause of the same always-on cycle joins it, and REASON is the lowest. -/
def State.wake (s : State) (n r : Nat) : State :=
  match s.pwr.sleep with
  | none => s
  | some x =>
    let id := s.edgeId x n
    let show_ (s : State) (reason causes : Nat) : State :=
      (s.wr Reg.PWR_WAKE_INFO_REASON reason).wr Reg.PWR_WAKE_INFO_CAUSES causes
    match x.event with
    | some (e, reason, causes) =>
      if e ≠ id then s else
      let c := causes ||| 2 ^ (r - 1)
      show_ (s.setSleep (some { x with event := some (e, min reason r, c) })) (min reason r) c
    | none =>
      let s := (show_ s r (2 ^ (r - 1))).wrInstant Reg.PWR_WAKE_TIME_S Reg.PWR_WAKE_TIME_NS (s.edgeInstant x n)
      let asleep := x.stage == .asleep
      let s := s.setSleep (some { x with event := some (id, r, 2 ^ (r - 1)), stage := if asleep then .waking false else x.stage })
      if asleep then s.wr Reg.PWR_STAT_PHASE 11 else s

/-- The device is in Bivouac or enters it. -/
def State.sleeping (s : State) : Bool := s.pwr.sleep.isSome

/-- WAKE_PIN (R427): an edge on WAKE, filtered for 1 ms; the selected one wakes the device. -/
def execWakePin (rising : Bool) (edges : Nat) (s : State) : Result :=
  let t := s.wrB Reg.PWR_STAT_WAKE_LVL rising
  .next (if s.cfOn Reg.PWR_WAKE_CFG_PIN_EN && s.cfOn Reg.PWR_WAKE_CFG_PIN_EDGE == !rising then t.wake edges 2 else t)

/-- WAKE_PATTERN_MATCH (R85, R427): a frame matches an enabled pattern on an enabled wake port. -/
def execWakePatternMatch (port : Fin 48) (pattern : Fin 8) (edges : Nat) (s : State) : Result :=
  when (s.sleeping && s.wakePorts.contains port.val && s.cfOn (Reg.PORT_WAKE_EN port pattern)) s
    (let before := match s.pwr.sleep with | some x => x.event | none => none
     let t := s.wake edges 3
     let now_ := match t.pwr.sleep with | some x => x.event | none => none
     if before = now_ then t else (t.wr Reg.PWR_WAKE_INFO_PORT port).wr Reg.PWR_WAKE_INFO_PATTERN pattern)

/-- The first crystal edge at or after instant `w` is `n`; before Bivouac the present moment is judged. -/
def State.firstEdge (s : State) (x : Sleep) (w : Instant) (n : Nat) : Bool :=
  decide (w ≤ s.edgeInstant x n)
    && (x.stage == .entering || x.stage == .draining || n == 0 || decide (s.edgeInstant x (n - 1) < w))

/-- TIMED_WAKE (R427). -/
def execTimedWake (edges : Nat) (s : State) : Result :=
  match s.pwr.sleep with
  | some x =>
    match x.wake with
    | some w => when (s.firstEdge x w edges) s (s.wake edges 4)
    | none => .next s
  | none => .next s

/-- The first instant of armed alarm `k` at or after the end of entry (R65, R427). -/
def State.almFrom (s : State) (k : Nat) : Option Instant :=
  match kvGet? s.tb.almNext k with
  | none => none
  | some (t, _) =>
    let p := s.rd (Reg.TB_ALM_PERIOD_NS k)
    if s.now ≤ t then some t else if p = 0 then none else some (t + p * ((s.now - t + p - 1) / p))

/-- TB_ALM_WAKE (R427): an alarm with its ALM_EN bit set reaches its instant in Bivouac. -/
def execTbAlmWake (k : Fin 4) (edges : Nat) (s : State) : Result :=
  match s.pwr.sleep, s.almFrom k with
  | some x, some w =>
    let bivouac := x.stage == .asleep || x.stage == .waking false
    when (bivouac && bitOf (s.cf Reg.PWR_WAKE_CFG_ALM_EN) k && s.firstEdge x w edges) s (s.wake edges 5)
  | _, _ => .next s

/-! ### Resumption (R424 to R429) -/

/-- The time base is loaded at crystal edge `n` (R425, R426): TB_ERR grows with the time asleep, and event 48 is raised where STATE
changed at entry. -/
def State.loadTime (s : State) (x : Sleep) (n : Nat) : State :=
  let d := s.edgesNs n
  let s := { s with tb := { s.tb with ns := (s.now + d) % instantModulus, frac := 0, holdNext := s.now + d + nsPerS } }
  let grown := s.rd Reg.TB_ERR_ERR_NS + s.cf Reg.PWR_CFG_AON_PPB * ((d + nsPerS - 1) / nsPerS)
  let s := (s.wr Reg.TB_ERR_ERR_NS (min 0xFFFFFFFF grown)).setTq
  if x.changed then s.raise 48 else s

/-- Alarms whose instants passed in Bivouac fire once, LATE where they do not wake the device (R65, R427). -/
def State.lateAlarms (s : State) : State :=
  (List.range 4).foldl (fun s k =>
    if s.almDue k then s.almFire k (!bitOf (s.cf Reg.PWR_WAKE_CFG_ALM_EN) k) else s) s

/-- PHE, the timed graphs and the Stitcher go on from the resumption instant (R133, R429). -/
def State.resumeWork (s : State) : State :=
  let first := gridFrom s.act.fs s.now
  let s := s.act.pheChannels.foldl (fun s e => s.setPheChan e.1 { s.pheChan e.1 with next := some first }) s
  let timed : KV Instant := s.sched.timedNext.map (fun e =>
    let p := (s.act.tab 18 e.1).dirPeriod
    (e.1, if e.2 < s.now ∧ p ≠ 0 then e.2 + p * ((s.now - e.2 + p - 1) / p) else e.2))
  let s := { s with sched := { s.sched with timedNext := timed } }
  let s := [0, 1].foldl (fun s i => if s.cfOn (Reg.FSL_CTL_EN i) then s.wr (Reg.FSL_STAT_IF_UP i) 1 else s) s
  let s := if s.cfOn Reg.STCH_CTL_EN then s.startProducing s.now else s
  (s.fslWatch).setPins

/-- The Stitcher produces again, PHASE reads RUNNING and SLEEP completes (R424, R429). -/
def State.resume (s : State) (x : Sleep) (fail : Nat) : State :=
  let s := s.setSleep none
  let s := if fail = 0 then s
    else ((s.wr Reg.SAFE_TEST_STAT_FAIL (s.rd Reg.SAFE_TEST_STAT_FAIL ||| fail)).raise 210).react 0x10
  let s := ((s.setIdle []).wr Reg.PWR_STAT_PHASE 7).resumeWork
  let s := s.lateAlarms
  let (reason, causes) := match x.event with | some (_, r, c) => (r, c) | none => (0, 0)
  s.mgmtDone .sleep x.tag .ok
    (reason + 2 ^ 8 * causes + 2 ^ 32 * (s.now % nsPerS) + 2 ^ 64 * (s.now / nsPerS % 2 ^ 32))

/-- RESUMPTION (R388, R418, R425 to R429): `edges` crystal edges after the hand-over the time base is loaded; an image that does
not equal its measurement resets the system; with WAIT_LOCK the resumption waits for LOCKED; bit k of `fail` tells that the
injection test of the diagnostic with CAUSE k failed. -/
def execResumption (edges : Nat) (imageOk : Bool) (fail : BitVec 16) (s : State) : Result :=
  match s.pwr.sleep with
  | none => .next s
  | some x =>
    let waits (s : State) : Bool := s.cfOn Reg.PWR_CFG_WAIT_LOCK && s.tbState != tbLOCKED
    match x.stage with
    | .waking false =>
      if !imageOk then .next (s.systemReset 4) else
      let s := s.loadTime x edges
      if waits s then .next (s.setSleep (some { x with stage := .waking true })) else .next (s.resume x fail.toNat)
    | .waking true => if waits s then .next s else .next (s.resume x fail.toNat)
    | _ => .next s

/-- AON_CALIBRATE (R425): every 10 s while LOCKED. -/
def execAonCalibrate (ppb : BitVec 24) (s : State) : Result :=
  when (s.tbState == tbLOCKED && decide (s.pwr.calAt + 10 * nsPerS ≤ s.now) && !s.dark) s
    (((State.wr { s with pwr := { s.pwr with calAt := s.now } } Reg.PWR_AON_CAL_PPB ppb.toNat)).wr Reg.PWR_AON_CAL_VALID 1)

/-! ### Tamper (R407, R408) -/

/-- A tamper source is enabled (R407). -/
def State.tamperOn (s : State) (src : Nat) : Bool :=
  if src < 4 then bitOf s.key.tampCfg src else s.key.lcs == 3 || bitOf s.key.tampCfg (16 + src - 4)

/-- TAMPER_TRIP (R407, R408): the source is latched and the key store zeroized.  `unpowered`: with the main supplies absent, in
which the device is held in reset; the trip during the start leads to QUARANTINE, in Bivouac to a wake at crystal edge `edges`. -/
def execTamperTrip (src : Fin 8) (unpowered : Bool) (edges : Nat) (s : State) : Result :=
  let ph := s.rd Reg.PWR_STAT_PHASE
  if !s.tamperOn src || (unpowered && ph != 0) then .next s else
  let s := s.orBit Reg.KEY_TAMPER_SRC src
  let s := if unpowered then (s.wr Reg.KEY_TAMPER_UNPOWERED 1).zeroize 1 true else (s.zeroize 1 false).raise 226
  if 1 ≤ ph ∧ ph ≤ 5 then .next (s.wr Reg.GLB_LCS_QUARANTINE 1)
  else if ph = 10 then .next (s.wake edges 1)
  else .next s

/-! ### Activation, trial and commit (R441 to R444) -/

/-- ACTIVATION (R423, R441): at the activation instant the entry actions run; when the drain is over the directory names the trial
and the system resets. -/
def execActivation (s : State) : Result :=
  match s.upd.act with
  | none => .next s
  | some (t, flags) =>
    if !s.upd.stopping then
      when (decide (t ≤ s.now)) s (State.entryActions { s with upd := { s.upd with stopping := true } } t)
    else if !s.drained t then .next s
    else
      let src := s.rd Reg.UPD_STAT_SOURCE
      let s := s.writeDir { s.upd.dir with trial := s.otherSlot, attempted := false, reqHost := bitOf flags 0, reqRun := bitOf flags 1 }
      .next ((s.systemReset 3).wr Reg.UPD_STAT_SOURCE src)

/-- The store copy that a commit makes current (R443, R446): the migrated one, where one was written. -/
def State.migratedStore (s : State) : Nat :=
  match kvGet? s.upd.stores s.upd.dir.store, s.upd.run with
  | some c, some i => if s.upd.dir.store ≠ 0xFF ∧ c.ver < i.cfgVer.toNat then s.otherStore else s.upd.dir.store
  | _, _ => s.upd.dir.store

/-- TRIAL_COMMIT (R443): every condition is met. -/
def execTrialCommit (s : State) : Result :=
  let met := s.on Reg.UPD_TRIAL_START_MET && s.on Reg.UPD_TRIAL_CFG_MET && s.on Reg.UPD_TRIAL_HOST_MET && s.on Reg.UPD_TRIAL_RUN_MET
  let d := s.upd.dir
  let ver (k : Nat) : Nat := if k = 0 then d.ver0 else d.ver1
  let d' := (d.slot d.active 1 (ver d.active)).slot d.trial 1 (ver d.trial)
  let d' := { d' with
    active := d.trial, trial := 0xFF, reqHost := false, reqRun := false, attempted := false, store := s.migratedStore }
  let sec := match s.upd.run with | some i => max s.key.secVer i.secVer.toNat | none => s.key.secVer
  when (s.rd Reg.UPD_STAT_STATE == 4 && met) s
    (let s := State.wr { s with key := { s.key with secVer := sec } } Reg.UPD_SEC_SEC_VER sec
     let s := ((s.wr Reg.UPD_STAT_STATE 0).wr Reg.UPD_STAT_TRIAL_LEFT_S 0).writeDir d'
     ((s.wr Reg.UPD_STAT_LAST_RESULT 0x0F).bump .upd C.UPD_COMMITS).updEvent 5)

/-- How long a trial may last (R442). -/
def trialNs : Nat := 60 * nsPerS

/-- TRIAL_TIMEOUT (R442, R444). -/
def execTrialTimeout (s : State) : Result :=
  when (s.rd Reg.UPD_STAT_STATE == 4 && decide (trialNs ≤ s.trialElapsed)) s (s.trialFails 0x0C)

/-- What the trial notes at every tick (R443, R444, R449): seconds left, the conditions on host and run, and the safe state, which
ends it. -/
def State.trialWatch (s : State) : State :=
  if s.rd Reg.UPD_STAT_STATE ≠ 4 then s
  else if s.safe then s.trialFails 0x11
  else
    let from_ := if s.producing then some (s.upd.runFrom.getD s.now) else none
    let s := State.wr { s with upd := { s.upd with runFrom := from_ } } Reg.UPD_STAT_TRIAL_LEFT_S
      ((trialNs - s.trialElapsed + nsPerS - 1) / nsPerS)
    let s := if s.hif.hostOk then s.wr Reg.UPD_TRIAL_HOST_MET 1 else s
    match from_ with
    | some t => if t + 10 * nsPerS ≤ s.now then s.wr Reg.UPD_TRIAL_RUN_MET 1 else s
    | none => s

/-- PAIR_PARTNER.AGE_US follows the time since the partner's last heartbeat (R380). -/
def State.pairAge (s : State) : State :=
  match kvGet? s.pair.heard s.peer with
  | some (_, t) => s.wr Reg.PAIR_PARTNER_AGE_US (min 0xFFFF ((s.now - t) / 1000))
  | none => s

end Sys2Proof.Machine
end

