-- ==== Sys2Proof/Machine/Snap.lean ====
section
/-!
DEFINITION. How register words are read (R4, R5, R24, R42, R481, R482), and the latching of SNAP groups (R42).
-/
namespace Sys2Proof.Machine
open Sys2Proof

/-- The record that STCH_STREAM_SEL selects, its byte offset in a revision (R149) and whether it is enabled. -/
def State.streamShown (s : State) : Nat × Rec × Nat × Bool :=
  let e := s.rd Reg.STCH_STREAM_SEL_ENTRY
  let before := (s.act.entries.filter (fun x => decide (x.1 < e))).map (fun x => x.2.size)
  (e, s.act.tab 1 e, 128 + before.sum, (s.act.tab 1 e).on)

/-- The number of a treatment in STCH_STREAM_STAT (R155). -/
def Treat.code : Treat → Nat
  | .direct => 0 | .held => 1 | .decimated => 2 | .event => 3

/-- The present value of a field without a shadow copy.  Most are kept as they change; those that follow other state at every instant
are computed here: the time base as it counts, its increment (R45), UNLOCK_S (R53), BUSY of ING_CMDF, and the words that
STCH_STREAM_SEL selects. -/
def State.live (s : State) (f : Fld) : Nat :=
  let (e, r, off, on) := s.streamShown
  if f = Reg.TB_NOW_S then s.now / nsPerS
  else if f = Reg.TB_NOW_NS then s.now % nsPerS
  else if f = Reg.TB_INCR_NS then (s.tb.incrNext.getD s.tb.incr) / 2 ^ 32
  else if f = Reg.TB_INCR_FRAC then (s.tb.incrNext.getD s.tb.incr) % 2 ^ 32
  else if f = Reg.TB_TQ_UNLOCK_S then s.unlockS
  else if f = Reg.ING_CMDF_STAT_BUSY then natOf s.commandQueued
  else if f = Reg.STCH_STREAM_STAT_EXCLUDED then natOf (setHas s.stch.excluded e)
  else if f = Reg.STCH_STREAM_STAT_TREAT then (if on then (r.treat s.act.fs).code else 0)
  else if f = Reg.STCH_STREAM_STAT_ENABLED then natOf on
  else if f = Reg.STCH_STREAM_STAT_OFFSET then (if on then off else 0)
  else if f = Reg.STCH_STREAM_ABS_ABSENT then min 65535 (kvGetD s.stch.absent e 0)
  else s.rd f

/-- What field `f`, at value `v`, contributes to the word at byte `a`. -/
def Fld.part (f : Fld) (a v : Nat) : Nat :=
  let lo := max f.key (8 * a)
  let hi := min (f.key + f.width) (8 * a + 32)
  2 ^ (lo - 8 * a) * bits v (lo - f.key) (hi - lo)

/-- The word at byte `a` with each named field at the value given; other bits read 0 (R4). -/
def wordOf (value : Fld → Nat) (a : Nat) : Nat :=
  (((fieldsAt a).filter (fun f => f.inWord a)).map (fun f => f.part a (value f))).sum

/-! ### SNAP groups (R42) -/

/-- A register of SNAP fields: each of its elements is a group. -/
def RegD.isSnap (d : RegD) : Bool := d.fields.any (fun f => f.acc == .snap)

/-- The elements of a register, by their lowest addresses. -/
def RegD.elements (d : RegD) : List Nat :=
  match d.dims with
  | [] => [d.base]
  | [(a, n)] => (List.range n).map (fun i => d.base + a * i)
  | (a, n) :: (b, m) :: _ => ((List.range n).map (fun i => (List.range m).map (fun k => d.base + a * i + b * k))).flatten

/-- The group at `b` is latched: each of its words holds what it reads now. -/
def State.latchGroup (s : State) (d : RegD) (b : Nat) : State :=
  (List.range d.words).foldl (fun s w =>
    let a := b + 4 * w
    { s with glb := { s.glb with latches := kvPut s.glb.latches a (wordOf s.live a) 0 } }) s

/-! ### The windows on records (R114, R131) -/

/-- The status record of a stream-table entry (R114), with its TCP_STATE, as a little-endian number. -/
def EntStat.val (x : EntStat) (tcp : Nat) : Nat :=
  x.last % nsPerS + 2 ^ 32 * (x.last / nsPerS) + 2 ^ 80 * x.udp + 2 ^ 96 * x.seq + 2 ^ 128 * x.st + 2 ^ 160 * x.accepted
    + 2 ^ 192 * x.authFail + 2 ^ 224 * x.dup + 2 ^ 256 * x.tq + 2 ^ 288 * x.format + 2 ^ 320 * x.other + 2 ^ 352 * tcp
    + 2 ^ 360 * x.flags

/-- The status record of a PHE channel (R131), as a little-endian number. -/
def PheChan.val (x : PheChan) : Nat :=
  x.last % nsPerS + 2 ^ 32 * (x.last / nsPerS) + 2 ^ 96 * x.freq.toNat + 2 ^ 128 * x.rocof.toNat + 2 ^ 160 * x.outputs
    + 2 ^ 192 * x.bridged + 2 ^ 224 * x.noOutput + 2 ^ 256 * x.lateSmp + 2 ^ 288 * x.mismatch + 2 ^ 320 * x.flags

/-- TCP_STATE of an entry (R114): 0xFF where it is no KIND 2 entry. -/
def State.tcpState (s : State) (e : Nat) : Nat :=
  if (s.act.tab 1 e).kind ≠ 2 then 0xFF else match (s.ent e).conn with | some k => k.st | none => 0

/-- A window on records: its first word, its number of words, whether AREA selects the status record, and the two records shown. -/
structure Window where
  base : Nat
  words : Nat
  area : Bool
  record : Nat
  status : Nat
  deriving DecidableEq, Repr

/-- The windows ING_WIN_DATA and PHE_WIN_DATA: the record read is the active or the shadow one, by GLB_VIEW.STAGED. -/
def State.windows (s : State) : List Window :=
  let c := if s.on Reg.GLB_VIEW_STAGED then s.shd else s.act
  let e := s.rd Reg.ING_WIN_SEL_ENTRY
  let k := s.rd Reg.PHE_WIN_SEL_CHAN
  [⟨0xC0100, 32, s.on Reg.ING_WIN_SEL_AREA, (c.tab 1 e).val, (s.ent e).val (s.tcpState e)⟩,
   ⟨0x100100, 64, s.on Reg.PHE_WIN_SEL_AREA, (c.tab 3 k).val, (s.pheChan k).val⟩]

/-- The window that holds the word at `a`. -/
def State.windowAt (s : State) (a : Nat) : Option Window :=
  s.windows.find? (fun w => decide (w.base ≤ a) && decide (a < w.base + 4 * w.words))

/-- The words of a status record that a window shows are latched. -/
def State.latchWindow (s : State) (w : Window) : State :=
  if !w.area then s else
  (List.range w.words).foldl (fun s k =>
    { s with glb := { s.glb with latches := kvPut s.glb.latches (w.base + 4 * k) (bits w.status (32 * k) 32) 0 } }) s

/-- Every SNAP group of the package is latched at one tick, whose instant GLB_SNAP_TIME records (R42, R456). -/
def State.latchAll (s : State) : State :=
  let s := (regTable.filter RegD.isSnap).foldl (fun s d => d.elements.foldl (fun s b => s.latchGroup d b) s) s
  let s := s.windows.foldl State.latchWindow s
  s.wrInstant Reg.GLB_SNAP_TIME_S Reg.GLB_SNAP_TIME_NS s.now

/-- SNAP_LATCH_READ (R42): in LOCAL mode a read of a group's latch word latches the group; in GLOBAL mode no read does. -/
def execSnapLatchRead (addr : BitVec 26) (s : State) : Result :=
  let a := addr.toNat
  let ok := !s.on Reg.GLB_SNAP_CTL_MODE && s.barOpen a
  match s.windowAt a with
  | some w => when (ok && a == w.base) s (s.latchWindow w)
  | none =>
    match findReg a with
    | some (d, b) => when (ok && d.isSnap && a == b) s (s.latchGroup d b)
    | none => .next s

/-- SNAP_TAKE (R42, R43): a write of GLB_SNAP_CTL takes MODE, and with TAKE 1 latches every group. -/
def execSnapTake (word : BitVec 32) (s : State) : Result :=
  let s := s.wr Reg.GLB_SNAP_CTL_MODE (bits word.toNat 1 1)
  .next (if bitOf word.toNat 0 then s.latchAll else s)

/-! ### Reading a word -/

/-- What a field of an access code reads (R5, R24): an ST field the copy that GLB_VIEW.STAGED selects, a WO field 0. -/
def State.fieldRead (s : State) (f : Fld) : Nat :=
  match f.acc with
  | .wo => 0
  | .st => if s.on Reg.GLB_VIEW_STAGED then s.shd.fld f else s.act.fld f
  | _ => s.live f

/-! ### The MSI-X table (R312) -/

/-- Word `a - 0x18000` of the MSI-X table: four words to a vector, the last its vector control. -/
def State.msixWord (s : State) (k : Nat) : Nat := kvGetD s.hif.msixTable k (if k % 16 = 12 then 1 else 0)

/-- The word of the MSI-X table or of the PBA at `a`. -/
def State.msixRead (s : State) (a : Nat) : Option Nat :=
  if 0x18000 ≤ a ∧ a < 0x18400 then some (s.msixWord (a - 0x18000))
  else if a = 0x19000 ∨ a = 0x19004 then some (bits s.hif.msixPending (8 * (a - 0x19000)) 32)
  else none

/-- What a SNAP word reads: what was latched, which in LOCAL mode the read of the latch word itself renews (R42). -/
def State.snapRead (s : State) (a base v : Nat) : Nat :=
  if a = base && !s.on Reg.GLB_SNAP_CTL_MODE then v else kvGetD s.glb.latches a 0

/-- What a read at byte `a` returns: 0 where it is not aligned, no register is there or BAR0 does not serve it (R417, R481, R482). -/
def State.readWord (s : State) (a : Nat) : Nat :=
  if a % 4 ≠ 0 || !s.barOpen a then 0 else
  match s.windowAt a with
  | some w =>
    let k := (a - w.base) / 4
    if w.area then s.snapRead a w.base (bits w.status (32 * k) 32) else bits w.record (32 * k) 32
  | none =>
    match findReg a with
    | some (d, b) => if d.isSnap then s.snapRead a b (wordOf s.live a) else wordOf s.fieldRead a
    | none => (s.msixRead a).getD 0

end Sys2Proof.Machine
end

