-- ==== Sys2Proof/Machine/Err.lean ====
section
/-!
DEFINITION. Errors and the Cairn (spec/22).  The error log stands in Diag.lean.
-/
namespace Sys2Proof.Machine
open Sys2Proof

/-! ### The size of a dump (R454, R457) -/

/-- A section: TYPE and length in bytes. -/
def fixedSections : List (Nat × Nat) :=
  [(1, 2048), (2, 2031616), (3, 8192), (4, 135168), (5, 55808), (6, 1048576), (7, 1048576), (8, 524288)]

/-- The next multiple of 4,096 at or after `n` (R456). -/
def pageUp (n : Nat) : Nat := (n + 4095) / 4096 * 4096

/-- Where the section after the fixed ones starts in a complete dump: header and directory fill the first page. -/
def slicesOffset : Nat := fixedSections.foldl (fun o x => pageUp (o + x.2)) 4096

/-- The revisions in the store whose slice instant lies within the 2 s before `t`, in release order. -/
def State.dumpSlices (s : State) (t : Instant) : List Revision :=
  s.stch.store.filter (fun v => decide (t ≤ v.instant + 2 * nsPerS) && decide (v.instant ≤ t))

/-- NEED at instant `t` (R454). -/
def State.need (s : State) (t : Instant) : Nat := slicesOffset + ((s.dumpSlices t).map (fun v => v.length)).sum

/-- ERR_NEED shows NEED in MiB, rounded up. -/
def State.needShow (s : State) : State := s.wr Reg.ERR_NEED_NEED_MIB ((s.need s.now + 2 ^ 20 - 1) / 2 ^ 20)

/-! ### The Cairn condition (R453, R454) -/

/-- An injection armed for a memory class has come about. -/
def State.injected (s : State) (mem : Nat) (double : Bool) : State := { s with err := { s.err with inj := s.err.inj.erase (mem, double) } }

/-- A fatal error (R453, R456, R460, R461): before PHASE 6 a reset at once; in the Cairn condition it is only logged; else the
condition begins. -/
def State.fatal (s : State) (code mem unit addr : Nat) : State :=
  if s.dark then s
  else if s.rd Reg.PWR_STAT_PHASE < 6 then (if s.rd Reg.UPD_STAT_STATE = 4 then s.trialFails 0x12 else s.systemReset 3)
  else
    let s := s.logError 3 mem unit code addr
    if s.on Reg.ERR_STAT_FATAL then s else
    let s := (s.wr Reg.ERR_STAT_FATAL 1).wr Reg.ERR_STAT_FATAL_CODE code
    let s := s.wrB Reg.ERR_STAT_CAIRN (s.err.posted.isSome && s.hif.busMaster)
    let s := { s with err := { s.err with fatal := some ⟨3, mem, unit, code, addr, s.now, 1, false⟩ } }
    let s := (s.latchAll.raise 250).wr Reg.STCH_STAT_PRODUCING 0
    let s := { s with stch := { s.stch with slices := [], inbox := [] } }
    (s.setPins).gooseSilence

/-- Length of a posted list in bytes. -/
def postedLen (l : List (Nat × Nat)) : Nat := (l.map (·.2)).sum

/-- An entry of a buffer list is well formed (R455). -/
def bufferOk (e : BitVec 64 × BitVec 32 × BitVec 32) : Bool :=
  let a := e.1.toNat
  let n := e.2.1.toNat
  a % 4096 == 0 && decide (a < 2 ^ 48) && n % 4096 == 0 && decide (4096 ≤ n) && decide (n ≤ 2 ^ 30) && e.2.2 == 0

/-- CAIRN_POST (R349, R454, R455). -/
def execCairnPost (tag : BitVec 16) (len : BitVec 32) (addr : BitVec 48) (entries : List (BitVec 64 × BitVec 32 × BitVec 32))
    (dma : Dma) (s : State) : Result :=
  let t := tag.toNat
  let n := len.toNat
  s.served .cairn tag (
    if n % 16 ≠ 0 ∨ n < 16 ∨ 16384 < n then .next (s.mgmtDone .cairn t .invalid) else
    let (ok, s) := s.cmdDma false 0 addr.toNat dma
    if !ok then .next (s.mgmtDone .cairn t .xltFault)
    else if !entries.all bufferOk then .next (s.mgmtDone .cairn t .invalid)
    else
      let l := entries.map (fun e => (e.1.toNat, e.2.1.toNat))
      let have_ := postedLen l / 2 ^ 20
      let s := { s with err := { s.err with posted := some l } }
      let s := ((s.wr Reg.ERR_STAT_POSTED 1).wr Reg.ERR_HAVE_HAVE_MIB have_).needShow
      .next (s.mgmtDone .cairn t .ok (s.need s.now + 2 ^ 64 * have_)))

/-- CAIRN_WITHDRAW (R454). -/
def execCairnWithdraw (tag : BitVec 16) (s : State) : Result :=
  s.served .cairn tag (
    let s := State.wr { s with err := { s.err with posted := none } } Reg.ERR_STAT_POSTED 0
    .next ((s.wr Reg.ERR_HAVE_HAVE_MIB 0).mgmtDone .cairn tag.toNat .ok))

/-- CAIRN_FORCE (R454): fatal code 0x26; no completion is written. -/
def execCairnForce (tag : BitVec 16) (s : State) : Result :=
  s.served .cairn tag (.next (s.fatal 0x26 0xFF 0xFFFF 0))

/-- FATAL_ERROR (R384, R450, R453): codes 0x20 to 0x25; one in memory is reported as R384 says. -/
def execFatalError (code : Fin 6) (mem : BitVec 8) (unit : BitVec 16) (addr : BitVec 64) (s : State) : Result :=
  let c := 0x20 + code.val
  let memory := !(c == 0x23 || c == 0x25)
  let t := s.injected mem.toNat true
  let t := if memory && !s.dark && !s.on Reg.ERR_STAT_FATAL then t.report 0x07 else t
  .next (t.fatal c mem.toNat unit.toNat addr.toNat)

/-! ### The dump (R456 to R461) -/

/-- The start of each buffer of a list in the dump, from offset `o` on. -/
def bufferStarts : Nat → List (Nat × Nat) → List Nat
  | _, [] => []
  | o, b :: bs => o :: bufferStarts (o + b.2) bs

/-- The fixed sections laid out in `room` bytes: each that fits whole takes its place, another is left out (R459).  Each as TYPE,
STATUS, OFFSET, LEN, WRITTEN; and where the next section starts. -/
def layOut (room : Nat) : Nat → List (Nat × Nat) → List (Nat × Nat × Nat × Nat × Nat) × Nat
  | o, [] => ([], o)
  | o, (t, n) :: xs =>
    if o + n ≤ room then
      let (l, e) := layOut room (pageUp (o + n)) xs
      ((t, 0, o, n, n) :: l, e)
    else
      let (l, e) := layOut room o xs
      ((t, 2, o, 0, 0) :: l, e)

/-- The newest revisions that fit in `room` bytes, in release order (R459). -/
def newestThatFit (room : Nat) (vs : List Revision) : List Revision :=
  let step (acc : Nat × Bool × List Revision) (v : Revision) : Nat × Bool × List Revision :=
    if acc.2.1 && decide (acc.1 + v.length ≤ room) then (acc.1 + v.length, true, v :: acc.2.2) else (acc.1, false, acc.2.2)
  (vs.reverse.foldl step (0, true, [])).2.2

/-- What the holes that faults left in the dump make of a section (R460). -/
def cutSection (holes : List (Nat × Nat)) (x : Nat × Nat × Nat × Nat × Nat) : Nat × Nat × Nat × Nat × Nat :=
  let (t, st, o, n, w) := x
  let mine := holes.filter (fun h => decide (h.1 < o + n) && decide (o < h.2))
  if mine.isEmpty then (t, st, o, n, w)
  else (t, 1, o, n, (mine.map (fun h => h.1 - o)).foldl min w)

/-! ### The bytes of a dump (R456 to R458) -/

/-- The record of a Warden pair (R458). -/
def State.wardenRecord (s : State) (p : Nat) : List Byte :=
  let x := s.wardenPair p
  let core (k : Nat) : List Byte := leBytes 8 (Config.wardenCore p k)
  let ready := (x.ready.take 256).map (fun i => leBytes 8 i.id.toNat)
  ((List.range 36).map core).flatten
    ++ leBytes 4 (match x.running with | some i => i.id.toNat | none => 0xFFFFFFFF) ++ leBytes 4 ready.length
    ++ (ready.flatten ++ List.replicate (2048 - 8 * ready.length) 0) ++ List.replicate 1752 0

/-- STATE of an engine (R458). -/
def State.engineState (s : State) (e : Nat) : Nat :=
  let x := s.engine e
  if x.failed then 3 else if x.hold.isSome then 2 else if x.op.isSome then 1 else 0

/-- Operation code, graph or block, node or step, level, epoch and slice instant of an operation (R458). -/
def State.opRecord (s : State) (o : SchedOp) : List Byte :=
  let own (block : Nat) (epoch : Nat) (t : Instant) : List Byte :=
    leBytes 1 (Config.microStep o.src.analysis) ++ leBytes 2 (0x8000 + block) ++ leBytes 2 o.node ++ leBytes 1 o.level ++ leBytes 1 0
      ++ leBytes 4 epoch ++ instBytes t
  match o.src with
  | .graph id =>
    match s.graphRun id with
    | some r => leBytes 1 ((r.nodes[o.node]?).getD (zeroRec 19)).nodeOp ++ leBytes 2 r.g ++ leBytes 2 o.node ++ leBytes 1 o.level
        ++ leBytes 1 0 ++ leBytes 4 r.epoch ++ instBytes r.instant
    | none => List.replicate 21 0
  | .lse t _ => own 0x12 (s.epochAt t) t
  | .osc t _ => own 0x13 (s.epochAt t) t
  | .rules t _ _ => own 0x14 (s.epochAt t) t
  | .phe _ t => own 0x10 (s.epochAt t) t
  | .refactor t => own 0x12 (s.epochAt t) t
  | .recluster t => own 0x14 (s.epochAt t) t

/-- The record of an engine (R458); the contents of its vector registers are free. -/
def State.engineRecord (s : State) (e : Nat) : List Byte :=
  leBytes 1 (s.engineState e)
    ++ (match (s.engine e).op with | some o => s.opRecord o | none => List.replicate 21 0) ++ List.replicate 42 0
    ++ ((List.range 512).map (fun k => leBytes 4 (Config.engineReg e k))).flatten

/-- The numbers that R304 gives queues, rising. -/
def queueNumbers : List Nat := (List.range 2048).filter queueExists

/-- The record of a queue (R458). -/
def State.queueRecord (s : State) (q : Nat) : List Byte :=
  let x := s.iqueue q
  let depth := s.queueDepth q
  leBytes 2 q ++ leBytes 1 (queuePool q)
    ++ leBytes 1 (natOf (s.sched.overflow.contains q) + 2 * natOf (s.sched.underrun.contains q) + 4 * natOf (s.idleMode q)
        + 8 * natOf (Config.queueDual q) + 16 * natOf x.mid)
    ++ leBytes 4 depth ++ leBytes 4 (s.queueLimits q).1 ++ leBytes 4 (s.queueLimits q).2
    ++ leBytes 4 (if depth = 0 then 0xFFFFFFFF else Config.queueCell q x.rd)
    ++ leBytes 4 (if depth = 0 then 0xFFFFFFFF else Config.queueCell q (x.rd + depth - 1)) ++ List.replicate 8 0

/-- The records of the error log, oldest first (R457). -/
def State.logBytes (s : State) : List Byte :=
  let order := (List.range 64).map (fun i => (s.rd Reg.ERR_LOG_HEAD_WRITTEN + i) % 64)
  let l := order.filterMap (fun k => kvGet? s.err.log k)
  (l.map (fun r => leBytes 32 r.val)).flatten ++ List.replicate (2048 - 32 * l.length) 0

/-- The words of BAR0 up to 0x1E_FFFF as a read returns them (R457). -/
def State.registerBytes (s : State) : List Byte :=
  let s := s.wr Reg.GLB_VIEW_STAGED 0
  ((List.range (2031616 / 4)).map (fun k => leBytes 4 (s.readWord (4 * k)))).flatten

/-- A stream table, and the status records of its entries (R457). -/
def Cfg.streamBytes (c : Cfg) : List Byte := ((List.range 8192).map (fun e => leBytes 128 (c.tab 1 e).val)).flatten
def State.statusBytes (s : State) : List Byte := ((List.range 8192).map (fun e => leBytes 64 ((s.ent e).val (s.tcpState e)))).flatten

/-- The bytes of a section (R457), with the revisions that SLICES holds. -/
def State.sectionBytes (s : State) (vs : List Revision) (typ : Nat) : List Byte :=
  match typ with
  | 1 => s.logBytes
  | 2 => s.registerBytes
  | 3 => s.wardenRecord 0 ++ s.wardenRecord 1
  | 4 => ((List.range 64).map s.engineRecord).flatten
  | 5 => (queueNumbers.map s.queueRecord).flatten
  | 6 => s.act.streamBytes
  | 7 => s.shd.streamBytes
  | 8 => s.statusBytes
  | _ => (vs.map Revision.bytes).flatten

/-- The header of a dump, its CRC taken with SEAL 0 (R456). -/
def State.dumpHeader (s : State) (c : Cairn) : List Byte :=
  let head (mark : Nat) : List Byte :=
    leBytes 4 0x4341524E ++ leBytes 2 1 ++ leBytes 2 256 ++ leBytes 4 mark ++ leBytes 1 c.result ++ leBytes 1 c.fatal.code
      ++ leBytes 2 c.fatal.unit ++ leBytes 8 c.devid ++ leBytes 4 (wordOf s.fieldRead 0) ++ leBytes 4 c.fwVer ++ leBytes 32 c.measurement
      ++ leBytes 4 c.epoch ++ leBytes 2 c.claim ++ leBytes 1 c.safeCause ++ leBytes 1 c.lcs ++ leBytes 8 c.fatal.addr
      ++ instBytes c.fatal.ts ++ leBytes 2 9 ++ instBytes c.done ++ leBytes 2 0 ++ leBytes 8 c.total ++ List.replicate 140 0
  head 0x4C414553 ++ leBytes 4 (crc32 (head 0))

/-- A directory entry over the bytes written of its section (R456). -/
def dirEntry (x : Nat × Nat × Nat × Nat × Nat) (b : List Byte) : List Byte :=
  leBytes 2 x.1 ++ leBytes 1 x.2.1 ++ leBytes 1 0 ++ leBytes 4 (crc32 (b.take x.2.2.2.2)) ++ leBytes 8 x.2.2.1
    ++ leBytes 8 x.2.2.2.1 ++ leBytes 8 x.2.2.2.2

/-- Bytes at dump offsets, with zeros up to offset `o`. -/
def padTo (o : Nat) (b : List Byte) : List Byte := b ++ List.replicate (o - b.length) 0

/-- The whole dump as one sequence of bytes (R455, R456). -/
def State.dumpBytes (s : State) (c : Cairn) (vs : List Revision) : List Byte :=
  let parts := c.sections.map (fun x => (x, (s.sectionBytes vs x.1).take x.2.2.2.1))
  let head := s.dumpHeader c ++ (parts.map (fun p => dirEntry p.1 p.2)).flatten
  parts.foldl (fun b p => if p.1.2.1 = 2 then b else padTo p.1.2.2.1 b ++ p.2) head

/-- What reaches the buffers of a list: the part of the dump that lies in each, without what a fault left out (R455, R460). -/
def dumpWrites (posted holes : List (Nat × Nat)) (b : List Byte) : List (Nat × List Byte) :=
  (posted.zip (bufferStarts 0 posted)).filterMap (fun (x, o) =>
    let stop := ((holes.filter (fun h => decide (o ≤ h.1) && decide (h.1 < o + x.2))).map (·.1)).foldl min (o + x.2)
    let part := (b.drop o).take (stop - o)
    if part.isEmpty then none else some (x.1, part))

/-- The revisions that SLICES of a dump in a posted list holds (R459). -/
def State.dumpKept (s : State) (r : ErrRec) (posted : List (Nat × Nat)) : List Revision :=
  let room := postedLen posted
  newestThatFit (room - (layOut room 4096 fixedSections).2) (s.dumpSlices r.ts)

/-- The dump that is written in a posted list, with the holes of the faults met (R456 to R460). -/
def State.dump (s : State) (r : ErrRec) (posted : List (Nat × Nat)) (holes : List (Nat × Nat)) : Cairn :=
  let room := postedLen posted
  let (fixed, o) := layOut room 4096 fixedSections
  let all := s.dumpSlices r.ts
  let vs := s.dumpKept r posted
  let n := (vs.map (fun v => v.length)).sum
  let last := (9, if vs.length = all.length ∧ s.need r.ts ≤ room then 0 else 1, o, n, n)
  let sections := (fixed ++ [last]).map (cutSection holes)
  { result := natOf (sections.any (fun x => x.2.1 != 0)), fatal := r, devid := s.rd Reg.KEY_DEVID_DEVID
    fwVer := s.rd Reg.UPD_VER_RUN_FW_VER, measurement := s.fwMeas, epoch := s.rd Reg.GLB_EPOCH_EPOCH
    claim := s.rd Reg.PAIR_STAT_CLAIM, safeCause := s.rd Reg.SAFE_STAT_CAUSE, lcs := s.rd Reg.GLB_LCS_STATE
    done := s.now, total := o + n, sections }

/-- The writes that fault, as (buffer, access): each leaves a record with COMMAND set, and the rest of its buffer a hole (R460). -/
def State.dumpFaults (s : State) (posted : List (Nat × Nat)) : List (Nat × Dma) → List (Nat × Nat) × State
  | [] => ([], s)
  | (k, d) :: fs =>
    match posted[k]?, (bufferStarts 0 posted)[k]? with
    | some (a, n), some o =>
      let (ok, s) := s.cmdDma true 0 a d
      let (hs, s) := s.dumpFaults posted fs
      (if ok || decide (n ≤ d.offset) then hs else (o + d.offset, o + n) :: hs, s)
    | _, _ => s.dumpFaults posted fs

/-- The device resets at the end of the Cairn (R461): during a trial it falls back. -/
def State.cairnReset (s : State) : State := if s.rd Reg.UPD_STAT_STATE = 4 then s.trialFails 0x12 else s.systemReset 3

/-- The dump is written, where a list is posted and the host can be written to (R459, R460); without its first buffer it is not
usable. -/
def State.writeDump (s : State) (r : ErrRec) (faults : List (Nat × Dma)) : State :=
  match s.err.posted with
  | none => s
  | some l =>
    if !s.hostUp || !s.on Reg.ERR_STAT_CAIRN then s else
    let (holes, s) := s.dumpFaults l faults
    let first := match l with | b :: _ => b.2 | [] => 0
    if holes.any (fun h => decide (h.1 < first)) then s else (s.emit (.cairn (s.dump r l holes) (dumpWrites l holes (s.dumpBytes (s.dump r l holes) (s.dumpKept r l))))).raise 252

/-- CAIRN_DONE (R460, R461): the Cairn ends; `faults` are the writes that met a translation fault.  With HALT the device stays. -/
def execCairnDone (faults : List (Nat × Dma)) (s : State) : Result :=
  match s.err.fatal with
  | none => .next s
  | some r =>
    let s := s.writeDump r faults
    if s.on Reg.ERR_CTL_HALT then .next (State.wr { s with err := { s.err with fatal := none } } Reg.ERR_STAT_CAIRN 0)
    else .next s.cairnReset

/-- CAIRN_TIMEOUT (R460): 10 ms without progress, or longer than CAIRN_MS. -/
def execCairnTimeout (s : State) : Result :=
  match s.err.fatal with
  | none => .next s
  | some r => when (decide (r.ts + 10000000 ≤ s.now)) s s.cairnReset

/-! ### Correctable and recoverable errors (R450) -/

/-- CORRECTABLE_ERROR (R450): codes 0x01 to 0x04. -/
def execCorrectableError (code : Fin 4) (mem : BitVec 8) (unit : BitVec 16) (addr : BitVec 64) (s : State) : Result :=
  let c := 1 + code.val
  let t := s.injected mem.toNat false
  let t := if c = 4 then t.bump .pair C.PAIR_LINK_RETRY else t
  when (!s.dark) s (t.correctable mem.toNat unit.toNat c addr.toNat)

/-- The code of what a recoverable error struck. -/
def Struck.code : Struck → Nat
  | .published _ => 0x10 | .captured _ => 0x10 | .analysed _ => 0x10
  | .frame _ => 0x11 | .operation _ => 0x12 | .buffer _ => 0x13 | .leaf _ => 0x14 | .idle => 0x15

/-- The consumers that a revision read for analysis is for. -/
def analysts : List Consumer := [.topo, .lse, .rules, .osc, .graphs]

/-- The work of a consumer on a revision is given up. -/
def State.abandonWork (s : State) (who : Consumer) (t : Instant) (rev : Nat) : State :=
  { s with stch := { s.stch with work := s.stch.work.filter (fun w => !(w.who == who && w.rev.instant == t && w.rev.rev == rev)) } }

/-- A run is abandoned: its operations leave their lists, its results their places, and later results of its flow may go on. -/
def State.abandonRun (s : State) (id : Nat) : State :=
  match s.graphRun id with
  | none => s
  | some r =>
    let s := r.instances.foldl (fun s i => s.unhold (r.cluster i) id i) (s.dropRun id)
    let s := r.instances.foldl (fun s i =>
      let x := s.cluster (r.cluster i)
      s.setCluster (r.cluster i) { x with
        ready := x.ready.filter (fun o => o.src != .graph id), delay := x.delay.filter (fun d => d.2.1 != id) }) s
    r.instances.foldl (fun s i => State.releaseFlow r.g i (s.sched.runs.length + 1) s) s

/-- What a chain of operations works for has no result (R450): a run, a revision for one analysis, an output of a PHE channel, or
background work. -/
def State.abandonOp (s : State) : OpOf → State
  | .graph id => s.abandonRun id
  | .lse t rev => s.abandonWork .lse t rev
  | .rules t rev _ => s.abandonWork .rules t rev
  | .osc t rev => s.abandonWork .osc t rev
  | .phe ch t => s.setPheChan ch { s.pheChan ch with
      runs := (s.pheChan ch).runs.filter (fun r => r.t != t), noOutput := ((s.pheChan ch).noOutput + 1) % 2 ^ 32 }
  | .refactor _ => { s with lse := { s.lse with running := none } }
  | .recluster _ => { s with isl := { s.isl with reclust := none } }

/-- The newest item of a record is lost (R450). -/
def CapRec.loseItem (r : CapRec) : CapRec :=
  match r.items.getLast? with
  | none => r
  | some i => { r with items := r.items.dropLast, bytes := r.bytes - i.bytes, lost := r.lost + 1 }

/-- The one affected item is abandoned (R450). -/
def State.struck (s : State) : Struck → State
  | .published kind => s.dropOldest kind
  | .captured ch =>
    match (s.capChan ch).rcd, s.nextSliceItem ch with
    | some r, some v => s.setCapChan ch { s.capChan ch with rcd := some { r with taken := some (8192 * v.instant), lost := r.lost + 1 } }
    | _, _ => s
  | .analysed who =>
    match analysts[who.val]? with
    | none => s
    | some c =>
      match s.stch.work.find? (fun w => w.who == c) with
      | some w => { s with stch := { s.stch with work := s.stch.work.erase w } }
      | none => s
  | .frame port =>
    match s.port.inq.find? (fun f => f.port == port.val) with
    | none => s
    | some f =>
      let p := s.prt port
      let s := s.setPrt port { p with rxCells := p.rxCells - f.cells }
      State.bump { s with port := { s.port with inq := s.port.inq.erase f } } .sched C.SCHED_PKT_DROPS
  | .operation e =>
    match (s.engine e).op with
    | none => s
    | some o => ((s.setEngine e { s.engine e with op := none }).abandonOp o.src).schedShow
  | .buffer ch =>
    let x := s.capChan ch
    match x.rcd with
    | some r => s.setCapChan ch { x with rcd := some r.loseItem }
    | none =>
      match x.queue.getLast? with
      | some r => s.setCapChan ch { x with queue := x.queue.dropLast ++ [r.loseItem] }
      | none => s
  | .leaf dva => { s with xlt := { s.xlt with tlb := s.xlt.tlb.filter (fun e => dva.toNat / 2 ^ e.log2 != e.va / 2 ^ e.log2) } }
  | .idle => s

/-- RECOVERABLE_ERROR (R384, R450): codes 0x10 to 0x15.  In data of a safety-attributed flow it takes the safe-state reaction,
elsewhere it is reported. -/
def execRecoverableError (struck : Struck) (mem : BitVec 8) (unit : BitVec 16) (addr : BitVec 64) (safety : Bool) (s : State) : Result :=
  let t := ((s.injected mem.toNat true).struck struck).recoverable mem.toNat unit.toNat struck.code addr.toNat
  when (!s.dark) s (if safety then t.react 0x07 else t.report 0x07)

/-- One latent error found by scrubbing (R383, R450): a single-bit error is corrected, a double one lies in memory without live
data. -/
def State.scrubbed (s : State) (x : Fin 6 × BitVec 64 × Bool) : State :=
  let (mem, addr, double) := x
  let s := s.injected mem double
  if double then (s.recoverable mem 0xFFFF 0x15 addr.toNat).report 0x07
  else (s.correctable mem 0xFFFF (if mem = 5 then 0x02 else 0x01) addr.toNat).bump .err C.ERR_SCRUB_FIXED

/-- SCRUB (R383, R394): a pass over all memory ends. -/
def execScrub (found : List (Fin 6 × BitVec 64 × Bool)) (s : State) : Result :=
  when (!s.dark) s ((found.foldl State.scrubbed s).bump .safe C.SAFE_ECC_SCRUB_PASSES)

/-! ### Injection (R463) -/

/-- ERR_INJ_SINGLE (R463): reserved memory classes are discarded. -/
def execErrInjSingle (mem : Fin 8) (s : State) : Result :=
  when (s.barOpen 0x1E0040 && decide (mem.val < 6)) s { s with err := { s.err with inj := s.err.inj ++ [(mem.val, false)] } }

/-- ERR_INJ_DOUBLE (R463): into Warden memory only while debug is enabled. -/
def execErrInjDouble (mem : Fin 8) (s : State) : Result :=
  if !s.barOpen 0x1E0040 || decide (6 ≤ mem.val) then .next s
  else if mem = 0 ∧ !s.on Reg.GLB_LCS_DEBUG then .next (s.wr Reg.ERR_STAT_INJ_REF 1)
  else .next { s with err := { s.err with inj := s.err.inj ++ [(mem.val, true)] } }

/-! ### Data errors on PCIe (R451) -/

/-- The read of host memory that channel `c` has in flight: STREAM, ITEM and DVA; the state without the doorbell read that it
was. -/
def State.readInFlight (s : State) (c : Nat) : Option (Nat × Nat × Nat × State) :=
  if c = 64 then
    match s.hif.dbDue with
    | d :: rest =>
      some (3, 0, 256 * s.rd Reg.HIF_DB_BASE_ADDR + 4 * d.getD 0, { s with hif := { s.hif with dbDue := rest } })
    | [] => if s.on Reg.HIF_NUDGE_CFG_POLL_EN then some (3, 0, 8 * s.rd Reg.HIF_NUDGE_ADDR_ADDR, s) else none
  else
    let head := s.rd (Reg.HIF_RING_STAT_SQ_HEAD c)
    let idx := (head + (s.ring c).fetched.length) % 65536
    match s.ringIs c 1, (s.ring c).fetched with
    | true, some d :: _ => some (1, head, bits d 64 48, s)
    | _, l =>
      if s.on (Reg.HIF_RING_CFG_EN c) && decide (l.length < s.sqFill c) then
        some (0, idx, 64 * s.rd (Reg.HIF_RING_SQ_ADDR c) + 32 * (idx % 2 ^ s.rd (Reg.HIF_RING_CFG_SQ_LOG2 c)), s)
      else none

/-- PCIE_ERROR_COMPLETION (R450, R451): the read that a channel has in flight completes with an error; the channel suspends with
CLASS 0 and no fault record. -/
def execPcieErrorCompletion (chan : Fin 65) (s : State) : Result :=
  if !(s.hostUp && s.chanFree chan) then .next s else
  match s.readInFlight chan with
  | none => .next s
  | some (stream, item, dva, s) =>
    let s := s.suspMark chan ⟨0, stream, false, item, dva, 0, 0, none⟩
    .next (((s.recoverable 0xFF chan 0x16 dva).bump .err C.ERR_PCIE_DATA).raise 251)

end Sys2Proof.Machine
end

