-- ==== Sys2Proof/Machine/Xlt.lean ====
section
/-!
DEFINITION. Translation: invalidations and the fault ring (spec/16).  The walk, the cache and suspension stand in
Ops.lean, resuming in Resume.lean.
-/
namespace Sys2Proof.Machine
open Sys2Proof

/-- The cached leaves left when a range (start and size exponent), or everything, is invalidated. -/
def dropRange (tlb : List TlbEntry) (range : Option (Nat × Nat)) : List TlbEntry :=
  match range with
  | none => []
  | some (va, k) => tlb.filter (fun e => decide (e.va + 2 ^ e.log2 ≤ va) || decide (va + 2 ^ k ≤ e.va))

/-- An invalidation is issued (R343): no cached entry of the range serves an access from now on. -/
def State.issueInv (s : State) (range : Option (Nat × Nat)) : State :=
  let s := { s with xlt := { s.xlt with invs := s.xlt.invs ++ [InvReq.mk range], tlb := dropRange s.xlt.tlb range } }
  (s.wr Reg.XLT_INV_STAT_ISSUED (s.rd Reg.XLT_INV_STAT_ISSUED + 1)).wr Reg.XLT_STAT_INV_BUSY 1

/-- XLT_INVALIDATE_RANGE (R343): a write of the upper word of XLT_INV with ALL 0.  A SIZE_LOG2 outside 12 to 48 is
reserved, and the write is discarded. -/
def execXltInvalidateRange (high : BitVec 32) (s : State) : Result :=
  let k := s.xlt.invLow.toNat % 64
  let va := (s.xlt.invLow.toNat / 2 ^ 12 * 2 ^ 12 + 2 ^ 32 * (high.toNat % 2 ^ 16)) / 2 ^ k * 2 ^ k
  when (s.barOpen 0x2002C && decide (12 ≤ k) && decide (k ≤ 48)) s (s.issueInv (some (va, k)))

/-- XLT_INVALIDATE_ALL (R343): a write of the upper word with ALL 1; VA and SIZE_LOG2 are ignored. -/
def execXltInvalidateAll (_high : BitVec 32) (s : State) : Result :=
  when (s.barOpen 0x2002C) s (s.issueInv none)

/-- XLT_INV_COMPLETE (R343): the oldest invalidation completes: no cached entry of its range remains, DONE advances and
event 245 is raised. -/
def execXltInvComplete (s : State) : Result :=
  match s.xlt.invs with
  | [] => .next s
  | i :: rest =>
    let s := { s with xlt := { s.xlt with invs := rest, tlb := dropRange s.xlt.tlb i.range } }
    let s := (s.wr Reg.XLT_INV_STAT_DONE (s.rd Reg.XLT_INV_STAT_DONE + 1)).wrB Reg.XLT_STAT_INV_BUSY (!rest.isEmpty)
    .next ((s.bump .xlt C.XLT_INVALIDATIONS).raise 245)

/-- FRING_BASE_WRITE (R354): a write of either word of XLT_FRING_BASE, which sets HEAD and TAIL to 0; a reserved LOG2
leaves that field. -/
def execFringBaseWrite (word : Fin 2) (value : BitVec 32) (s : State) : Result :=
  let v := value.toNat
  let a := s.rd Reg.XLT_FRING_BASE_ADDR
  let s' :=
    if word = 0 then
      let s := s.wr Reg.XLT_FRING_BASE_ADDR (setBits a 0 20 (v / 2 ^ 12))
      if 12 ≤ v % 16 then s else s.wr Reg.XLT_FRING_BASE_LOG2 (v % 16)
    else s.wr Reg.XLT_FRING_BASE_ADDR (setBits a 20 20 (v % 2 ^ 20))
  when (s.barOpen 0x20018) s ((s'.wr Reg.XLT_FRING_HEAD_HEAD 0).wr Reg.XLT_FRING_TAIL_TAIL 0)

end Sys2Proof.Machine
end

