-- ==== Sys2Proof/Machine/Resume.lean ====
section
/-!
DEFINITION. Resuming suspended channels (R348) and the commands that ING_CMDF sends (R111).
-/
namespace Sys2Proof.Machine
open Sys2Proof

/-! ### Resuming (R345, R348) -/

/-- Channel `c` is suspended no longer. -/
def State.unsuspend (s : State) (c : Nat) : State :=
  let s := { s with xlt := { s.xlt with susp := kvDel s.xlt.susp c } }
  let s := if c = 64 then s.wr Reg.XLT_STAT_CTL_SUSP 0 else s.wr (Reg.HIF_RING_STAT_SUSP c) 0
  (if c < 64 then s.backlog c else s).chShow

/-- The suspended item of channel 64 starts again: a nudge read is due, or the doorbell block, or the progress words of the rings
with completions not signalled. -/
def State.restartControl (s : State) (u : Susp) (dma : Dma) : State :=
  if u.stream = 3 then
    (if u.dva = 8 * s.rd Reg.HIF_NUDGE_ADDR_ADDR then
      { s with hif := { s.hif with nudgeAt := s.now - 500 * s.rd Reg.HIF_NUDGE_CFG_PERIOD } }
    else s.dueDoorbell none)
  else (filterBelow 64 (fun r => decide (0 < (s.ring r).unsig))).foldl (fun s r => s.progressed r 0 dma) s

/-- A RESUME command (with a TAG) or a write of XLT_RESUME (without) ends. -/
def State.resumeEnds (s : State) (tag : Option Nat) (st : Status) (result : Nat) : State :=
  match tag with
  | some t => s.mgmtDone .resume t st result
  | none => s.wr Reg.XLT_RESUME_STAT_LAST_STATUS st.code

/-- RESULT of a RESUME: ITEM and CLASS of the suspension. -/
def Susp.result (u : Susp) : Nat := u.item + 2 ^ 16 * u.cls

/-- The suspended item of channel `c` restarts at its faulting access with a fresh walk; where that faults again the channel
suspends again. -/
def State.retry (s : State) (tag : Option Nat) (c : Nat) (u : Susp) (dma : Dma) : State :=
  let s := match (s.unsuspend c).translate u.dva u.write dma.walk with
    | (.ok _, s) =>
      let s := s.bump .xlt C.XLT_RESUMES
      if c = 64 then s.restartControl u dma else s
    | (.fault cls l e, s) => s.suspend c u.stream u.write u.item u.taken u.dva cls l e
  s.resumeEnds tag .ok u.result

/-- Invalidations issued when ISSUED read `n` are still to complete (R343, R348). -/
def State.invBefore (s : State) (n : Nat) : Bool :=
  decide ((s.rd Reg.XLT_INV_STAT_ISSUED + 65536 - n) % 65536 < s.xlt.invs.length)

/-- A channel that a RESUME command cannot name. -/
def reservedForMmio (tag : Option Nat) (c : Nat) : Bool := tag.isSome && (c == 0 || c == 64)

/-- A RETRY of channel `c` is accepted: the re-walk waits for the invalidations issued before it (R348). -/
def State.acceptRetry (s : State) (tag : Option Nat) (c : Nat) (u : Susp) : State :=
  { s with xlt := { s.xlt with susp := kvSet s.xlt.susp c { u with resume := some (s.rd Reg.XLT_INV_STAT_ISSUED, tag) } } }

/-- The suspension that a RETRY of channel `c` resumes: none for a channel not suspended, one that only XLT_RESUME resumes, or one whose re-walk waits already. -/
def State.retryable (s : State) (tag : Option Nat) (c : Nat) : Option Susp :=
  match kvGet? s.xlt.susp c with
  | some u => if reservedForMmio tag c || u.resume.isSome then none else some u
  | none => none

/-- A write of XLT_RESUME with RACTION 0 (R348): it is accepted, and RESUME_RETRY without a TAG makes the re-walk. -/
def State.mmioRetry (s : State) (c : Nat) : State :=
  match s.retryable none c with
  | some u => s.acceptRetry none c u
  | none => s.resumeEnds none .invalid 0

/-- RESUME_RETRY (R348): refused for a channel that is not suspended, or one that only XLT_RESUME resumes; where invalidations are
under way, the re-walk waits for them. -/
def execResumeRetry (tag : Option (BitVec 16)) (chan : BitVec 16) (dma : Dma) (s : State) : Result :=
  let t := tag.map BitVec.toNat
  let c := chan.toNat
  let go : Result :=
    match s.retryable t c with
    | none => .next (s.resumeEnds t .invalid 0)
    | some u =>
      if s.xlt.invs.isEmpty then .next (s.retry t c u dma)
      else
        let s := s.acceptRetry t c u
        .next (match t with | some n => s.mgmtStart .resume n | none => s)
  let fresh : Result := match tag with
    | some n => s.served .resume n go
    | none => if s.barOpen 0x20034 then go else .next s
  match kvGet? s.xlt.susp c with
  | none => fresh
  | some u =>
    match u.resume with
    | none => fresh
    | some (n, t') => if t' ≠ t then fresh else if s.invBefore n then .next s else .next (s.retry t c u dma)

/-- The suspended item of a ring is abandoned (R348): buffers taken return in one completion, a transmit descriptor completes, and a
capture record is drained again from its start. -/
def State.skipItem (s : State) (c : Nat) (u : Susp) : State :=
  match s.rd (Reg.HIF_RING_CFG_KIND c) with
  | 1 =>
    match (s.ring c).fetched with
    | some d :: _ => (s.takeBuffers c 1).complete c (txCpl .xltFault false (txTag d) (txDest d) (txQueue d))
    | _ => s
  | 2 =>
    match s.port.rxq.find? (fun i => i.ring = c) with
    | some i => ((s.takeBuffers c u.taken).dropRx i).complete c (rxCpl .xltFault i.source 0 i.port u.taken i.ts)
    | none => s
  | 3 =>
    match s.pub.items.find? (fun i => s.cf (Reg.PUB_KIND_RING i.kind) == c) with
    | some i =>
      ((s.takeBuffers c u.taken).takeItem i).complete c (pubCpl .xltFault i.kind u.taken 0 (kvGetD s.pub.dropped i.kind 0))
    | none => s
  | 4 =>
    match s.drainer c with
    | some k =>
      let x := s.capChan k
      ((s.takeBuffers c (u.taken - x.drained)).setCapChan k { x with drained := 0, waiting := false }).complete c
        (Status.xltFault.code + captureCpl k u.taken 0)
    | none => s
  | _ => s

/-- RESUME_SKIP (R348): only a data fault can be skipped.  RESUMES counts channels resumed by either action, SKIPS those by SKIP:
DEDUCED, notes/assumptions/56.md. -/
def execResumeSkip (tag : Option (BitVec 16)) (chan : BitVec 16) (s : State) : Result :=
  let t := tag.map BitVec.toNat
  let c := chan.toNat
  let go : Result :=
    match kvGet? s.xlt.susp c with
    | none => .next (s.resumeEnds t .invalid 0)
    | some u =>
      if reservedForMmio t c || u.resume.isSome || u.stream != 1 then .next (s.resumeEnds t .invalid 0)
      else .next (((((s.unsuspend c).skipItem c u).bump .xlt C.XLT_RESUMES).bump .xlt C.XLT_SKIPS).resumeEnds t .ok u.result)
  match tag with
  | some n => s.served .resume n go
  | none => if s.barOpen 0x20034 then go else .next s

/-! ### ING_CMDF (R111) -/

/-- A write of ING_CMDF with a permitted command code: it is sent to the source of a KIND 1 or 2 entry. -/
def State.cmdf (s : State) (e cmd : Nat) : State :=
  let status (s : State) (st : Status) : State := s.wr Reg.ING_CMDF_STAT_LAST_STATUS st.code
  let kind := (s.act.tab 1 e).kind
  if !s.barOpen 0xC0008 then s
  else if s.commandQueued then status s .busy
  else if kind ≠ 1 ∧ kind ≠ 2 then status s .invalid
  else if kind == 2 && (match (s.ent e).conn with | some k => k.st != 2 | none => true) then status s .degraded
  else status (s.command e cmd) .ok

/-- CMDF_TURN_OFF (R111): command 0x0001. -/
def execCmdfTurnOff (entry : Fin 8192) (s : State) : Result := .next (s.cmdf entry 1)

/-- CMDF_TURN_ON (R111): command 0x0002. -/
def execCmdfTurnOn (entry : Fin 8192) (s : State) : Result := .next (s.cmdf entry 2)

/-- CMDF_SEND_CFG2 (R111): command 0x0005. -/
def execCmdfSendCfg2 (entry : Fin 8192) (s : State) : Result := .next (s.cmdf entry 5)

/-- CMDF_SEND_CFG3 (R111): command 0x0006. -/
def execCmdfSendCfg3 (entry : Fin 8192) (s : State) : Result := .next (s.cmdf entry 6)

end Sys2Proof.Machine
end

