-- ==== Sys2Proof/Machine/RegWrite.lean ====
section
/-!
DEFINITION. Register writes (R4, R5, R24, R482): what a written word does to each field of its register, and what follows from it.
-/
namespace Sys2Proof.Machine
open Sys2Proof

/-! ### TB_STEP (R46 to R48, R52) -/

/-- The signed number of nanoseconds that TB_STEP holds: the word now written above the low word last written. -/
def State.stepDelta (s : State) (high : BitVec 32) : Int := signed (high.toNat * 2 ^ 32 + s.tb.stepLow.toNat) 64

/-- An alarm whose instant a step from `old` passed over. -/
def State.almPassed (s : State) (old : Instant) (k : Nat) : Bool :=
  match kvGet? s.tb.almNext k with
  | some (t, _) => decide (old < t) && decide (t ≤ s.now)
  | none => false

/-- The time base is stepped by `delta` ns at its next tick (R47); where slices are produced, what the step passes over is handled
at that tick (R48, R139). -/
def State.stepped (s : State) (delta : Int) : State :=
  let old := s.now
  let s := (s.tickWith delta).raise 51
  if s.producing && decide (0 ≤ delta) then
    (filterBelow 4 (s.almPassed old)).foldl (fun s k => s.almFire k true) (s.stepSlices old)
  else s

/-- TB_STEP_WRITE (R46, R48, R52): from the owner only, and from firmware not in HOLDOVER; a negative step while slices are produced
is refused. -/
def execTbStepWrite (who : Requester) (high : BitVec 32) (s : State) : Result :=
  let delta := s.stepDelta high
  if !s.mayWrite who 0x40024 then .next s
  else if !s.ownsTb who then .next (s.wr Reg.TB_STAT_OWNER_WR 1)
  else if who = .firmware && s.tbState == tbHOLDOVER then .next s
  else if s.producing && decide (delta < 0) then .next ((s.wr Reg.TB_STAT_STEP_REF 1).raise 52)
  else .next (s.stepped delta)

/-! ### The fields of a word (R4, R5, R24, R30, R38) -/

/-- The bits of field `f` that are one in the word `v` written at byte `a`. -/
def Fld.written (f : Fld) (a v : Nat) : Nat := f.merge a 0 v

/-- Value `v` is a reserved encoding of RW field `f`, so that the write of the field is discarded (R4). -/
def reservedRw (f : Fld) (v : Nat) : Bool :=
  let ringIrq := decide (8 * 0x11000 ≤ f.key) && decide (f.key < 8 * 0x11800) && f.key % 256 == 8 * 0x14 + 16
  if f = Reg.HIF_NUDGE_CFG_PERIOD then v == 0 || decide (128 < v)
  else if f = Reg.ERR_CTL_CAIRN_MS then decide (v < 100) || decide (60000 < v)
  else ringIrq && v == 0

/-- Reserved bits inside an RW field read 0 (R4): bit 2 of every route. -/
def rwMask (f : Fld) (v : Nat) : Nat :=
  if f = Reg.PAIR_ROUTE_ROUTE then v &&& 0xBBBBBBBBBBBBBBB else v

/-- A field takes its part of the word `v` written at byte `a`, as its access code says; ST fields are staged apart. -/
def State.writeField (s : State) (a v : Nat) (f : Fld) : State :=
  match f.acc with
  | .rw =>
    let x := f.merge a (s.rd f) v
    if reservedRw f x then s else s.wr f (rwMask f x)
  | .w1c => s.wr f (s.rd f ^^^ (s.rd f &&& f.written a v))
  | _ => s

/-- The ST fields of the word at byte `a` are written (R24): discarded on a sealed shadow (R30) and on a Belay (R38), else staged,
and forwarded by an Active to its Belay. -/
def State.stage (s : State) (a v : Nat) : State :=
  if s.glb.sealed || s.belay then
    let s := if s.glb.sealed then s.wr Reg.GLB_CINCH_STAT_SEAL_WR 1 else s
    if s.belay then s.wr Reg.GLB_CINCH_STAT_BELAY_WR 1 else s
  else
    let s := s.stageWord a v
    if s.forwards then s.toPeer 0 (.stagedWrite a v) else s

/-- Every field that lies in the word at byte `a` is written. -/
def State.writeFields (s : State) (a v : Nat) : State :=
  let fs := (fieldsAt a).filter (fun f => f.inWord a)
  let s := fs.foldl (fun s f => s.writeField a v f) s
  if fs.any (fun f => f.acc == .st) then s.stage a v else s

/-! ### Words whose write is discarded as a whole -/

/-- Ring `r` and the offset of a word in its registers. -/
def ringWord (a : Nat) : Option (Nat × Nat) :=
  if 0x11000 ≤ a ∧ a < 0x11800 then some ((a - 0x11000) / 32, (a - 0x11000) % 32) else none

/-- A discarded write of the word at byte `a`: what it sets.  `none` where the write has its effect: a ring's base and interrupt
words while it is ACTIVE (R316), XLT_ROOT while translation is on (R354), the words of PAIR while STATE is not OFF (R380), TB_UTC
and TB_ERR from a requester that does not own the time base (R46). -/
def State.discarded (s : State) (who : Requester) (a : Nat) : Option State :=
  let active := match ringWord a with
    | some (r, o) => if (o < 0x10 ∨ o = 0x14) ∧ s.on (Reg.HIF_RING_STAT_ACTIVE r) then some r else none
    | none => none
  match active with
  | some r => some (s.wr (Reg.HIF_RING_STAT_CFG_WR r) 1)
  | none =>
    if (a = 0x20008 ∨ a = 0x2000C) ∧ s.on Reg.XLT_CTL_EN then some (s.wr Reg.XLT_STAT_ROOT_WR 1)
    else if 0x190010 ≤ a ∧ a < 0x190030 ∧ s.rd Reg.PAIR_STAT_STATE ≠ 0 then
      some (if a < 0x190020 then s.wr Reg.PAIR_STAT_CFG_WR 1 else s)
    else if (a = 0x40028 ∨ a = 0x4002C) ∧ !s.ownsTb who then some (s.wr Reg.TB_STAT_OWNER_WR 1)
    else none

/-! ### What follows from a write -/

/-- TB_UTC is written (R46, R50): LEAP_PEND keeps its value at the reserved encoding, and a new leap raises event 53. -/
def State.writeUtc (s : State) (v : Nat) : State :=
  let s := s.wr Reg.TB_UTC_OFFSET (bits v 0 16)
  if bits v 16 2 = 3 then s else s.setLeapPend (bits v 16 2)

/-- The written ones of SCHED_Q_STAT clear OVERFLOW and UNDERRUN of the queue that SCHED_Q_SEL names (R311). -/
def State.clearQueue (s : State) (v : Nat) : State :=
  let q := s.rd Reg.SCHED_Q_SEL_QUEUE
  State.queueShow { s with sched := { s.sched with
    overflow := if bitOf v 31 then setDel s.sched.overflow q else s.sched.overflow
    underrun := if bitOf v 30 then setDel s.sched.underrun q else s.sched.underrun } }

/-- IDLE_EN of the queue that SCHED_Q_SEL names is written (R306). -/
def State.writeIdle (s : State) (v : Nat) : State :=
  let q := s.rd Reg.SCHED_Q_SEL_QUEUE
  if !queueExists q then s.queueShow
  else s.setIdle (if bitOf v 0 then setAdd s.sched.idle q else setDel s.sched.idle q)

/-- `t` is the state after a write of QTEST to `s` (R306): event 169 where some queue entered or left idle mode. -/
def State.qtest (s t : State) : State :=
  match s.sched.idle.filter (fun q => s.idleMode q != t.idleMode q) with
  | q :: _ => t.queueShow.schedEvent 9 q
  | [] => t.queueShow

/-- The log record that ERR_LOG_SEL now names has been seen (R452). -/
def State.logSelected (s : State) : State :=
  let k := s.rd Reg.ERR_LOG_SEL_REC
  match kvGet? s.err.log k with
  | some r => State.logShow { s with err := { s.err with log := kvSet s.err.log k { r with seen := true } } }
  | none => s.logShow

/-- `t` is the state after a write of PAIR_LINK[l] to `s` (R358): an enabled link trains, a disabled one powers down. -/
def State.linkWritten (s t : State) (l : Nat) : State :=
  let was := s.on (Reg.PAIR_LINK_EN l)
  let now := t.on (Reg.PAIR_LINK_EN l)
  if now && !was then t.wr (Reg.PAIR_LINK_LSTATE l) 1
  else if was && !now then (if t.linkUp l then t.linkDown l else t.wr (Reg.PAIR_LINK_LSTATE l) 0)
  else t

/-- `t` is the state after the fields of the word at byte `a` were written in `s`: what the write changes besides them. -/
def State.follow (s t : State) (a v : Nat) : State :=
  match a with
  | 0x40028 => s.writeUtc v
  | 0x4002C => t.setTq
  | 0x20040 => t.chShow
  | 0x120020 => t.swView
  | 0x150004 =>
    let level := t.on Reg.CAP_X_XARM_LEVEL
    if t.cfOn Reg.CAP_X_XARM_MASTER && t.on Reg.CAP_X_XARM_IN != level then t.xarmChange level else t
  | 0x170440 => t.fslShow
  | 0x180000 => s.qtest t
  | 0x180060 => t.schedShow
  | 0x180070 => t.queueShow
  | 0x180074 => t.clearQueue v
  | 0x18007C => t.writeIdle v
  | 0x1B0030 => t.keyShow
  | 0x1E0010 => t.logSelected
  | _ => if 0x190020 ≤ a ∧ a < 0x190030 then s.linkWritten t ((a - 0x190020) / 4) else t

/-- A write of a word that acts by its access codes alone. -/
def State.writePlain (s : State) (who : Requester) (a v : Nat) : State :=
  match s.discarded who a with
  | some t => t
  | none => s.follow (s.writeFields a v) a v

/-! ### The MSI-X table (R312) -/

/-- A word of the MSI-X table is written; a vector unmasked while it is pending is signalled. -/
def State.writeMsix (s : State) (k v : Nat) : State :=
  let vec := k / 16
  if k % 16 ≠ 12 then { s with hif := { s.hif with msixTable := kvPut s.hif.msixTable k v 0 } }
  else
    let s := { s with hif := { s.hif with msixTable := kvPut s.hif.msixTable k (v % 2) 1 } }
    if v % 2 = 0 ∧ bitOf s.hif.msixPending vec then
      State.msi { s with hif := { s.hif with msixPending := s.hif.msixPending ^^^ 2 ^ vec } } vec
    else s

/-! ### Words with a row of their own -/

/-- A low word that is kept until its high word applies the register, from the owner of the time base (R45 to R47). -/
def State.keepLow (s t : State) (who : Requester) : State := if s.ownsTb who then t else s.wr Reg.TB_STAT_OWNER_WR 1

/-- A write of ING_CMDF (R111): a command code that is none of the four permitted is INVALID. -/
def State.writeCmdf (s : State) (v : Nat) : State :=
  let cmd := bits v 16 16
  if cmd = 1 ∨ cmd = 2 ∨ cmd = 5 ∨ cmd = 6 then s.cmdf (bits v 0 13) cmd
  else s.wr Reg.ING_CMDF_STAT_LAST_STATUS (if s.commandQueued then Status.busy.code else Status.invalid.code)

/-- A write of CAP_CAL (R232): with START 1 the measurement runs; while BUSY the write is discarded. -/
def State.writeCal (s : State) (who : Requester) (w : BitVec 32) : Result :=
  if bitOf w.toNat 31 then execCapCalStart w s
  else .next (if s.on Reg.CAP_CAL_BUSY then s else s.writePlain who 0x1500D0 w.toNat)

/-- A write of ERR_INJ (R463): with GO 1 and KIND 1 or 2 an error is injected. -/
def State.writeInj (s : State) (v : Nat) : Result :=
  if !bitOf v 31 then .next s
  else if bits v 0 2 = 1 then execErrInjSingle (Fin.ofNat 8 (bits v 16 3)) s
  else if bits v 0 2 = 2 then execErrInjDouble (Fin.ofNat 8 (bits v 16 3)) s
  else .next s

/-- A write of XLT_RESUME (R348). -/
def State.writeResume (s : State) (v : Nat) : Result :=
  if !bitOf v 31 then .next s
  else if bitOf v 8 then execResumeSkip none (BitVec.ofNat 16 (bits v 0 7)) s
  else .next (s.mmioRetry (bits v 0 7))

/-- The word at byte `a` belongs to a register whose write has a row of its own: what that row does; `none` for every other word. -/
def State.ownRow (s : State) (who : Requester) (a : Nat) (w : BitVec 32) : Option Result :=
  let v := w.toNat
  match a with
  | 0x40 => some (execSnapTake w s)
  | 0x10024 => some (if bitOf v 31 then execNudgeMmioOne (Fin.ofNat 64 (bits v 0 6)) s else execNudgeMmioAll s)
  | 0x20018 => some (execFringBaseWrite 0 w s)
  | 0x2001C => some (execFringBaseWrite 1 w s)
  | 0x20028 => some (.next { s with xlt := { s.xlt with invLow := w } })
  | 0x2002C => some (if bitOf v 31 then execXltInvalidateAll w s else execXltInvalidateRange w s)
  | 0x20034 => some (s.writeResume v)
  | 0x40008 => some (.next (s.keepLow { s with tb := { s.tb with incrLow := w } } who))
  | 0x4000C => some (execTbIncrWrite who w s)
  | 0x40020 => some (.next (s.keepLow { s with tb := { s.tb with stepLow := w } } who))
  | 0x40024 => some (execTbStepWrite who w s)
  | 0x40068 => some (execTbAlmArm 0 w s)
  | 0x40078 => some (execTbAlmArm 1 w s)
  | 0x40088 => some (execTbAlmArm 2 w s)
  | 0x40098 => some (execTbAlmArm 3 w s)
  | 0xC0008 => some (.next (s.writeCmdf v))
  | 0x1500D0 => some (s.writeCal who w)
  | 0x190000 => some (if bitOf v 31 then execPairEnable w s else execPairDisable w s)
  | 0x1A001C => some (execSafeForceWrite w s)
  | 0x1D0004 => some (execPwrRstWrite w s)
  | 0x1D0008 => some (execBlockRestart w s)
  | 0x1E0040 => some (s.writeInj v)
  | _ =>
    if 0x18000 ≤ a ∧ a < 0x18400 then some (.next (s.writeMsix (a - 0x18000) v)) else
    match ringWord a with
    | some (r, 0x10) =>
      some (if bitOf v 31 then execRingEnable (Fin.ofNat 64 r) w s else execRingDisable (Fin.ofNat 64 r) w s)
    | _ => none

/-- A write anywhere in the SAFE or PWR block breaks the two-write sequence of R389 or R415, but for the words of those sequences,
whose own rows keep it (R482). -/
def State.breakSequence (s : State) (a : Nat) : State :=
  if 0x1A0000 ≤ a ∧ a < 0x1B0000 ∧ a ≠ 0x1A001C then s.safeWrite false
  else if 0x1D0000 ≤ a ∧ a < 0x1E0000 ∧ a ≠ 0x1D0004 then s.pwrWrite false
  else s

/-- REGISTER_WRITE (R5, R417, R481, R482): a write of a word of BAR0, by host software or by firmware.  Not aligned, outside every
register or while BAR0 does not serve the word it is discarded; a word whose write has a row of its own acts as that row says. -/
def execRegisterWrite (who : Requester) (addr : BitVec 26) (value : BitVec 32) (s : State) : Result :=
  let a := addr.toNat
  let s := s.breakSequence a
  if a % 4 ≠ 0 || !s.mayWrite who a then .next s
  else match s.ownRow who a value with
    | some r => r
    | none => .next (s.writePlain who a value.toNat)

end Sys2Proof.Machine
end

