-- ==== Sys2Proof/Machine/Dispatch.lean ====
section
/-! DEFINITION. The dispatch of a command to its meaning, one arm per constructor. -/

namespace Sys2Proof.Machine
open Sys2Proof

/-- The effect of a command on everything but the queue of waiting commands. -/
def exec (i : Instr) (s : State) : Host.Outcome State Fault Refusal :=
  match i with
  | .nop tag => Sys2Proof.Machine.execNop tag s
  | .tableLoad tag len image addr dma => Sys2Proof.Machine.execTableLoad tag len image addr dma s
  | .cinch tag target timed effS effNs grace => Sys2Proof.Machine.execCinch tag target timed effS effNs grace s
  | .cinchAccept => Sys2Proof.Machine.execCinchAccept s
  | .cinchValidated => Sys2Proof.Machine.execCinchValidated s
  | .cinchApply => Sys2Proof.Machine.execCinchApply s
  | .retiringCopyExpiry => Sys2Proof.Machine.execRetiringCopyExpiry s
  | .cinchPrepare target boundary digest => Sys2Proof.Machine.execCinchPrepare target boundary digest s
  | .cinchReadyAnswer unit ready bitmap shapes => Sys2Proof.Machine.execCinchReadyAnswer unit ready bitmap shapes s
  | .cinchPrepareTimeout => Sys2Proof.Machine.execCinchPrepareTimeout s
  | .cinchCommit boundary => Sys2Proof.Machine.execCinchCommit boundary s
  | .cinchAbort => Sys2Proof.Machine.execCinchAbort s
  | .cinchConfirm unit => Sys2Proof.Machine.execCinchConfirm unit s
  | .cinchConfirmTimeout => Sys2Proof.Machine.execCinchConfirmTimeout s
  | .tableForward tag image => Sys2Proof.Machine.execTableForward tag image s
  | .tableForwardAck tag => Sys2Proof.Machine.execTableForwardAck tag s
  | .stagedWriteForward addr value => Sys2Proof.Machine.execStagedWriteForward addr value s
  | .quench tag kind target => Sys2Proof.Machine.execQuench tag kind target s
  | .quenchRelease tag kind target => Sys2Proof.Machine.execQuenchRelease tag kind target s
  | .scheduleFire tag ch at_ grace => Sys2Proof.Machine.execScheduleFire tag ch at_ grace s
  | .scheduleArm tag ch at_ grace => Sys2Proof.Machine.execScheduleArm tag ch at_ grace s
  | .scheduleDisarm tag ch at_ grace => Sys2Proof.Machine.execScheduleDisarm tag ch at_ grace s
  | .scheduleDue => Sys2Proof.Machine.execScheduleDue s
  | .keyOpInfo tag slot len addr dma => Sys2Proof.Machine.execKeyOpInfo tag slot len addr dma s
  | .keyOpDerive tag slot parent len addr dma req took => Sys2Proof.Machine.execKeyOpDerive tag slot parent len addr dma req took s
  | .keyOpImport tag slot parent len addr dma req took => Sys2Proof.Machine.execKeyOpImport tag slot parent len addr dma req took s
  | .keyOpInvalidate tag slot len => Sys2Proof.Machine.execKeyOpInvalidate tag slot len s
  | .keyOpErase tag slot len => Sys2Proof.Machine.execKeyOpErase tag slot len s
  | .keyOpAdvance tag len state check => Sys2Proof.Machine.execKeyOpAdvance tag len state check s
  | .keyOpProvision tag len addr dma wrapped => Sys2Proof.Machine.execKeyOpProvision tag len addr dma wrapped s
  | .keyOpZeroize tag len => Sys2Proof.Machine.execKeyOpZeroize tag len s
  | .keyExpiry slot => Sys2Proof.Machine.execKeyExpiry slot s
  | .attestKeyDerive => Sys2Proof.Machine.execAttestKeyDerive s
  | .attest tag len addr challenge dma => Sys2Proof.Machine.execAttest tag len addr challenge dma s
  | .tamperTrip src unpowered edges => Sys2Proof.Machine.execTamperTrip src unpowered edges s
  | .debugRequest token => Sys2Proof.Machine.execDebugRequest token s
  | .updateStageStage tag len addr dma image => Sys2Proof.Machine.execUpdateStageStage tag len addr dma image s
  | .updateStagePull tag => Sys2Proof.Machine.execUpdateStagePull tag s
  | .pullRequest unit => Sys2Proof.Machine.execPullRequest unit s
  | .imageVerified done => Sys2Proof.Machine.execImageVerified done s
  | .slotWriteComplete equal => Sys2Proof.Machine.execSlotWriteComplete equal s
  | .updateStageActivateTeam tag len addr dma flags at_ grace => Sys2Proof.Machine.execUpdateStageActivateTeam tag len addr dma flags at_ grace s
  | .updateStageActivateLocal tag len addr dma flags at_ grace => Sys2Proof.Machine.execUpdateStageActivateLocal tag len addr dma flags at_ grace s
  | .activateTeamMessage unit measurement at_ => Sys2Proof.Machine.execActivateTeamMessage unit measurement at_ s
  | .updateStageAbandon tag => Sys2Proof.Machine.execUpdateStageAbandon tag s
  | .updateStageSaveCfg tag => Sys2Proof.Machine.execUpdateStageSaveCfg tag s
  | .activation => Sys2Proof.Machine.execActivation s
  | .trialCommit => Sys2Proof.Machine.execTrialCommit s
  | .trialTimeout => Sys2Proof.Machine.execTrialTimeout s
  | .sleep tag timed wakeS wakeNs grace => Sys2Proof.Machine.execSleep tag timed wakeS wakeNs grace s
  | .bivouacEntry => Sys2Proof.Machine.execBivouacEntry s
  | .bivouacDrainEnd => Sys2Proof.Machine.execBivouacDrainEnd s
  | .wakePin rising edges => Sys2Proof.Machine.execWakePin rising edges s
  | .wakePatternMatch port pattern edges => Sys2Proof.Machine.execWakePatternMatch port pattern edges s
  | .timedWake edges => Sys2Proof.Machine.execTimedWake edges s
  | .tbAlmWake k edges => Sys2Proof.Machine.execTbAlmWake k edges s
  | .resumption edges imageOk fail => Sys2Proof.Machine.execResumption edges imageOk fail s
  | .aonCalibrate ppb => Sys2Proof.Machine.execAonCalibrate ppb s
  | .cairnPost tag len addr entries dma => Sys2Proof.Machine.execCairnPost tag len addr entries dma s
  | .cairnWithdraw tag => Sys2Proof.Machine.execCairnWithdraw tag s
  | .cairnForce tag => Sys2Proof.Machine.execCairnForce tag s
  | .captureArmArm tag ch => Sys2Proof.Machine.execCaptureArmArm tag ch s
  | .captureArmDisarm tag ch => Sys2Proof.Machine.execCaptureArmDisarm tag ch s
  | .captureArmFire tag ch => Sys2Proof.Machine.execCaptureArmFire tag ch s
  | .captureArmAbort tag ch => Sys2Proof.Machine.execCaptureArmAbort tag ch s
  | .resumeRetry tag chan dma => Sys2Proof.Machine.execResumeRetry tag chan dma s
  | .resumeSkip tag chan => Sys2Proof.Machine.execResumeSkip tag chan s
  | .registerWrite who addr value => Sys2Proof.Machine.execRegisterWrite who addr value s
  | .snapLatchRead addr => Sys2Proof.Machine.execSnapLatchRead addr s
  | .snapTake word => Sys2Proof.Machine.execSnapTake word s
  | .tbIncrWrite who high => Sys2Proof.Machine.execTbIncrWrite who high s
  | .tbStepWrite who high => Sys2Proof.Machine.execTbStepWrite who high s
  | .tbAlmArm k word => Sys2Proof.Machine.execTbAlmArm k word s
  | .tbAlmFire k => Sys2Proof.Machine.execTbAlmFire k s
  | .cmdfTurnOff entry => Sys2Proof.Machine.execCmdfTurnOff entry s
  | .cmdfTurnOn entry => Sys2Proof.Machine.execCmdfTurnOn entry s
  | .cmdfSendCfg2 entry => Sys2Proof.Machine.execCmdfSendCfg2 entry s
  | .cmdfSendCfg3 entry => Sys2Proof.Machine.execCmdfSendCfg3 entry s
  | .capCalStart word => Sys2Proof.Machine.execCapCalStart word s
  | .capCalDone => Sys2Proof.Machine.execCapCalDone s
  | .nudgeMmioOne ring => Sys2Proof.Machine.execNudgeMmioOne ring s
  | .nudgeMmioAll => Sys2Proof.Machine.execNudgeMmioAll s
  | .ringEnable ring value => Sys2Proof.Machine.execRingEnable ring value s
  | .ringDisable ring value => Sys2Proof.Machine.execRingDisable ring value s
  | .xltInvalidateRange high => Sys2Proof.Machine.execXltInvalidateRange high s
  | .xltInvalidateAll high => Sys2Proof.Machine.execXltInvalidateAll high s
  | .xltInvComplete => Sys2Proof.Machine.execXltInvComplete s
  | .fringBaseWrite word value => Sys2Proof.Machine.execFringBaseWrite word value s
  | .safeForceWrite value => Sys2Proof.Machine.execSafeForceWrite value s
  | .pwrRstWrite value => Sys2Proof.Machine.execPwrRstWrite value s
  | .blockRestart word => Sys2Proof.Machine.execBlockRestart word s
  | .blockRestartDone => Sys2Proof.Machine.execBlockRestartDone s
  | .errInjSingle mem => Sys2Proof.Machine.execErrInjSingle mem s
  | .errInjDouble mem => Sys2Proof.Machine.execErrInjDouble mem s
  | .wrdStatRead => Sys2Proof.Machine.execWrdStatRead s
  | .pairEnable word => Sys2Proof.Machine.execPairEnable word s
  | .pairDisable word => Sys2Proof.Machine.execPairDisable word s
  | .powerOnReset ramLost => Sys2Proof.Machine.execPowerOnReset ramLost s
  | .brownOut ramLost => Sys2Proof.Machine.execBrownOut ramLost s
  | .resetRelease => Sys2Proof.Machine.execResetRelease s
  | .loadComplete => Sys2Proof.Machine.execLoadComplete s
  | .microcodeLoaded fail => Sys2Proof.Machine.execMicrocodeLoaded fail s
  | .selftestComplete fail => Sys2Proof.Machine.execSelftestComplete fail s
  | .flr => Sys2Proof.Machine.execFlr s
  | .busMasterDisable => Sys2Proof.Machine.execBusMasterDisable s
  | .perst => Sys2Proof.Machine.execPerst s
  | .pcieLinkDown => Sys2Proof.Machine.execPcieLinkDown s
  | .pcieLinkUp => Sys2Proof.Machine.execPcieLinkUp s
  | .pcieErrorCompletion chan => Sys2Proof.Machine.execPcieErrorCompletion chan s
  | .frameReceive port frame => Sys2Proof.Machine.execFrameReceive port frame s
  | .prpEntryAge harness => Sys2Proof.Machine.execPrpEntryAge harness s
  | .prpSupervision harness => Sys2Proof.Machine.execPrpSupervision harness s
  | .linkUp port speed anDone => Sys2Proof.Machine.execLinkUp port speed anDone s
  | .linkDown port => Sys2Proof.Machine.execLinkDown port s
  | .frameTransmit port => Sys2Proof.Machine.execFrameTransmit port s
  | .txDescriptor ring bytes ptp dma => Sys2Proof.Machine.execTxDescriptor ring bytes ptp dma s
  | .txCellsFreed ring bytes ptp dma => Sys2Proof.Machine.execTxCellsFreed ring bytes ptp dma s
  | .ingParse => Sys2Proof.Machine.execIngParse s
  | .c37118DataFrame => Sys2Proof.Machine.execC37118DataFrame s
  | .iec905Spdu => Sys2Proof.Machine.execIec905Spdu s
  | .svFrame => Sys2Proof.Machine.execSvFrame s
  | .gooseFrame => Sys2Proof.Machine.execGooseFrame s
  | .gooseTtlExpiry entry => Sys2Proof.Machine.execGooseTtlExpiry entry s
  | .cfgFrame => Sys2Proof.Machine.execCfgFrame s
  | .c37118CmdFrame => Sys2Proof.Machine.execC37118CmdFrame s
  | .tcpSegment => Sys2Proof.Machine.execTcpSegment s
  | .tcpEstablished entry next => Sys2Proof.Machine.execTcpEstablished entry next s
  | .tcpRetry entry => Sys2Proof.Machine.execTcpRetry entry s
  | .rxRingDeliver ring dma => Sys2Proof.Machine.execRxRingDeliver ring dma s
  | .ptpMessage port msg bytes => Sys2Proof.Machine.execPtpMessage port msg bytes s
  | .ptpSend port kind => Sys2Proof.Machine.execPtpSend port kind s
  | .ppsInEdge => Sys2Proof.Machine.execPpsInEdge s
  | .ppsOutPulse => Sys2Proof.Machine.execPpsOutPulse s
  | .ppsOutEnd => Sys2Proof.Machine.execPpsOutEnd s
  | .irigbFrame frame => Sys2Proof.Machine.execIrigbFrame frame s
  | .ref10mLoss => Sys2Proof.Machine.execRef10mLoss s
  | .refQualify => Sys2Proof.Machine.execRefQualify s
  | .refLoss => Sys2Proof.Machine.execRefLoss s
  | .hwLossDetect => Sys2Proof.Machine.execHwLossDetect s
  | .tbLock => Sys2Proof.Machine.execTbLock s
  | .holdoverSecond => Sys2Proof.Machine.execHoldoverSecond s
  | .leapApply => Sys2Proof.Machine.execLeapApply s
  | .lsoExpiry => Sys2Proof.Machine.execLsoExpiry s
  | .tbPlausCheck advancePerTick => Sys2Proof.Machine.execTbPlausCheck advancePerTick s
  | .pheSample => Sys2Proof.Machine.execPheSample s
  | .pheWaitExpiry ch => Sys2Proof.Machine.execPheWaitExpiry ch s
  | .pheOutput ch agree => Sys2Proof.Machine.execPheOutput ch agree s
  | .sliceOpen => Sys2Proof.Machine.execSliceOpen s
  | .measurementPlace => Sys2Proof.Machine.execMeasurementPlace s
  | .sliceDeadline => Sys2Proof.Machine.execSliceDeadline s
  | .revision0Release => Sys2Proof.Machine.execRevision0Release s
  | .revGatherExpiry => Sys2Proof.Machine.execRevGatherExpiry s
  | .revisionRelease => Sys2Proof.Machine.execRevisionRelease s
  | .sliceHorizon => Sys2Proof.Machine.execSliceHorizon s
  | .storeStallClear => Sys2Proof.Machine.execStoreStallClear s
  | .topologyLabel => Sys2Proof.Machine.execTopologyLabel s
  | .lseEstimate => Sys2Proof.Machine.execLseEstimate s
  | .refactorComplete => Sys2Proof.Machine.execRefactorComplete s
  | .oscSample => Sys2Proof.Machine.execOscSample s
  | .oscUpdate set => Sys2Proof.Machine.execOscUpdate set s
  | .oscRevision => Sys2Proof.Machine.execOscRevision s
  | .ruleEval => Sys2Proof.Machine.execRuleEval s
  | .recluster => Sys2Proof.Machine.execRecluster s
  | .reclusterDone => Sys2Proof.Machine.execReclusterDone s
  | .confMiss => Sys2Proof.Machine.execConfMiss s
  | .safetyCompare agree => Sys2Proof.Machine.execSafetyCompare agree s
  | .safetyDeadlineMiss => Sys2Proof.Machine.execSafetyDeadlineMiss s
  | .gooseRepeat p => Sys2Proof.Machine.execGooseRepeat p s
  | .almReadbackMismatch pin => Sys2Proof.Machine.execAlmReadbackMismatch pin s
  | .trigInEdge n rising held => Sys2Proof.Machine.execTrigInEdge n rising held s
  | .xfireEdge => Sys2Proof.Machine.execXfireEdge s
  | .xfirePulseEnd => Sys2Proof.Machine.execXfirePulseEnd s
  | .trigOutPulseEnd k => Sys2Proof.Machine.execTrigOutPulseEnd k s
  | .xarmChange level => Sys2Proof.Machine.execXarmChange level s
  | .holdoffSatisfied ch => Sys2Proof.Machine.execHoldoffSatisfied ch s
  | .captureCopy ch => Sys2Proof.Machine.execCaptureCopy ch s
  | .captureWindowEnd ch => Sys2Proof.Machine.execCaptureWindowEnd ch s
  | .captureDrain ch dma => Sys2Proof.Machine.execCaptureDrain ch dma s
  | .outputFrame => Sys2Proof.Machine.execOutputFrame s
  | .pubDeliver ring dma => Sys2Proof.Machine.execPubDeliver ring dma s
  | .beacon x => Sys2Proof.Machine.execBeacon x s
  | .fslFrameReceive x frame => Sys2Proof.Machine.execFslFrameReceive x frame s
  | .downlinkSend x => Sys2Proof.Machine.execDownlinkSend x s
  | .downlinkAckReceive x dsn => Sys2Proof.Machine.execDownlinkAckReceive x dsn s
  | .downlinkAckTimeout x => Sys2Proof.Machine.execDownlinkAckTimeout x s
  | .downlinkExpiry x => Sys2Proof.Machine.execDownlinkExpiry x s
  | .sensorSilent sensor => Sys2Proof.Machine.execSensorSilent sensor s
  | .transceiverReset x alive => Sys2Proof.Machine.execTransceiverReset x alive s
  | .engineDispatch e => Sys2Proof.Machine.execEngineDispatch e s
  | .affWaitExpiry c => Sys2Proof.Machine.execAffWaitExpiry c s
  | .opComplete e acts => Sys2Proof.Machine.execOpComplete e acts s
  | .releaseStageFree c => Sys2Proof.Machine.execReleaseStageFree c s
  | .delayTick c => Sys2Proof.Machine.execDelayTick c s
  | .graphRunStart => Sys2Proof.Machine.execGraphRunStart s
  | .graphTimedStart g => Sys2Proof.Machine.execGraphTimedStart g s
  | .wardenItemStart pair us made => Sys2Proof.Machine.execWardenItemStart pair us made s
  | .wardenItemOverrun pair us => Sys2Proof.Machine.execWardenItemOverrun pair us s
  | .nudgePoll value dma => Sys2Proof.Machine.execNudgePoll value dma s
  | .doorbellRead words dma => Sys2Proof.Machine.execDoorbellRead words dma s
  | .descriptorFetch ring desc dma => Sys2Proof.Machine.execDescriptorFetch ring desc dma s
  | .completionWrite ring dma progress => Sys2Proof.Machine.execCompletionWrite ring dma progress s
  | .irqCoalTimeout ring => Sys2Proof.Machine.execIrqCoalTimeout ring s
  | .eventEntryWrite q dma => Sys2Proof.Machine.execEventEntryWrite q dma s
  | .heartbeatSend => Sys2Proof.Machine.execHeartbeatSend s
  | .heartbeatReceive h => Sys2Proof.Machine.execHeartbeatReceive h s
  | .partnerLost unit => Sys2Proof.Machine.execPartnerLost unit s
  | .startWaitExpiry => Sys2Proof.Machine.execStartWaitExpiry s
  | .witnessPoll frame => Sys2Proof.Machine.execWitnessPoll frame s
  | .witnessGrant frame => Sys2Proof.Machine.execWitnessGrant frame s
  | .witnessDeny frame => Sys2Proof.Machine.execWitnessDeny frame s
  | .witnessUnreachable => Sys2Proof.Machine.execWitnessUnreachable s
  | .witnessSlot => Sys2Proof.Machine.execWitnessSlot s
  | .witnessAnswer query frame => Sys2Proof.Machine.execWitnessAnswer query frame s
  | .witnessWindowExpiry => Sys2Proof.Machine.execWitnessWindowExpiry s
  | .holdMaxExpiry => Sys2Proof.Machine.execHoldMaxExpiry s
  | .syncReq unit => Sys2Proof.Machine.execSyncReq unit s
  | .resyncImage image => Sys2Proof.Machine.execResyncImage image s
  | .resyncBoundary => Sys2Proof.Machine.execResyncBoundary s
  | .resyncRetry => Sys2Proof.Machine.execResyncRetry s
  | .digest msg => Sys2Proof.Machine.execDigest msg s
  | .digestTimeout => Sys2Proof.Machine.execDigestTimeout s
  | .onoffForward o on => Sys2Proof.Machine.execOnoffForward o on s
  | .timeMessageSend => Sys2Proof.Machine.execTimeMessageSend s
  | .timeMessage unit offset => Sys2Proof.Machine.execTimeMessage unit offset s
  | .hjelDelayMeasure link delay => Sys2Proof.Machine.execHjelDelayMeasure link delay s
  | .hjelFlit link flit crossed => Sys2Proof.Machine.execHjelFlit link flit crossed s
  | .hjelLinkUp link peer => Sys2Proof.Machine.execHjelLinkUp link peer s
  | .hjelLinkDown link noLock => Sys2Proof.Machine.execHjelLinkDown link noLock s
  | .teamRevision unit rev => Sys2Proof.Machine.execTeamRevision unit rev s
  | .teamWaitExpiry => Sys2Proof.Machine.execTeamWaitExpiry s
  | .lockstepMismatch pair => Sys2Proof.Machine.execLockstepMismatch pair s
  | .watchdogExpiry => Sys2Proof.Machine.execWatchdogExpiry s
  | .clockFault => Sys2Proof.Machine.execClockFault s
  | .supplyFault rail => Sys2Proof.Machine.execSupplyFault rail s
  | .temperatureFault tj => Sys2Proof.Machine.execTemperatureFault tj s
  | .periodicSelftest fail => Sys2Proof.Machine.execPeriodicSelftest fail s
  | .scrub found => Sys2Proof.Machine.execScrub found s
  | .correctableError code mem unit addr => Sys2Proof.Machine.execCorrectableError code mem unit addr s
  | .recoverableError struck mem unit addr safety => Sys2Proof.Machine.execRecoverableError struck mem unit addr safety s
  | .fatalError code mem unit addr => Sys2Proof.Machine.execFatalError code mem unit addr s
  | .cairnDone faults => Sys2Proof.Machine.execCairnDone faults s
  | .cairnTimeout => Sys2Proof.Machine.execCairnTimeout s
  | .almOutHalfPeriod pin => Sys2Proof.Machine.execAlmOutHalfPeriod pin s
  | .ref10mReturn => Sys2Proof.Machine.execRef10mReturn s
  | .busMasterEnable => Sys2Proof.Machine.execBusMasterEnable s
  | .tcpConnectionLoss entry => Sys2Proof.Machine.execTcpConnectionLoss entry s
  | .announceReceiptTimeout => Sys2Proof.Machine.execAnnounceReceiptTimeout s
  | .pheDualTimeout ch => Sys2Proof.Machine.execPheDualTimeout ch s
  | .cfgStoreWritten equal => Sys2Proof.Machine.execCfgStoreWritten equal s
  | .activateTeamAnswer unit ready => Sys2Proof.Machine.execActivateTeamAnswer unit ready s
  | .activateTeamTimeout => Sys2Proof.Machine.execActivateTeamTimeout s
  | .sleepLateCompletion => Sys2Proof.Machine.execSleepLateCompletion s

end Sys2Proof.Machine
end

