-- ==== Sys2Proof/Machine/Step.lean ====
section
/-!
DEFINITION. One step of the block: the command at the front of the queue of waiting commands, or, with none waiting, one tick of the
time base.
-/
namespace Sys2Proof.Machine
open Sys2Proof

/-- What passes with no command: one tick of the TB clock (R18, R44, R45), unless everything outside the battery and always-on domains
is held or off, and what follows the time at every tick (notes/assumptions/1.md). -/
def State.idle (s : State) : State :=
  if s.dark then s else s.tick.tcpResend.settleRings.fslWatch.pairAge.trialWatch.wdtWatch.needShow

/-- One step: the oldest waiting command has its effect on everything but the queue, which loses it; an empty queue idles. -/
def step (s : State) : Host.Outcome State Fault Refusal :=
  match s.pending with
  | [] => .next s.idle
  | c :: rest => exec c { s with pending := rest }

/-- `s` with the command that a word spells put at the front of its queue. -/
def State.withFetchWord (s : State) (nbits w : Nat) : State :=
  match decodeTableWord nbits w with
  | some c => { s with pending := c :: s.pending }
  | none => s

end Sys2Proof.Machine
end

