-- ==== Sys2Proof/Safety.lean ====
section
/-!
DEFINITION. What a run must keep, and the conditions on a state in whose terms the statements say where a command takes its course.
-/
namespace Sys2Proof.Machine
open Sys2Proof

/-! ### The management ring -/

/-- The device dequeues management commands and serves every one: no SLEEP has been accepted (R423), and it is not in QUARANTINE
(R408). -/
abbrev State.Serving (s : State) : Prop := s.pwr.sleep = none ∧ s.quarantine = false

/-- Besides, no CINCH is held, behind which some commands wait (R329). -/
abbrev State.Starting (s : State) : Prop := s.Serving ∧ s.hif.heldCinch = none

/-- The key store serves every KEY_OP: besides, the life-cycle state is not RETIRED (R400). -/
abbrev State.KeyServing (s : State) : Prop := s.Serving ∧ s.key.lcs ≠ 4

/-! ### The time base -/

/-- Increments that TB_INCR accepts (R45). -/
abbrev incrLegal (v : Nat) : Prop := 0x01FD70A3D7 ≤ v ∧ v ≤ 0x02028F5C29

/-- The time base holds an instant of its range, a fraction of a nanosecond, and an increment that TB_INCR accepts, and so does the
increment that waits for the next tick (R44, R45). -/
structure State.TimeBaseLegal (s : State) : Prop where
  instant : s.tb.ns < instantModulus
  fraction : s.tb.frac < 2 ^ 32
  increment : incrLegal s.tb.incr
  waiting : ∀ v, s.tb.incrNext = some v → incrLegal v

/-! ### Fuses and the active configuration -/

/-- Fuses are only burned (R398, R400, R433, R443): the life-cycle state stays or takes a permitted transition, SEC_VER does not fall,
and revocation and the device's number stay. -/
structure State.FusesKept (s t : State) : Prop where
  lcs : t.key.lcs = s.key.lcs ∨ lcsMay s.key.lcs t.key.lcs = true ∨ (s.key.lcs = 1 ∧ t.key.lcs = 2)
  secVer : s.key.secVer ≤ t.key.secVer
  revoked : t.key.revoked = s.key.revoked
  devid : t.key.devid = s.key.devid

/-- A configuration with the four fields of KEY_TAMP_CFG taken from the battery copy (R407). -/
def Cfg.withTamper (c : Cfg) (v : Nat) : Cfg :=
  (((c.setFld Reg.KEY_TAMP_CFG_FILT_US (bits v 24 8)).setFld Reg.KEY_TAMP_CFG_INT_EN (bits v 16 4)).setFld
    Reg.KEY_TAMP_CFG_POL (bits v 4 4)).setFld Reg.KEY_TAMP_CFG_EN (bits v 0 4)

/-- What a command may leave in the active configuration (R24): what was there; the shadow, at the boundary of a CINCH; the
configuration received, at the boundary of a resynchronisation (R371); the battery copy of KEY_TAMP_CFG beside what was there, at the
start (R407); the reset configuration, after a reset (R414). -/
def activeAfter (c : Instr) (s : State) (a : Cfg) : Prop :=
  a = s.act ∨ a = Cfg.reset
    ∨ (c = .cinchApply ∧ a = s.shd)
    ∨ (c = .resyncBoundary ∧ ∃ r, s.pair.resync = some r ∧ a = r.act)
    ∨ (c = .resetRelease ∧ a = s.act.withTamper s.key.tampCfg)

/-! ### Sparse maps -/

/-- A map is in canonical form for a default (Ops.lean): its keys strictly rise, and nothing listed equals the default. -/
structure Canonical {α : Type} (m : KV α) (d : Nat → α) : Prop where
  rising : m.Pairwise (fun a b => a.1 < b.1)
  nothing_default : ∀ e ∈ m, e.2 ≠ d e.1

/-- The one step after which the block stands, when it answers a next state. -/
abbrev Steps (s t : State) : Prop := step s = .next t

end Sys2Proof.Machine
end

