-- ==== Sys2Proof/WellFormed.lean ====
section
/-!
DEFINITION. Which operands a command can carry: where a type is wider than what the spec lays out, the lengths and ranges of that
layout.  Every meaning is total on ill-formed operands too; a statement that needs a layout takes well-formedness as a premise.
-/
namespace Sys2Proof.Machine

/-- A table image holds as many records as its header says, none wider than REC_SIZE bytes (R25, R88). -/
def TableImage.wellFormed (i : TableImage) : Bool :=
  i.records.length == i.count.toNat && i.records.all (fun v => decide (v < 2 ^ (8 * i.recSize.toNat)))

/-- A request block of DERIVE or IMPORT: 32 bytes of CONTEXT and 40 of WRAPPED (R404). -/
def KeyReq.wellFormed (r : KeyReq) : Bool := r.context.length == 32 && r.wrapped.length == 40

/-- A firmware image's reserved header bytes: 5 at offset 27 and 128 at offset 128 (R435). -/
def Image.wellFormed (i : Image) : Bool := i.reserved.length == 133

/-- A frame's bytes end before its 4-byte frame check sequence (R72). -/
def Frame.wellFormed (f : Frame) : Bool := f.bytes.length + 4 == f.len

/-- A flit carries 58 payload bytes (R358). -/
def Flit.wellFormed (f : Flit) : Bool := f.payload.length == 58

end Sys2Proof.Machine

namespace Sys2Proof
open Machine

/-- A field of nanoseconds is below one second (R6). -/
def nsField (ns : BitVec 32) : Bool := decide (ns.toNat < nsPerS)

/-- The command's operands have the lengths and ranges of the layouts they come from. -/
def Instr.wellFormed : Instr → Bool
  | .tableLoad _ _ image _ _ | .tableForward _ image => image.wellFormed
  | .cinch _ _ timed _ ns _ => !timed || nsField ns
  | .sleep _ timed _ ns _ => !timed || nsField ns
  | .keyOpDerive _ _ _ _ _ _ req _ | .keyOpImport _ _ _ _ _ _ req _ => req.wellFormed
  | .keyOpProvision _ _ _ _ wrapped => wrapped.length == 40
  | .attest _ _ _ challenge _ => challenge.length == 32
  | .updateStageStage _ _ _ _ image => image.wellFormed
  | .cairnPost _ len _ entries _ => 16 * entries.length == len.toNat
  | .registerWrite _ addr _ => addr.toNat % 4 == 0
  | .snapLatchRead addr => addr.toNat % 4 == 0
  | .frameReceive _ frame => frame.wellFormed
  | .doorbellRead words _ => words.length == 64 || words.length == 1
  | .hjelFlit _ flit _ => flit.wellFormed
  | _ => true

end Sys2Proof
end

