-- ==== Sys2Proof/Certificates/Slice0/Obligations.lean ====
section
/-!
DEFINITION. The statements for the provers.  They come from the numbered rules of spec/: each docstring names the rules.
-/
open Sys2Proof Sys2Proof.Machine

/-! ### The machine -/

/-- A step takes the command that has waited longest and executes it on the state without it. -/
def Obligations.StepRunsFrontCommand : Prop :=
  ∀ (c : Instr) (rest : List Instr) (s : State), s.pending = c :: rest → step s = exec c { s with pending := rest }

/-- With no command waiting a step is one tick of the TB clock, in which due TCP retransmissions leave, rings that have drained show it,
the registers that follow the time are shown anew and firmware services the watchdog; a device that is held in reset or lies in Bivouac stands still (the model's choice: notes/assumptions/1.md). -/
def Obligations.IdleStepIsOneTick : Prop :=
  ∀ s : State, s.pending = [] →
    (s.dark = true → step s = .next s) ∧
    (s.dark = false → step s = .next s.tick.tcpResend.settleRings.fslWatch.pairAge.trialWatch.wdtWatch.needShow)

/-- Every command answers a next state in every state: none faults and none is refused.

No command touches the queue of waiting commands. -/
def Obligations.CommandsAnswerNextAndKeepTheQueue : Prop :=
  (∀ (c : Instr) (s : State), ∃ t, exec c s = .next t) ∧
  (∀ (c : Instr) (s t : State), exec c s = .next t → t.pending = s.pending)

/-- R24: the active copy changes only when a CINCH applies; besides, the spec lets it take the resynchronisation image (R371), the battery
copy of KEY_TAMP_CFG at the start (R407) and the reset values (R414). -/
def Obligations.ActiveCopyChangesOnlyAtBoundaries : Prop :=
  ∀ (c : Instr) (s t : State), exec c s = .next t → activeAfter c s t.act

/-- R398, R400, R433, R443: fuses are only burned, by every step, also one with no command waiting.

The life-cycle state, the owner root and SEC_VER change by no command but KEY_OP ADVANCE, KEY_OP PROVISION and TRIAL_COMMIT (R400,
R402, R443). -/
def Obligations.FusesOnlyBurn : Prop :=
  (∀ s t : State, step s = .next t → s.FusesKept t) ∧
  (∀ (c : Instr) (s t : State), exec c s = .next t →
      (∀ tag len state check, c ≠ .keyOpAdvance tag len state check) →
      (∀ tag len addr dma wrapped, c ≠ .keyOpProvision tag len addr dma wrapped) → c ≠ .trialCommit →
      t.key.lcs = s.key.lcs ∧ t.key.owner = s.key.owner ∧ t.key.secVer = s.key.secVer)

/-- R44, R45: from every state with a legal time base every step leaves a legal time base. -/
def Obligations.TimeBaseStaysLegal : Prop :=
  ∀ s t : State, s.TimeBaseLegal → step s = .next t → t.TimeBaseLegal

/-- The time base after reset is legal, so that the invariant above begins to hold. -/
def Obligations.TimeBaseLegalAtReset : Prop := State.reset.TimeBaseLegal

/-- R44 (the model holds seconds and nanoseconds as one number of nanoseconds, S = ns / 1,000,000,000 and N = ns mod 1,000,000,000): a tick
adds the increment, 8 bits of whole nanoseconds and 32 of fraction, modulo 2^48 seconds; N stays below 1,000,000,000, and a carry of N
adds 1 to S, which wraps; after a power-on reset and after a system reset the time base reads 0 and the increment is exactly 2 ns. -/
def Obligations.TickAddsIncrement : Prop :=
  (∀ s : State, s.TimeBaseLegal → s.tb.incrNext = none →
    let t := s.tick
    let n := s.tb.ns % nsPerS + (s.tb.frac + s.tb.incr) / 2 ^ 32
    t.tb.frac = (s.tb.frac + s.tb.incr) % 2 ^ 32 ∧
    (n < nsPerS → t.tb.ns % nsPerS = n ∧ t.tb.ns / nsPerS = s.tb.ns / nsPerS) ∧
    (nsPerS ≤ n → t.tb.ns % nsPerS = n - nsPerS ∧ t.tb.ns / nsPerS = (s.tb.ns / nsPerS + 1) % 2 ^ 48) ∧
    t.tb.ns % nsPerS < 2 ^ 30 ∧ t.tb.ns / nsPerS < 2 ^ 48 ∧ t.tb.incr = s.tb.incr ∧
    t = { s with tb := { s.tb with ns := t.tb.ns, frac := t.tb.frac } }) ∧
  (∀ (s : State) (cause : Nat) (lost : Bool),
    (s.powerOn cause lost).tb.ns = 0 ∧ (s.powerOn cause lost).tb.frac = 0 ∧ (s.powerOn cause lost).tb.incr = 0x0200000000 ∧
    (s.systemReset cause).tb.ns = 0 ∧ (s.systemReset cause).tb.frac = 0 ∧ (s.systemReset cause).tb.incr = 0x0200000000)

/-- R45: an increment that the register accepts is taken at the next tick, whole, and the fraction accumulated so far is kept; outside the
range the write is discarded and INCR_RANGE set, and nothing else changes. -/
def Obligations.IncrementTakenAtNextTick : Prop :=
  ∀ (s t : State) (who : Requester) (high : BitVec 32), s.TimeBaseLegal → s.tbState ≠ tbHOLDOVER → s.ownsTb who = true →
    s.mayWrite who 0x4000C = true → exec (.tbIncrWrite who high) s = .next t →
    let v := high.toNat % 256 * 2 ^ 32 + s.tb.incrLow.toNat
    (incrLegal v → t.tb.ns = s.tb.ns ∧ t.tb.frac = s.tb.frac ∧ t.tick.tb.incr = v ∧ t.dev = s.dev ∧
      2 ^ 32 * t.tick.tb.ns + t.tick.tb.frac = (2 ^ 32 * s.tb.ns + s.tb.frac + v) % (2 ^ 32 * instantModulus)) ∧
    (¬ incrLegal v → t = s.wr Reg.TB_STAT_INCR_RANGE 1)

/-- R389, R415: the safe state is forced, and the system reset, only by the two values one right after the other: the second value with the
first one before it acts, any other value does not, and any write to an offset of the block, register or not, comes between. -/
def Obligations.TwoWriteSequences : Prop :=
  ∀ (s : State) (v : BitVec 32) (who : Requester) (addr : BitVec 26),
    (s.barOpen 0x1A001C = true → s.safety.armed = true →
      exec (.safeForceWrite 0xAF5E) s = .next (State.react { s with safety := { s.safety with armed := false } } 0x11)) ∧
    (s.barOpen 0x1A001C = true → v ≠ 0xAF5E ∨ s.safety.armed = false →
      exec (.safeForceWrite v) s = .next { s with safety := { s.safety with armed := v == 0x5AFE } }) ∧
    (0x1A0000 ≤ addr.toNat → addr.toNat < 0x1B0000 → addr.toNat ≠ 0x1A001C →
      ∃ t, exec (.registerWrite who addr v) s = .next t ∧ t.safety.armed = false) ∧
    (s.pwr.armed = true → exec (.pwrRstWrite 0xA7E5) s = .next (s.systemReset 2)) ∧
    (v ≠ 0xA7E5 ∨ s.pwr.armed = false → exec (.pwrRstWrite v) s = .next { s with pwr := { s.pwr with armed := v == 0x5E7A } }) ∧
    (0x1D0000 ≤ addr.toNat → addr.toNat < 0x1E0000 → addr.toNat ≠ 0x1D0004 →
      ∃ t, exec (.registerWrite who addr v) s = .next t ∧ t.pwr.armed = false)

/-- R356: of two claims the one with the higher epoch, modulo 4,096, or else the higher unit, is higher: never both, and of two that differ
one is, unless their epochs lie 2,048 apart; a zeroize and a loss of power leave the claim epoch. -/
def Obligations.ClaimsAreCompared : Prop :=
  (∀ a b : Nat, a < 2 ^ 16 → b < 2 ^ 16 →
    (claimAbove a b = true ↔ (1 ≤ (a / 16 + 4096 - b / 16) % 4096 ∧ (a / 16 + 4096 - b / 16) % 4096 ≤ 2047) ∨
      (a / 16 = b / 16 ∧ b % 16 < a % 16)) ∧
    ¬ (claimAbove a b = true ∧ claimAbove b a = true) ∧
    (a ≠ b → (a / 16 + 4096 - b / 16) % 4096 ≠ 2048 → claimAbove a b = true ∨ claimAbove b a = true)) ∧
  (∀ (s : State) (reason cause : Nat) (unpowered : Bool),
    (s.zeroize reason unpowered).pair.epoch = s.pair.epoch ∧ (s.powerOn cause false).pair.epoch = s.pair.epoch)

/-- R24, R414: what reset leaves: the shadow equals the active copy, nothing staged, sealed or retiring, no slot with a key, no command
waiting, and the boot ROM about to run (PHASE 1). -/
def Obligations.ResetLeaves : Prop :=
  State.reset.shd = State.reset.act ∧ State.reset.ret = none ∧ State.reset.glb.sealed = false ∧ State.reset.glb.cinch = none ∧
  State.reset.slots = [] ∧ State.reset.pending = [] ∧ State.reset.rd Reg.PWR_STAT_PHASE = 1 ∧
  State.reset.rd Reg.GLB_EPOCH_EPOCH = 0 ∧ State.reset.rd Reg.SAFE_STAT_CAUSE = 0 ∧ State.reset.rd Reg.TB_STAT_STATE = 0

/-! ### Registers, tables, counters, completions -/

/-- A sparse map gives back what was put for a key and every other key's value, and stays in canonical form.

A register field without shadow holds the value written, cut to its width, and no other field changes; nor does anything else.

R24: a staged write goes to the shadow alone, the last write to a field wins, and the active copy stays.

R25: a record loaded into a copy is read back at its index, and every other record of every table, and every field, stays. -/
def Obligations.StorageHoldsWhatWasWritten : Prop :=
  (∀ {α : Type} [DecidableEq α] (m : KV α) (d : Nat → α) (k j : Nat) (v : α), Canonical m d →
      Canonical (kvPut m k v (d k)) d ∧ kvGetD (kvPut m k v (d k)) k (d k) = v ∧
      (j ≠ k → kvGetD (kvPut m k v (d k)) j (d j) = kvGetD m j (d j)) ∧
      (kvPut m k (kvGetD m k (d k)) (d k) = m)) ∧
  (∀ (s : State) (f g : Fld) (v : Nat), s.dev.Pairwise (fun a b => a.1 < b.1) →
      (s.wr f v).rd f = v % 2 ^ f.width ∧ (g.key ≠ f.key → (s.wr f v).rd g = s.rd g) ∧
      (s.wr f v).dev.Pairwise (fun a b => a.1 < b.1) ∧ { s.wr f v with dev := s.dev } = s) ∧
  (∀ (c : Cfg) (f g : Fld) (v w : Nat), c.regs.Pairwise (fun a b => a.1 < b.1) →
      (c.setFld f v).fld f = v % 2 ^ f.width ∧ (g.key ≠ f.key → (c.setFld f v).fld g = c.fld g) ∧
      (c.setFld f v).tabs = c.tabs ∧ (c.setFld f v).setFld f w = c.setFld f w) ∧
  (∀ (c : Cfg) (code i code' j : Nat) (r : Rec), c.tabs.Pairwise (fun a b => a.1 < b.1) → i < 2 ^ 20 → j < 2 ^ 20 →
      (c.setTab code i r).tab code i = r ∧
      ((code', j) ≠ (code, i) → (c.setTab code i r).tab code' j = c.tab code' j) ∧ (c.setTab code i r).regs = c.regs)

/-- R83: a counter of a block counts up by the given number modulo 2^32; where bit 31 does not change nothing else happens, and where it
does, its HALF bit is set and the block's half-range source is raised, with the index it counted for where the block keeps one (R113).

R335: raising a source changes register fields, what waits on the event queues and when sources were last raised, and nothing else.

R113, R335: a source that is limited to one event per millisecond, raised again within it, renews its index fields and does nothing
else; any other raise writes the index fields, sets the cause bit and, where the route of the source is off, nothing but the instant the
limit counts from. -/
def Obligations.CountersAndEventSourcesActLocally : Prop :=
  (∀ (s : State) (b : Blk) (i d x : Nat),
      let u := s.wr (b.cnt i) (s.rd (b.cnt i) + d)
      (bitOf (s.rd (b.cnt i)) 31 = bitOf (s.rd (b.cnt i) + d) 31 → s.bumpBy b i d x = u) ∧
      (bitOf (s.rd (b.cnt i)) 31 ≠ bitOf (s.rd (b.cnt i) + d) 31 → s.bumpBy b i d x = (u.orBit b.half i).raise b.halfSource (b.halfIdx.map (fun f => (f, x))))) ∧
  (∀ (s : State) (src : Nat) (idx : List (Fld × Nat)), ∃ d w l,
      s.raise src idx = { s with dev := d, hif := { s.hif with evWait := w, lastRaise := l } }) ∧
  (∀ (s : State) (src : Nat) (idx : List (Fld × Nat)) (f : Fld) (k : Nat), causeOf src = some (f, k) →
      let en := Reg.HIF_EVT_ROUTE_EN src
      let z := idx.foldl (fun y p => y.wr p.1 p.2) s
      (rateLimited src = true → (∃ t, kvGet? s.hif.lastRaise src = some t ∧ t ≤ s.now ∧ s.now < t + 1000000) → s.raise src idx = z) ∧
      (s.on en = false → f.key ≠ en.key → (∀ p ∈ idx, p.1.key ≠ en.key) →
        (rateLimited src = false → s.raise src idx = z.orBit f k) ∧
        (rateLimited src = true → (∀ t, kvGet? s.hif.lastRaise src = some t → t + 1000000 ≤ s.now) →
          s.raise src idx = State.orBit { z with hif := { s.hif with lastRaise := kvSet s.hif.lastRaise src s.now } } f k)))

/-- R321, R328: a management command that completes leaves those in progress, and its completion is the last of those that wait for
the management ring, where that is enabled and has room. -/
def Obligations.ManagementCompletionQueued : Prop :=
  ∀ (s : State) (op : Opcode) (tag : Nat) (st : Status) (result : Nat),
    s.on (Reg.HIF_RING_CFG_EN 0) = true → (s.ring 0).held.length < s.cqFree 0 →
    let t := s.mgmtDone op tag st result
    (t.ring 0).held = (s.ring 0).held ++ [mgmtCpl st op tag result] ∧ t.hif.running = s.hif.running.erase (op.code, tag) ∧
    t.act = s.act ∧ t.shd = s.shd ∧ t.key = s.key ∧ t.slots = s.slots ∧ t.tb = s.tb

/-! ### Completion: what a command does where it takes its course.  Every conclusion is an equation for `exec`, so that everything the
equation does not name stays. -/

/-- R80, R330, R331: NOP completes with OK; QUENCH quenches its target and answers OK, or QUENCHED where it was quenched, its release action
ends that, and a target that does not exist gives INVALID. COMPLETES, each with its own effect as a next state under conditions on state
and operands alone: nop, quench, quenchRelease. -/
def Obligations.NopAndQuenchComplete : Prop :=
  ∀ (tag : BitVec 16) (kind : BitVec 8) (target : BitVec 16) (s : State),
    (s.pwr.sleep = none → exec (.nop tag) s = .next (s.mgmtDone .nop tag.toNat .ok)) ∧
    (s.Serving → s.quenchState kind.toNat target.toNat = some false →
      exec (.quench tag kind target) s =
        .next ((s.setQuench kind.toNat target.toNat true).mgmtDone .quench tag.toNat .ok)) ∧
    (s.Serving → s.quenchState kind.toNat target.toNat = some true →
      exec (.quench tag kind target) s = .next (s.mgmtDone .quench tag.toNat .quenched)) ∧
    (∀ b, s.Serving → s.quenchState kind.toNat target.toNat = some b →
      exec (.quenchRelease tag kind target) s =
        .next ((s.setQuench kind.toNat target.toNat false).mgmtDone .quench tag.toNat .ok)) ∧
    (s.Serving → s.quenchState kind.toNat target.toNat = none →
      exec (.quench tag kind target) s = .next (s.mgmtDone .quench tag.toNat .invalid) ∧
      exec (.quenchRelease tag kind target) s = .next (s.mgmtDone .quench tag.toNat .invalid))

/-- R24, R25, R38: a TABLE_LOAD whose image passes its checks writes the shadow and completes with OK; on an Active it is forwarded and
completes with the Belay's acknowledgement; the Belay takes a forwarded image and a forwarded word into its shadow. COMPLETES, each with
its own effect as a next state under conditions on state and operands alone: tableLoad, tableForward, tableForwardAck,
stagedWriteForward. -/
def Obligations.TableLoadsAndForwardsComplete : Prop :=
  ∀ (tag : BitVec 16) (len : BitVec 32) (image : TableImage) (addr : BitVec 48) (dma : Dma) (d : TableDesc) (s u : State),
    (s.Starting → s.belay = false → s.glb.sealed = false → 64 ≤ len.toNat → len.toNat ≤ 16 * 2 ^ 20 →
      s.cmdDma false 0 addr.toNat dma = (true, u) → image.table? len.toNat = some d → u.forwards = false →
      exec (.tableLoad tag len image addr dma) s =
        .next ({ u with shd := u.shd.load d.code image }.mgmtDone .tableLoad tag.toNat .ok
          (image.magic.toNat + 2 ^ 32 * image.count.toNat))) ∧
    (s.Starting → s.belay = false → s.glb.sealed = false → 64 ≤ len.toNat → len.toNat ≤ 16 * 2 ^ 20 →
      s.cmdDma false 0 addr.toNat dma = (true, u) → image.table? len.toNat = some d → u.forwards = true →
      exec (.tableLoad tag len image addr dma) s =
        .next ((State.mgmtStart { u with
            shd := u.shd.load d.code image
            glb := { u.glb with forwards := u.glb.forwards ++ [(tag.toNat, image.magic.toNat, image.count.toNat)] } }
          .tableLoad tag.toNat).toPeer 3 (.tableForward (some tag) image))) ∧
    (∀ t, s.belay = true → tableOf image.magic.toNat = some d →
      exec (.tableForward t image) s = .next ({ s with shd := s.shd.load d.code image }.toPeer 3 (.tableAck t))) ∧
    (∀ f, s.glb.forwards.find? (fun f => f.1 == tag.toNat) = some f →
      exec (.tableForwardAck (some tag)) s =
        .next ({ s with glb := { s.glb with forwards := s.glb.forwards.erase f } }.mgmtDone .tableLoad f.1 .ok
          (f.2.1 + 2 ^ 32 * f.2.2))) ∧
    (∀ a v, s.belay = true → exec (.stagedWriteForward a v) s = .next (s.stageWord a.toNat v.toNat))

/-- R28 to R32, R329: a CINCH is held for the commands in progress; accepted, it seals the shadow; refused, it completes with the status of
its first failed check; validated, it is refused with the first inconsistency recorded, or, on a package alone, is decided for the
boundary of R32. COMPLETES, each with its own effect as a next state under conditions on state and operands alone: cinchAccept,
cinchValidated, cinch. -/
def Obligations.CinchAcceptanceAndValidationComplete : Prop :=
  ∀ (tag : BitVec 16) (target : BitVec 32) (timed : Bool) (effS : BitVec 48) (effNs : BitVec 32) (grace : BitVec 16)
    (waits : List (Nat × Nat)) (c : Cinch) (s : State),
    let i : Instr := .cinch tag target timed effS effNs grace
    let eff := if timed then some (instantOf effS.toNat effNs.toNat) else none
    let u : State := { s with hif := { s.hif with heldCinch := none } }
    (s.Starting → exec i s = .next { s with hif := { s.hif with heldCinch := some (i, s.hif.running) } }) ∧
    (s.hif.heldCinch = some (i, waits) → (∀ w ∈ waits, w ∉ s.hif.running) →
      u.cinchRefused target.toNat eff grace.toNat = none →
      exec .cinchAccept s = .next (((({ u with glb := { u.glb with
            cinch := some { tag := tag.toNat, target := target.toNat, eff := eff, grace := grace.toNat, accepted := s.now,
                            phase := .validating, boundary := 0, late := false, waiting := [], bitmaps := [], alone := false, sentAt := 0 }
            sealed := true, aborted := none } }.mgmtStart .cinch tag.toNat).showPending (some target.toNat)).lseAccept).behindStarts)) ∧
    (∀ st, s.hif.heldCinch = some (i, waits) → (∀ w ∈ waits, w ∉ s.hif.running) →
      u.cinchRefused target.toNat eff grace.toNat = some st →
      exec .cinchAccept s = .next (u.cinchDone tag.toNat st none).behindStarts) ∧
    (∀ x, s.glb.cinch = some c → c.phase = .validating → s.firstRefusal (s.shd.look []) (!s.teamLook) = some x →
      exec .cinchValidated s = .next ((s.recordInc x.cls x.blk x.tab x.idx 0).refuse c .refusedInconsistent)) ∧
    (s.glb.cinch = some c → c.phase = .validating → s.firstRefusal (s.shd.look []) (!s.teamLook) = none →
      s.rd Reg.PAIR_STAT_STATE ≠ 4 → s.on Reg.PAIR_CTL_ENABLE = false → s.meetsActivation (s.chooseBoundary c).1 = false →
      exec .cinchValidated s = .next ((s.setCinch (some { c with
        alone := false, phase := .ready, boundary := (s.chooseBoundary c).1, late := (s.chooseBoundary c).2 })).toUnits c.units 0
          (.commit (s.chooseBoundary c).1)))

/-- R31, R39, R40: a member prepares by sealing its shadow and answering ready, or answers its own first inconsistency; the coordinator
decides with the last ready answer and ends the CINCH on a refusal or after 20 ms; a member keeps the decision it is told. COMPLETES,
each with its own effect as a next state under conditions on state and operands alone: cinchPrepare, cinchReadyAnswer,
cinchPrepareTimeout, cinchCommit, cinchAbort. -/
def Obligations.CinchTeamPhasesComplete : Prop :=
  ∀ (target : BitVec 32) (b : Nat) (c : Cinch) (m : MemberCinch) (u : Fin 16) (bitmap : Nat) (shapes : List (Nat × Nat × Nat × Nat))
    (s : State),
    (s.cinchMember = true → s.glb.member = none → target.toNat = epochNext (s.rd Reg.GLB_EPOCH_EPOCH) →
      s.firstRefusal (s.shd.look []) true = none →
      exec (.cinchPrepare target b none) s =
        .next ((({ s with glb := { s.glb with sealed := true, member := some ⟨target.toNat, b, none, false⟩ } }.showPending
          (some target.toNat)).lseAccept).sendHjel s.coordinatorUnit 0 (.ready true s.shd.bitmap s.shd.shapes))) ∧
    (∀ d, s.cinchMember = true → s.glb.member = none → d ≠ s.shd.digest →
      exec (.cinchPrepare target b (some d)) s =
        .next ((s.recordInc 9 0 0 0 0).sendHjel s.coordinatorUnit 0 (.ready false 0 []))) ∧
    (s.cinchMember = true → s.glb.member = some m → m.target = target.toNat → m.diverged = false →
      ∀ d, exec (.cinchPrepare target b d) s = .next (s.setMember (some { m with boundary := b }))) ∧
    (s.glb.cinch = some c → c.phase = .preparing → u.val ∈ c.waiting →
      exec (.cinchReadyAnswer u false bitmap shapes) s =
        .next (((s.recordInc 0x0A 0 0 0 u).abortTeam c).refuse c .refusedInconsistent)) ∧
    (s.glb.cinch = some c → c.phase = .preparing → c.waiting = [u.val] → s.pairMode = true → s.teamLook = false →
      exec (.cinchReadyAnswer u true bitmap shapes) s =
        .next (s.decideCinch { c with waiting := [], bitmaps := c.bitmaps ++ [(u.val, bitmap)] })) ∧
    (s.glb.cinch = some c → c.phase = .preparing → c.sentAt + 20000000 ≤ s.now →
      exec .cinchPrepareTimeout s = .next ((s.abortTeam c).refuse c .degraded)) ∧
    (s.glb.member = some m → m.decision = none → m.diverged = false → s.now < b →
      exec (.cinchCommit b) s = .next (s.setMember (some { m with decision := some true, boundary := b }))) ∧
    (s.glb.member = some m →
      exec .cinchAbort s = .next (((s.setMember none).release).wr Reg.GLB_CINCH_STAT_DIVERGED 0))

/-- R33 to R35, R39 to R41: at the boundary the shadow applies; the coordinator completes the CINCH at once where no member takes part, else
with the last confirmation or 5 ms after the boundary; a member confirms, and one without a decision is diverged; the previous epoch's
copy goes with its revision horizon, kept for the slices that still need it. COMPLETES, each with its own effect as a next state under
conditions on state and operands alone: cinchApply, cinchConfirm, cinchConfirmTimeout, retiringCopyExpiry. -/
def Obligations.CinchApplicationCompletes : Prop :=
  ∀ (c : Cinch) (m : MemberCinch) (r : Retiring) (u : Fin 16) (s : State),
    (s.glb.cinch = some c → c.phase = .ready → c.boundary ≤ s.now → c.bitmaps = [] →
      exec .cinchApply s = .next (((s.applyCinch c.boundary).setCinch none).cinchDone c.tag
        (if c.alone then .degraded else if c.late then .late else .ok) (some c.boundary))) ∧
    (s.glb.cinch = some c → c.phase = .ready → c.boundary ≤ s.now → c.bitmaps ≠ [] →
      exec .cinchApply s = .next ((s.applyCinch c.boundary).setCinch
        (some { c with phase := .confirming, waiting := c.bitmaps.map (·.1) }))) ∧
    (∀ x, s.glb.cinch = none → s.glb.member = some m → m.decision = some x → m.boundary ≤ s.now →
      exec .cinchApply s = .next (((((s.setMember none).applyCinch m.boundary).wr Reg.GLB_CINCH_STAT_DIVERGED 0).sendHjel
        ((s.setMember none).applyCinch m.boundary).coordinatorUnit 0 .confirm))) ∧
    (s.glb.cinch = none → s.glb.member = some m → m.decision = none → m.diverged = false → m.boundary ≤ s.now →
      exec .cinchApply s = .next (((s.setMember (some { m with diverged := true })).wr Reg.GLB_CINCH_STAT_DIVERGED 1).pairEvent 8)) ∧
    (s.glb.cinch = some c → c.phase = .confirming → c.waiting.filter (fun x => x != u.val) = [] →
      exec (.cinchConfirm u) s = .next ((s.setCinch none).cinchDone c.tag (if c.late then .late else .ok) (some c.boundary))) ∧
    (s.glb.cinch = some c → c.phase = .confirming → c.boundary + 5000000 ≤ s.now →
      exec .cinchConfirmTimeout s = .next ((s.setCinch none).cinchDone c.tag .degraded (some c.boundary))) ∧
    (s.ret = some r → r.expiry ≤ s.now →
      exec .retiringCopyExpiry s = .next s.retire)

/-- R36, R230, R247, R331, R333: CAPTURE_ARM and its actions complete as the channel's state allows; a SCHEDULE waits for its instant, and
then takes place and completes. COMPLETES, each with its own effect as a next state under conditions on state and operands alone:
captureArmArm, captureArmDisarm, captureArmFire, captureArmAbort, scheduleFire, scheduleArm, scheduleDisarm, scheduleDue. -/
def Obligations.CaptureArmAndScheduleComplete : Prop :=
  ∀ (tag : BitVec 16) (ch : Fin 8) (at_ : Nat) (grace : BitVec 16) (x : Sched) (s : State),
    (s.Serving → exec (.captureArmArm tag ch) s = .next ((s.capArm ch).2.capDone tag ch (s.capArm ch).1)) ∧
    (s.Serving → exec (.captureArmDisarm tag ch) s = .next ((s.capDisarm ch).2.capDone tag ch (s.capDisarm ch).1)) ∧
    (s.Serving → (s.capCfg ch).capOn = true →
      let f := s.capTrigger ch [⟨s.now, 9, 0, false⟩] (s.trigPoint s.now)
      exec (.captureArmFire tag ch) s =
        .next (f.2.capDone tag ch (if f.1 = Fired.fired ∨ f.1 = Fired.merged then .ok else .degraded))) ∧
    (s.Serving → (s.capCfg ch).capOn = true → (s.capChan ch).phase = .recording →
      exec (.captureArmAbort tag ch) s = .next ((s.capComplete ch false true).capDone tag ch .ok)) ∧
    (s.Serving → exec (.scheduleFire tag ch at_ grace) s = .next (s.schedule tag.toNat 0 ch at_ grace.toNat)) ∧
    (s.Serving → exec (.scheduleArm tag ch at_ grace) s = .next (s.schedule tag.toNat 1 ch at_ grace.toNat)) ∧
    (s.Serving → exec (.scheduleDisarm tag ch at_ grace) s = .next (s.schedule tag.toNat 2 ch at_ grace.toNat)) ∧
    (s.hif.schedules.find? (fun x => decide (x.due ≤ s.now)) = some x → x.action = 1 →
      let u : State := { s with hif := { s.hif with schedules := s.hif.schedules.erase x } }
      exec .scheduleDue s = .next ((u.capArm x.chan).2.mgmtDone .schedule x.tag ((u.capArm x.chan).1.orLate x.late)
        (x.due % nsPerS + 2 ^ 32 * (x.due / nsPerS % 2 ^ 32))))

/-! ### Keys, attestation, tamper, debug -/

/-- R396, R401 to R405: KEY_OP INFO writes the slot's record and completes; DERIVE and IMPORT, once LEN, target, request block, parent and
expiry pass, write the key made under the parent; INVALIDATE takes the slot and all below it; ERASE empties an unused slot. Each counts
in KEY_OPS first. COMPLETES, each with its own effect as a next state under conditions on state and operands alone: keyOpInfo,
keyOpDerive, keyOpImport, keyOpInvalidate, keyOpErase. -/
def Obligations.KeySlotOperationsComplete : Prop :=
  ∀ (tag : BitVec 16) (slot parent : Fin 256) (len : BitVec 32) (addr : BitVec 48) (dma : Dma) (req : KeyReq) (took : Nat) (s u : State),
    let t := s.bump .key C.KEY_KEY_OPS
    (s.pwr.sleep = none → 32 ≤ len.toNat → t.cmdDma true slot addr.toNat dma = (true, u) →
      exec (.keyOpInfo tag slot len addr dma) s = .next ((u.emit (.hostWrite addr.toNat (u.slotBytes slot))).mgmtDone .keyOp tag.toNat .ok
        ((u.emit (.hostWrite addr.toNat (u.slotBytes slot))).keyResult slot))) ∧
    (s.KeyServing → len = 64 → (t.slot slot).st ≠ 1 → t.cmdDma false slot addr.toNat dma = (true, u) → req.ok = true →
      parent.val = 0xFF → req.exp = none →
      exec (.keyOpDerive tag slot parent len addr dma req took) s = u.writeKey tag slot 0xFF req
        (kdf u.root (keyLen req.alg.toNat) (labelSlot ++ leBytes 1 req.alg.toNat ++ leBytes 1 req.usage.toNat)
          (req.context ++ u.devidBytes)) false took) ∧
    (s.KeyServing → len = 64 → (t.slot slot).st ≠ 1 → t.cmdDma false slot addr.toNat dma = (true, u) → req.ok = true →
      parent.val ≠ 0xFF → (u.slot parent).st = 1 → (u.slot parent).alg = 3 → bitOf (u.slot parent).usage 4 = true →
      (u.slot parent).depth < 4 → parent ≠ slot → req.exp = none →
      exec (.keyOpDerive tag slot parent len addr dma req took) s = u.writeKey tag slot parent req
        (kdf (u.slot parent).key (keyLen req.alg.toNat) (labelSlot ++ leBytes 1 req.alg.toNat ++ leBytes 1 req.usage.toNat)
          (req.context ++ u.devidBytes)) false took) ∧
    (s.KeyServing → len = 104 → (t.slot slot).st ≠ 1 → t.cmdDma false slot addr.toNat dma = (true, u) → req.ok = true →
      parent.val ≠ 0xFF → (u.slot parent).st = 1 → (u.slot parent).alg = 3 → bitOf (u.slot parent).usage 4 = true →
      (u.slot parent).depth < 4 → parent ≠ slot → req.exp = none →
      exec (.keyOpImport tag slot parent len addr dma req took) s =
        match keyUnwrap (u.slot parent).key (req.wrapped.take (if req.alg = 2 then 24 else 40)) with
        | some bs => if bs.length = keyLen req.alg.toNat then u.writeKey tag slot parent req (leNat bs) true took
          else u.keyDone tag slot .invalid
        | none => u.keyDone tag slot .invalid) ∧
    (s.KeyServing → len = 0 →
      exec (.keyOpInvalidate tag slot len) s = .next ((t.invalidate (slot.val :: t.below slot)).mgmtDone .keyOp tag.toNat .ok
        ((t.invalidate (slot.val :: t.below slot)).keyResult slot))) ∧
    (s.KeyServing → len = 0 → t.referenced slot = false → t.below slot = [] →
      exec (.keyOpErase tag slot len) s =
        .next ((t.setSlot slot { KeySlot.empty with gen := (t.slot slot).gen }).keyShow.mgmtDone .keyOp tag.toNat .ok
          ((t.setSlot slot { KeySlot.empty with gen := (t.slot slot).gen }).keyShow.keyResult slot)))

/-- R398, R400, R402, R405, R408: KEY_OP ADVANCE takes a permitted transition, which into RETIRED zeroizes; PROVISION burns the owner root
that the wrapped key holds, zeroizes and takes the device to PROVISIONED; ZEROIZE zeroizes with cause 2; at a slot's expiry it and every
slot below it become INVALID. COMPLETES, each with its own effect as a next state under conditions on state and operands alone:
keyOpAdvance, keyOpProvision, keyOpZeroize, keyExpiry. -/
def Obligations.KeyLifeCycleOperationsComplete : Prop :=
  ∀ (tag : BitVec 16) (slot : Fin 256) (len : BitVec 32) (addr : BitVec 48) (dma : Dma) (wrapped : List Byte) (state : BitVec 8)
    (s u : State),
    let t := s.bump .key C.KEY_KEY_OPS
    (s.KeyServing → len = 0 → state.toNat < 4 → lcsMay t.key.lcs state.toNat = true →
      exec (.keyOpAdvance tag len state (~~~state)) s = .next ((t.setLcs state.toNat).mgmtDone .keyOp tag.toNat .ok)) ∧
    (s.KeyServing → len = 0 → lcsMay t.key.lcs 4 = true →
      exec (.keyOpAdvance tag len 4 0xFB) s = .next (((t.zeroize 4 false).setLcs 4).mgmtDone .keyOp tag.toNat .ok)) ∧
    (s.KeyServing → len = 40 → s.key.lcs = 1 → t.cmdDma false 0 addr.toNat dma = (true, u) →
      exec (.keyOpProvision tag len addr dma wrapped) s =
        match keyUnwrap (kdf u.root 32 labelProv u.devidBytes) (wrapped.take 40) with
        | some bs => if bs.length = 32
          then .next (((State.zeroize { u with key := { u.key with owner := some (leNat bs) } } 5 false).setLcs 2).mgmtDone
            .keyOp tag.toNat .ok)
          else .next (u.mgmtDone .keyOp tag.toNat .invalid)
        | none => .next (u.mgmtDone .keyOp tag.toNat .invalid)) ∧
    (s.KeyServing → len = 0 → exec (.keyOpZeroize tag len) s = .next ((t.zeroize 2 false).mgmtDone .keyOp tag.toNat .ok)) ∧
    (∀ e, (s.slot slot).st = 1 → (s.slot slot).exp = some e → e ≤ s.now →
      exec (.keyExpiry slot) s = .next (s.invalidate (slot.val :: s.below slot)))

/-- R398, R399, R406 to R410: ATTEST completes with the quote, or waits for its key; the key is derived again and what waits completes; a
debug request that the life-cycle state permits renews the nonce, zeroizes and enables debug; a tamper source that trips with the device
powered latches, zeroizes and raises event 226, and without the main supplies is only latched. COMPLETES, each with its own effect as a
next state under conditions on state and operands alone: attest, attestKeyDerive, debugRequest, tamperTrip. -/
def Obligations.AttestationTamperAndDebugComplete : Prop :=
  ∀ (tag : BitVec 16) (len : BitVec 32) (addr : BitVec 48) (challenge : List Byte) (dma : Dma) (token : Option (BitVec 128))
    (src : Fin 8) (edges : Nat) (s : State),
    (∀ k, s.Serving → 136 ≤ len.toNat → s.key.att = some k →
      exec (.attest tag len addr challenge dma) s = .next (s.attest k ⟨tag.toNat, addr.toNat, challenge, dma⟩)) ∧
    (s.Serving → 136 ≤ len.toNat → s.key.att = none →
      exec (.attest tag len addr challenge dma) s = .next (State.mgmtStart
        { s with key := { s.key with attWait := s.key.attWait ++ [⟨tag.toNat, addr.toNat, challenge, dma⟩] } } .attest tag.toNat)) ∧
    (s.key.att = none → s.quarantine = false → 4 ≤ s.rd Reg.PWR_STAT_PHASE → s.deriveAtt.key.attWait = [] →
      exec .attestKeyDerive s = .next { s.deriveAtt with key := { s.deriveAtt.key with attWait := [] } }) ∧
    (6 ≤ s.rd Reg.PWR_STAT_PHASE → s.rd Reg.PWR_STAT_PHASE ≠ 10 → s.key.lcs < 2 →
      let u := (((s.free.2).wr Reg.KEY_DBG_NONCE_NONCE s.free.1).zeroize 3 false).wr Reg.GLB_LCS_DEBUG 1
      exec (.debugRequest token) s = .next ((u.wr Reg.KEY_STAT_ROOT u.rootCode).raise 228)) ∧
    (s.tamperOn src = true → 6 ≤ s.rd Reg.PWR_STAT_PHASE → s.rd Reg.PWR_STAT_PHASE ≠ 10 →
      exec (.tamperTrip src false edges) s = .next (((s.orBit Reg.KEY_TAMPER_SRC src).zeroize 1 false).raise 226)) ∧
    (s.tamperOn src = true → s.rd Reg.PWR_STAT_PHASE = 0 →
      exec (.tamperTrip src true edges) s =
        .next (((s.orBit Reg.KEY_TAMPER_SRC src).wr Reg.KEY_TAMPER_UNPOWERED 1).zeroize 1 true))

/-! ### Firmware update -/

/-- R436 to R439: STAGE reads the image and waits for its verification; PULL asks the partner; the running image leaves on a pull request; a
verified image whose slot write can start is written to the slot not running, one that fails is refused with its code; the slot write
ends STAGED, or, where the read-back differs, in IDLE. COMPLETES, each with its own effect as a next state under conditions on state and
operands alone: updateStageStage, updateStagePull, pullRequest, imageVerified, slotWriteComplete. -/
def Obligations.UpdateStagingCompletes : Prop :=
  ∀ (tag : BitVec 16) (len : BitVec 32) (addr : BitVec 48) (dma : Dma) (image i : Image) (unit : Fin 16) (x : Staging) (s u : State),
    (s.Starting → s.cmdDma false 0 addr.toNat dma = (true, u) → u.upd.sources = [] →
      exec (.updateStageStage tag len addr dma image) s = .next (State.mgmtStart { u with upd := { u.upd with
        sources := [⟨0, tag.toNat, some { image with received := min len.toNat image.received }⟩] } } .updateStage tag.toNat)) ∧
    (s.Starting → s.on Reg.PAIR_CTL_ENABLE = true → s.rd Reg.PAIR_CTL_MODE = 1 → s.peer ≠ 0 → s.peer ≠ s.unitId → s.upd.sources = [] →
      exec (.updateStagePull tag) s = .next ((State.mgmtStart { s with upd := { s.upd with sources := [⟨s.peer, tag.toNat, none⟩] } }
        .updateStage tag.toNat).sendHjel s.peer 3 .pullRequest)) ∧
    (s.upd.run = some i → exec (.pullRequest unit) s = .next (s.sendHjel unit 3 (.image i))) ∧
    (s.upd.sources = [⟨unit, tag.toNat, some i⟩] → s.verify i = 0 → s.rd Reg.UPD_STAT_STATE = 0 →
      exec (.imageVerified [(unit, none)]) s =
        .next (State.startWrite { s with upd := { s.upd with sources := [] } } ⟨unit, tag.toNat, some i⟩ i)) ∧
    (s.upd.sources = [⟨unit, tag.toNat, some i⟩] → s.verify i ≠ 0 →
      exec (.imageVerified [(unit, none)]) s = .next ((State.stageDone { s with upd := { s.upd with sources := [] } }
        tag.toNat .invalid (s.verify i) unit i.fwVer.toNat).updEvent 1)) ∧
    (s.upd.writing = some x → x.image = some i →
      let u : State := { s with upd := { s.upd with writing := none, images := kvSet s.upd.images s.otherSlot i } }
      exec (.slotWriteComplete true) s = .next (((((u.writeDir (u.upd.dir.slot s.otherSlot 3 i.fwVer.toNat)).wr Reg.UPD_STAT_STATE 2).bump
        .upd C.UPD_STAGED).stageDone x.tag .ok 0 x.source i.fwVer.toNat))) ∧
    (s.upd.writing = some x → x.image = some i →
      let u : State := { s with upd := { s.upd with writing := none } }
      exec (.slotWriteComplete false) s = .next (((u.writeDir (u.upd.dir.slot s.otherSlot 0 0)).wr Reg.UPD_STAT_STATE 0).stageDone
        x.tag .degraded 0x09 x.source i.fwVer.toNat))

/-- R36, R437, R440: ACTIVATE on a staged image schedules the activation on the slice boundary at or after its instant and completes; a
team's activation asks every unit first, a unit with the same image staged schedules it on its own, and the last ready answer schedules
it, a refusal or 20 ms without an answer refuse it. COMPLETES, each with its own effect as a next state under conditions on state and
operands alone: updateStageActivateLocal, updateStageActivateTeam, activateTeamMessage, activateTeamAnswer, activateTeamTimeout. -/
def Obligations.UpdateActivationCompletes : Prop :=
  ∀ (tag : BitVec 16) (len : BitVec 32) (addr : BitVec 48) (dma : Dma) (flags : BitVec 8) (at_ : Nat) (grace : BitVec 16)
    (unit : Fin 16) (i : Image) (a : TeamAct) (s u : State),
    let src := s.rd Reg.UPD_STAT_SOURCE
    (s.Starting → 64 ≤ len.toNat → s.cmdDma false 0 addr.toNat dma = (true, u) → u.rd Reg.UPD_STAT_STATE = 2 → u.cinching = false →
      u.pwr.sleep = none → u.cfgInRange = true → s.stagedImage = some i → at_ = 0 →
      exec (.updateStageActivateLocal tag len addr dma flags at_ grace) s =
        .next ((u.scheduleAct (gridFrom u.act.fs (u.now + 1000000)) flags.toNat).stageDone tag.toNat .ok 0 src i.fwVer.toNat)) ∧
    (s.Starting → 64 ≤ len.toNat → s.cmdDma false 0 addr.toNat dma = (true, u) → u.rd Reg.UPD_STAT_STATE = 2 → u.cinching = false →
      u.pwr.sleep = none → u.cfgInRange = true → s.on Reg.PAIR_CTL_ENABLE = true → s.rd Reg.PAIR_CTL_MODE = 1 → s.coordinator = true →
      u.partners = [unit.val] → u.stagedImage = some i → at_ = 0 →
      let t := gridFrom u.act.fs (u.now + 1000000)
      exec (.updateStageActivateTeam tag len addr dma flags at_ grace) s = .next
        ((State.mgmtStart { u with upd := { u.upd with team := some ⟨tag.toNat, t, false, flags.toNat, [unit.val], u.now⟩ } }
          .updateStage tag.toNat).toUnits [unit.val] 0 (.activate i.measurement t))) ∧
    (s.rd Reg.UPD_STAT_STATE = 2 → s.stagedImage = some i → s.cinching = false → s.pwr.sleep = none → s.cfgInRange = true →
      exec (.activateTeamMessage unit i.measurement at_) s = .next ((s.scheduleAct at_ 0).sendHjel unit 0 (.activateAnswer true))) ∧
    (s.upd.team = some a → a.waiting = [unit.val] → s.stagedImage = some i →
      exec (.activateTeamAnswer unit true) s = .next ((State.scheduleAct { s with upd := { s.upd with team := none } } a.at_ a.flags).stageDone
        a.tag (if a.late then .late else .ok) 0 src i.fwVer.toNat)) ∧
    (s.upd.team = some a → unit.val ∈ a.waiting → s.stagedImage = some i →
      exec (.activateTeamAnswer unit false) s =
        .next (State.stageDone { s with upd := { s.upd with team := none } } a.tag .invalid 0x0B src i.fwVer.toNat)) ∧
    (s.upd.team = some a → a.sentAt + 20000000 ≤ s.now → s.stagedImage = some i →
      exec .activateTeamTimeout s =
        .next (State.stageDone { s with upd := { s.upd with team := none } } a.tag .invalid 0x0B src i.fwVer.toNat))

/-- R437, R438, R441 to R446: ABANDON drops a staged or scheduled image; SAVE_CFG writes the active configuration to the store copy not in
use, which then is the current one; at its instant an activation stops the slices, and with the drain over it names the trial in the
directory and resets the system; a trial whose conditions are met commits, raising SEC_VER but never lowering it; a trial whose time is
over falls back. COMPLETES, each with its own effect as a next state under conditions on state and operands alone: updateStageAbandon,
updateStageSaveCfg, cfgStoreWritten, activation, trialCommit, trialTimeout. -/
def Obligations.UpdateTrialAndStoreComplete : Prop :=
  ∀ (tag : BitVec 16) (t : Instant) (flags copy n : Nat) (content : StoreCopy) (i : Image) (s : State),
    let src := s.rd Reg.UPD_STAT_SOURCE
    (s.Starting → (s.rd Reg.UPD_STAT_STATE = 2 ∨ s.rd Reg.UPD_STAT_STATE = 3) →
      kvGet? s.upd.images s.otherSlot = some i →
      let u : State := { s with upd := { s.upd with act := none, images := kvDel s.upd.images s.otherSlot } }
      exec (.updateStageAbandon tag) s = .next (((u.writeDir (u.upd.dir.slot s.otherSlot 0 0)).wr Reg.UPD_STAT_STATE 0).stageDone
        tag.toNat .ok 0x10 src i.fwVer.toNat)) ∧
    (s.Starting → s.rd Reg.UPD_STAT_STATE ≠ 4 → s.upd.saving = none → s.upd.run = some i →
      exec (.updateStageSaveCfg tag) s = .next (State.mgmtStart { s with upd := { s.upd with
        saving := some (some tag.toNat, s.otherStore, ⟨i.cfgVer.toNat, s.rd Reg.GLB_EPOCH_EPOCH, s.act⟩) } } .updateStage tag.toNat)) ∧
    (s.upd.saving = some (some n, copy, content) →
      let u : State := { s with upd := { s.upd with saving := none, stores := kvSet s.upd.stores copy content } }
      exec (.cfgStoreWritten true) s = .next ((u.writeDir { u.upd.dir with store := copy }).stageDone n .ok 0 0 0)) ∧
    (s.upd.saving = some (some n, copy, content) →
      let u : State := { s with upd := { s.upd with saving := none, stores := kvDel s.upd.stores copy } }
      exec (.cfgStoreWritten false) s = .next (u.stageDone n .degraded 0x09 0 0)) ∧
    (s.upd.act = some (t, flags) → s.upd.stopping = false → t ≤ s.now →
      exec .activation s = .next (State.entryActions { s with upd := { s.upd with stopping := true } } t)) ∧
    (s.upd.act = some (t, flags) → s.upd.stopping = true → s.drained t = true →
      exec .activation s = .next (((s.writeDir { s.upd.dir with
        trial := s.otherSlot, attempted := false, reqHost := bitOf flags 0, reqRun := bitOf flags 1 }).systemReset 3).wr
          Reg.UPD_STAT_SOURCE src)) ∧
    (s.rd Reg.UPD_STAT_STATE = 4 → s.on Reg.UPD_TRIAL_START_MET = true → s.on Reg.UPD_TRIAL_CFG_MET = true →
      s.on Reg.UPD_TRIAL_HOST_MET = true → s.on Reg.UPD_TRIAL_RUN_MET = true → s.upd.run = some i →
      ∃ u, exec .trialCommit s = .next u ∧ u.key.secVer = max s.key.secVer i.secVer.toNat ∧
        u.key = { s.key with secVer := u.key.secVer } ∧ u.upd.dir.active = s.upd.dir.trial ∧ u.upd.dir.trial = 0xFF) ∧
    (s.rd Reg.UPD_STAT_STATE = 4 → trialNs ≤ s.trialElapsed → exec .trialTimeout s = .next (s.trialFails 0x0C))

/-! ### Start-up, reset, Bivouac -/

/-- R414 to R419, R444, R447: a power-on reset, a brown-out and the second value of PWR_RST reset; the release from reset reads the fuses
and the directory and starts the key store; the load starts the chosen slot's firmware, or ends in NO_IMAGE; the microcode loads, and an
engine whose check fails is a failed self-test; the self-test takes the device to operation, or to QUARANTINE. COMPLETES, each with its
own effect as a next state under conditions on state and operands alone: powerOnReset, brownOut, pwrRstWrite, resetRelease,
loadComplete, microcodeLoaded, selftestComplete. -/
def Obligations.StartUpCompletes : Prop :=
  ∀ (lost : Bool) (i : Image) (failed : BitVec 64) (s : State),
    (exec (.powerOnReset lost) s = .next ((s.restart lost).wr Reg.PWR_STAT_RST_CAUSE 0)) ∧
    (exec (.brownOut lost) s = .next ((s.restart lost).wr Reg.PWR_STAT_RST_CAUSE 1)) ∧
    (s.pwr.armed = true → exec (.pwrRstWrite 0xA7E5) s = .next (s.systemReset 2)) ∧
    (s.pwr.armed = false → exec (.pwrRstWrite 0x5E7A) s = .next { s with pwr := { s.pwr with armed := true } }) ∧
    (s.rd Reg.PWR_STAT_PHASE ≤ 1 →
      exec .resetRelease s = .next ((((s.wr Reg.PWR_STAT_PHASE 2).readFuses).keyStoreStarts).bootChoice)) ∧
    (s.rd Reg.PWR_STAT_PHASE = 2 → s.rd Reg.UPD_STAT_STATE ≠ 4 → s.bootable (s.rd Reg.PWR_STAT_BOOT_SLOT) = some i →
      exec .loadComplete s = .next (s.firmwareStarts (s.rd Reg.PWR_STAT_BOOT_SLOT) i)) ∧
    (s.rd Reg.PWR_STAT_PHASE = 2 → s.rd Reg.UPD_STAT_STATE ≠ 4 → s.bootable (s.rd Reg.PWR_STAT_BOOT_SLOT) = none →
      s.bootable (1 - s.rd Reg.PWR_STAT_BOOT_SLOT) = none →
      exec .loadComplete s = .next (s.wr Reg.PWR_STAT_PHASE 9)) ∧
    (s.rd Reg.PWR_STAT_PHASE = 4 → exec (.microcodeLoaded 0) s = .next ((s.microcode 0).wr Reg.PWR_STAT_PHASE 5)) ∧
    (s.rd Reg.PWR_STAT_PHASE = 4 → failed ≠ 0 →
      exec (.microcodeLoaded failed) s = .next ((s.microcode failed.toNat).selftestFails.wr Reg.PWR_STAT_PHASE 5)) ∧
    (∀ (u : State), u = (s.wr Reg.SAFE_TEST_STAT_FAIL 0) → s.rd Reg.PWR_STAT_PHASE = 5 → u.safe = false → u.rd Reg.UPD_STAT_STATE ≠ 4 →
      (u.wr Reg.SAFE_STAT_SELFTEST_OK 1).on Reg.GLB_LCS_QUARANTINE = false →
      (u.wr Reg.SAFE_STAT_SELFTEST_OK 1).rd Reg.UPD_STAT_STATE ≠ 4 →
      exec (.selftestComplete 0) s =
        .next (((u.wr Reg.SAFE_STAT_SELFTEST_OK 1).wr Reg.PWR_STAT_PHASE 6).wr Reg.UPD_TRIAL_START_MET 0))

/-- R422 to R424: an accepted SLEEP enters at the next slice boundary at or after 1 ms; one past its wake time within its grace completes
late; at the boundary the entry actions run; drained, the device drops what is undelivered, opens the gates and lies in Bivouac; while
locked the always-on oscillator is calibrated every 10 s. COMPLETES, each with its own effect as a next state under conditions on state
and operands alone: sleep, sleepLateCompletion, bivouacEntry, bivouacDrainEnd, aonCalibrate. -/
def Obligations.BivouacEntryCompletes : Prop :=
  ∀ (tag grace : BitVec 16) (wakeS : BitVec 48) (wakeNs : BitVec 32) (ppb : BitVec 24) (x : Sleep) (y : Nat × Instant) (due : Instant)
    (s : State),
    let w := instantOf wakeS.toNat wakeNs.toNat
    (s.Serving → s.on Reg.PAIR_CTL_ENABLE = false → s.sleepBusy = false → s.wakeEnabled = true →
      let b := if s.producing then gridFrom s.act.fs (s.now + 1000000) else s.now + 1000000
      exec (.sleep tag false wakeS wakeNs grace) s = .next ((State.mgmtStart
        { s with pwr := { s.pwr with sleep := some ⟨tag.toNat, none, b, .entering, none, false⟩ } } .sleep tag.toNat).wr
          Reg.PWR_STAT_PHASE 10)) ∧
    (s.Serving → s.on Reg.PAIR_CTL_ENABLE = false → s.sleepBusy = false → w ≤ s.now + 2592000 * nsPerS →
      s.scheduleAt w grace.toNat = some (due, true) →
      exec (.sleep tag true wakeS wakeNs grace) s = .next (State.mgmtStart
        { s with pwr := { s.pwr with late := s.pwr.late ++ [(tag.toNat, due)] } } .sleep tag.toNat)) ∧
    (s.pwr.late = [y] → y.2 ≤ s.now →
      exec .sleepLateCompletion s = .next (State.mgmtDone { s with pwr := { s.pwr with late := [] } } .sleep y.1 .late)) ∧
    (s.pwr.sleep = some x → x.stage = .entering → x.boundary ≤ s.now →
      exec .bivouacEntry s = .next (((s.setSleep (some { x with stage := .draining })).wrInstant Reg.PWR_ENTRY_TIME_S
        Reg.PWR_ENTRY_TIME_NS x.boundary).entryActions x.boundary)) ∧
    (s.pwr.sleep = some x → x.stage = .draining → s.drained x.boundary = true → x.event = none → s.pub.items = [] →
      s.hif.schedules = [] →
      let u : State := { s with hif := { s.hif with schedules := [] } }
      exec .bivouacDrainEnd s =
        .next (u.gatesOpen.sleepRef.2.setSleep (some { x with stage := .asleep, changed := u.gatesOpen.sleepRef.1 }))) ∧
    (s.tbState = tbLOCKED → s.pwr.calAt + 10 * nsPerS ≤ s.now → s.dark = false →
      exec (.aonCalibrate ppb) s = .next ((State.wr { s with pwr := { s.pwr with calAt := s.now } } Reg.PWR_AON_CAL_PPB ppb.toNat).wr
        Reg.PWR_AON_CAL_VALID 1))

/-- R85, R424 to R429: the selected edge at the WAKE pin, a matching frame on an enabled wake port, the wake time and an enabled alarm wake
the device at their crystal edge; `edges` edges after the hand-over the time base is loaded and, with no lock to wait for, the device
resumes; a retained image that fails its check resets it. COMPLETES, each with its own effect as a next state under conditions on state
and operands alone: wakePin, wakePatternMatch, timedWake, tbAlmWake, resumption. -/
def Obligations.WakeAndResumptionComplete : Prop :=
  ∀ (rising : Bool) (edges : Nat) (port : Fin 48) (pattern : Fin 8) (k : Fin 4) (fail : BitVec 16) (x : Sleep) (w : Instant) (s : State),
    (s.cfOn Reg.PWR_WAKE_CFG_PIN_EN = true → s.cfOn Reg.PWR_WAKE_CFG_PIN_EDGE = !rising →
      exec (.wakePin rising edges) s = .next ((s.wrB Reg.PWR_STAT_WAKE_LVL rising).wake edges 2)) ∧
    (s.cfOn Reg.PWR_WAKE_CFG_PIN_EN = false →
      exec (.wakePin rising edges) s = .next (s.wrB Reg.PWR_STAT_WAKE_LVL rising)) ∧
    (s.pwr.sleep = some x → x.event = none → s.sleeping = true → port.val ∈ s.wakePorts →
      s.cfOn (Reg.PORT_WAKE_EN port pattern) = true →
      ∃ u, exec (.wakePatternMatch port pattern edges) s = .next u ∧
        u = ((s.wake edges 3).wr Reg.PWR_WAKE_INFO_PORT port).wr Reg.PWR_WAKE_INFO_PATTERN pattern) ∧
    (s.pwr.sleep = some x → x.wake = some w → s.firstEdge x w edges = true →
      exec (.timedWake edges) s = .next (s.wake edges 4)) ∧
    (s.pwr.sleep = some x → s.almFrom k = some w → x.stage = .asleep → bitOf (s.cf Reg.PWR_WAKE_CFG_ALM_EN) k = true →
      s.firstEdge x w edges = true →
      exec (.tbAlmWake k edges) s = .next (s.wake edges 5)) ∧
    (s.pwr.sleep = some x → x.stage = .waking false → (s.loadTime x edges).cfOn Reg.PWR_CFG_WAIT_LOCK = false →
      exec (.resumption edges true fail) s = .next ((s.loadTime x edges).resume x fail.toNat)) ∧
    (s.pwr.sleep = some x → x.stage = .waking true → s.tbState = tbLOCKED →
      exec (.resumption edges true fail) s = .next (s.resume x fail.toNat)) ∧
    (s.pwr.sleep = some x → x.stage = .waking false →
      exec (.resumption edges false fail) s = .next (s.systemReset 4))

/-- R268, R306, R388, R389, R415, R420: a block restart stops its unit at once, and the unit resumes when it is done; one while another runs
sets BUSY_WR; the two values of SAFE_FORCE, one right after the other, force the safe state, and one alone does not. COMPLETES, each
with its own effect as a next state under conditions on state and operands alone: blockRestart, blockRestartDone, safeForceWrite. -/
def Obligations.BlockRestartAndSafeForceComplete : Prop :=
  ∀ (word : BitVec 32) (u : Nat) (s : State),
    (bitOf word.toNat 31 = true → s.on Reg.PWR_BLK_STAT_BUSY = false → restartUnit (word.toNat % 256) = true →
      let t := State.wr { s with pwr := { s.pwr with armed := false, unit := some (word.toNat % 256) } } Reg.PWR_BLK_STAT_BUSY 1
      exec (.blockRestart word) s = .next (((t.wr Reg.PWR_BLK_STAT_UNIT (word.toNat % 256)).setIdle
        (distinct (s.sched.idle ++ unitQueues (word.toNat % 256)))).stopUnit (word.toNat % 256))) ∧
    (bitOf word.toNat 31 = true → s.on Reg.PWR_BLK_STAT_BUSY = true →
      exec (.blockRestart word) s = .next (State.wr { s with pwr := { s.pwr with armed := false } } Reg.PWR_BLK_STAT_BUSY_WR 1)) ∧
    (s.pwr.unit = some u → u < 0x30 →
      exec .blockRestartDone s = .next ((State.wr { s with pwr := { s.pwr with unit := none } } Reg.PWR_BLK_STAT_BUSY 0).setIdle
        (s.sched.idle.filter (fun q => !(unitQueues u).contains q)))) ∧
    (s.barOpen 0x1A001C = true → exec (.safeForceWrite 0x5AFE) s = .next { s with safety := { s.safety with armed := true } }) ∧
    (s.barOpen 0x1A001C = true → s.safety.armed = false →
      exec (.safeForceWrite 0xAF5E) s = .next { s with safety := { s.safety with armed := false } })

/-! ### Errors, the Cairn, functional safety -/

/-- R349, R450, R451, R453 to R455, R460, R461: CAIRN_POST keeps the list of buffers and answers with NEED and HAVE; a withdrawal drops it;
a forced Cairn is a fatal error of code 0x26 that writes no completion; the end of the Cairn writes the dump and resets, or with HALT
stays; without progress the device resets. COMPLETES, each with its own effect as a next state under conditions on state and operands
alone: cairnPost, cairnWithdraw, cairnForce, cairnDone, cairnTimeout. -/
def Obligations.CairnCommandsComplete : Prop :=
  ∀ (tag : BitVec 16) (len : BitVec 32) (addr : BitVec 48) (entries : List (BitVec 64 × BitVec 32 × BitVec 32)) (dma : Dma)
    (faults : List (Nat × Dma)) (r : ErrRec) (s u : State),
    (s.Serving → len.toNat % 16 = 0 → 16 ≤ len.toNat → len.toNat ≤ 16384 → s.cmdDma false 0 addr.toNat dma = (true, u) →
      entries.all bufferOk = true →
      let l := entries.map (fun e => (e.1.toNat, e.2.1.toNat))
      let v := ((State.wr { u with err := { u.err with posted := some l } } Reg.ERR_STAT_POSTED 1).wr Reg.ERR_HAVE_HAVE_MIB
        (postedLen l / 2 ^ 20)).needShow
      exec (.cairnPost tag len addr entries dma) s =
        .next (v.mgmtDone .cairn tag.toNat .ok (v.need v.now + 2 ^ 64 * (postedLen l / 2 ^ 20)))) ∧
    (s.Serving → entries.all bufferOk = false → len.toNat % 16 = 0 → 16 ≤ len.toNat → len.toNat ≤ 16384 →
      s.cmdDma false 0 addr.toNat dma = (true, u) →
      exec (.cairnPost tag len addr entries dma) s = .next (u.mgmtDone .cairn tag.toNat .invalid)) ∧
    (s.Serving → exec (.cairnWithdraw tag) s =
      .next (((State.wr { s with err := { s.err with posted := none } } Reg.ERR_STAT_POSTED 0).wr Reg.ERR_HAVE_HAVE_MIB 0).mgmtDone
        .cairn tag.toNat .ok)) ∧
    (s.Serving → exec (.cairnForce tag) s = .next (s.fatal 0x26 0xFF 0xFFFF 0)) ∧
    (s.err.fatal = some r → (s.writeDump r faults).on Reg.ERR_CTL_HALT = false →
      exec (.cairnDone faults) s = .next (s.writeDump r faults).cairnReset) ∧
    (s.err.fatal = some r → (s.writeDump r faults).on Reg.ERR_CTL_HALT = true →
      exec (.cairnDone faults) s = .next (State.wr { s.writeDump r faults with err := { (s.writeDump r faults).err with fatal := none } }
        Reg.ERR_STAT_CAIRN 0)) ∧
    (s.err.fatal = some r → r.ts + 10000000 ≤ s.now → exec .cairnTimeout s = .next s.cairnReset)

/-- R383, R384, R450, R453, R463: a correctable error is logged; a recoverable one strikes its one item and, in the data of a safety flow,
takes the safe state; a fatal one in memory is reported and begins the Cairn condition; a pass of the scrubber counts; an injection is
armed for a memory class, a double one into Warden memory only with debug enabled, else it is refused with INJ_REF. COMPLETES, each with
its own effect as a next state under conditions on state and operands alone: correctableError, recoverableError, fatalError, scrub,
errInjSingle, errInjDouble. -/
def Obligations.ErrorsAndInjectionComplete : Prop :=
  ∀ (code : Fin 4) (fcode : Fin 6) (struck : Struck) (mem8 : BitVec 8) (unit : BitVec 16) (addr : BitVec 64) (mem : Fin 8)
    (found : List (Fin 6 × BitVec 64 × Bool)) (s : State),
    (s.dark = false → code.val < 3 →
      exec (.correctableError code mem8 unit addr) s =
        .next ((s.injected mem8.toNat false).correctable mem8.toNat unit.toNat (1 + code.val) addr.toNat)) ∧
    (s.dark = false → exec (.correctableError 3 mem8 unit addr) s =
      .next (((s.injected mem8.toNat false).bump .pair C.PAIR_LINK_RETRY).correctable mem8.toNat unit.toNat 4 addr.toNat)) ∧
    (s.dark = false → exec (.recoverableError struck mem8 unit addr true) s =
      .next ((((s.injected mem8.toNat true).struck struck).recoverable mem8.toNat unit.toNat struck.code addr.toNat).react 0x07)) ∧
    (s.dark = false → exec (.recoverableError struck mem8 unit addr false) s =
      .next ((((s.injected mem8.toNat true).struck struck).recoverable mem8.toNat unit.toNat struck.code addr.toNat).report 0x07)) ∧
    (s.dark = false → s.on Reg.ERR_STAT_FATAL = false → fcode.val ≠ 3 → fcode.val ≠ 5 →
      exec (.fatalError fcode mem8 unit addr) s =
        .next (((s.injected mem8.toNat true).report 0x07).fatal (0x20 + fcode.val) mem8.toNat unit.toNat addr.toNat)) ∧
    (exec (.fatalError 3 mem8 unit addr) s = .next ((s.injected mem8.toNat true).fatal 0x23 mem8.toNat unit.toNat addr.toNat)) ∧
    (s.dark = false → exec (.scrub found) s = .next ((found.foldl State.scrubbed s).bump .safe C.SAFE_ECC_SCRUB_PASSES)) ∧
    (s.barOpen 0x1E0040 = true → mem.val < 6 →
      exec (.errInjSingle mem) s = .next { s with err := { s.err with inj := s.err.inj ++ [(mem.val, false)] } }) ∧
    (s.barOpen 0x1E0040 = true → mem.val < 6 → mem.val ≠ 0 →
      exec (.errInjDouble mem) s = .next { s with err := { s.err with inj := s.err.inj ++ [(mem.val, true)] } }) ∧
    (s.barOpen 0x1E0040 = true → s.on Reg.GLB_LCS_DEBUG = false →
      exec (.errInjDouble 0) s = .next (s.wr Reg.ERR_STAT_INJ_REF 1))

/-- R66, R383, R388, R393, R468, R479: what each diagnostic does: lockstep, watchdog, clock, supply with its rail, a temperature above 115
degrees, a time base that left its range, a pin that reads back wrong, and a failed periodic self-test take the safe state with their
cause; a temperature up to 110 degrees, the highest so far, is only recorded. COMPLETES, each with its own effect as a next state under
conditions on state and operands alone: lockstepMismatch, watchdogExpiry, clockFault, supplyFault, temperatureFault, tbPlausCheck,
almReadbackMismatch, periodicSelftest. -/
def Obligations.SafetyReactionsComplete : Prop :=
  ∀ (pair : Fin 2) (rail : Fin 8) (tj : BitVec 16) (adv : Nat) (pin : Fin 16) (fail : BitVec 16) (s : State),
    (exec (.lockstepMismatch pair) s = .next (s.react (1 + pair.val))) ∧
    (exec .watchdogExpiry s = .next (s.react 0x03)) ∧
    (exec .clockFault s = .next (s.react 0x04)) ∧
    (exec (.supplyFault rail) s = .next ((s.orBit Reg.SAFE_MON_RAIL_FLT rail).react 0x05)) ∧
    (11500 < signed tj.toNat 16 → signed (s.rd Reg.SAFE_MON_TJ_MAX) 16 < signed tj.toNat 16 →
      exec (.temperatureFault tj) s = .next (((s.wr Reg.SAFE_MON_TJ_MAX tj.toNat).raise 211).react 0x06)) ∧
    (signed tj.toNat 16 ≤ 11000 → signed (s.rd Reg.SAFE_MON_TJ_MAX) 16 < signed tj.toNat 16 →
      exec (.temperatureFault tj) s = .next (s.wr Reg.SAFE_MON_TJ_MAX tj.toNat)) ∧
    (adv < 1980000 ∨ 2020000 < adv →
      exec (.tbPlausCheck adv) s = .next (((s.wr Reg.TB_STAT_PLAUS 1).raise 56).react 0x0D)) ∧
    (exec (.almReadbackMismatch pin) s = .next ((s.islEvent 10 pin).enterSafe 0x0B).pinRegs) ∧
    (s.producing = true → s.safety.ptestAt + nsPerS * s.cf Reg.SAFE_CTL_PTEST_S ≤ s.now → fail.toNat &&& periodicTests ≠ 0 →
      let u := State.bump { s with safety := { s.safety with ptestAt := s.now } } .safe C.SAFE_PTESTS_RUN
      exec (.periodicSelftest fail) s = .next (((u.wr Reg.SAFE_TEST_STAT_FAIL
        ((u.rd Reg.SAFE_TEST_STAT_FAIL &&& (2 ^ 16 - 1 - periodicTests)) ||| (fail.toNat &&& periodicTests))).raise 210).react 0x10))

/-! ### Host rings, translation -/

/-- R316, R319, R321 to R323: a nudge makes its ring's doorbell word, or the whole block, due; a changed nudge word does so at its poll; a
doorbell read that returns takes the tails; a ring is enabled from its cleared state and, while it is active, a write only sets CFG_WR;
a function level reset restarts HIF and XLT. COMPLETES, each with its own effect as a next state under conditions on state and operands
alone: nudgeMmioOne, nudgeMmioAll, nudgePoll, doorbellRead, ringEnable, ringDisable, flr, busMasterDisable, busMasterEnable, perst,
pcieLinkDown, pcieLinkUp. -/
def Obligations.NudgesRingsAndLinkComplete : Prop :=
  ∀ (ring : Fin 64) (value : BitVec 32) (word : BitVec 64) (words : List (BitVec 32)) (dma : Dma) (rest : List (Option Nat))
    (s u : State),
    let r := ring.val
    (s.barOpen 0x10024 = true → exec (.nudgeMmioOne ring) s = .next ((s.bump .hif C.HIF_MMIO_NUDGES r).dueDoorbell (some r))) ∧
    (s.barOpen 0x10024 = true → exec .nudgeMmioAll s = .next ((s.bump .hif C.HIF_MMIO_NUDGES).dueDoorbell none)) ∧
    (s.on Reg.HIF_NUDGE_CFG_POLL_EN = true → s.hif.nudgeAt + 500 * s.rd Reg.HIF_NUDGE_CFG_PERIOD ≤ s.now → s.hostUp = true →
      s.chanFree 64 = true →
      (State.bump { s with hif := { s.hif with nudgeAt := s.now } } .hif C.HIF_POLLS).dma 64 3 false 0 0
        (8 * (State.bump { s with hif := { s.hif with nudgeAt := s.now } } .hif C.HIF_POLLS).rd Reg.HIF_NUDGE_ADDR_ADDR) dma = (true, u) →
      word.toNat ≠ u.hif.nudgeLast →
      exec (.nudgePoll word dma) s =
        .next (State.dueDoorbell (State.bump { u with hif := { u.hif with nudgeLast := word.toNat } } .hif C.HIF_POLL_HITS) none)) ∧
    (s.hostUp = true → s.chanFree 64 = true → s.hif.dbDue = some r :: rest →
      State.dma { s with hif := { s.hif with dbDue := rest } } 64 3 false 0 0 (256 * s.rd Reg.HIF_DB_BASE_ADDR + 4 * r) dma = (true, u) →
      exec (.doorbellRead words dma) s = .next (u.doorbells r (words.take 1))) ∧
    (s.hostUp = true → s.chanFree 64 = true → s.hif.dbDue = none :: rest →
      State.dma { s with hif := { s.hif with dbDue := rest } } 64 3 false 0 0 (256 * s.rd Reg.HIF_DB_BASE_ADDR + 4 * 0) dma = (true, u) →
      exec (.doorbellRead words dma) s = .next (u.doorbells 0 (words.take 64))) ∧
    (s.barOpen (0x11010 + 0x20 * r) = true → s.on (Reg.HIF_RING_STAT_ACTIVE r) = false →
      let u := (((s.ringCfg r value.toNat).wr (Reg.HIF_RING_CFG_EN r) 1).wr (Reg.HIF_RING_STAT_SQ_HEAD r) 0).wr
        (Reg.HIF_RING_STAT_ACTIVE r) 1
      exec (.ringEnable ring value) s = .next ((u.setRing r Ring.init).backlog r)) ∧
    (s.barOpen (0x11010 + 0x20 * r) = true → s.on (Reg.HIF_RING_STAT_ACTIVE r) = true →
      exec (.ringEnable ring value) s = .next (s.wr (Reg.HIF_RING_STAT_CFG_WR r) 1)) ∧
    (s.barOpen (0x11010 + 0x20 * r) = true → s.on (Reg.HIF_RING_STAT_ACTIVE r) = false →
      exec (.ringDisable ring value) s = .next ((s.ringCfg r value.toNat).wr (Reg.HIF_RING_CFG_EN r) 0)) ∧
    (exec .flr s = .next s.restartHif) ∧
    (exec .busMasterDisable s = .next { s with hif := { s.hif with busMaster := false } }) ∧
    (exec .busMasterEnable s = .next { s with hif := { s.hif with busMaster := true } }) ∧
    (exec .perst s = .next { s.restartHif with hif := { s.restartHif.hif with linkUp := false, busMaster := false } }) ∧
    (exec .pcieLinkDown s = .next (State.recoverable { s with hif := { s.hif with linkUp := false } } 0xFF 0xFFFF 0x17 0)) ∧
    (exec .pcieLinkUp s = .next { s.restartHif with hif := { s.restartHif.hif with linkUp := true } })

/-- R323, R328: a descriptor that is posted and fetched counts, and the management head advances: a well-formed command is started by its
own row, a malformed one completes with INVALID; a buffer or transmit descriptor is kept for its turn; a malformed buffer descriptor is
skipped, counted and announced by event 241. COMPLETES, each with its own effect as a next state under conditions on state and operands
alone: descriptorFetch. -/
def Obligations.DescriptorFetchCompletes : Prop :=
  ∀ (ring : Fin 64) (desc : BitVec 256) (dma : Dma) (s u : State),
    let r := ring.val
    let idx := (s.rd (Reg.HIF_RING_STAT_SQ_HEAD r) + (s.ring r).fetched.length) % 65536
    s.hostUp = true → s.on (Reg.HIF_RING_CFG_EN r) = true → (s.ring r).stopped = false → s.chanFree r = true →
    (s.ring r).fetched.length < s.sqFill r → s.rd (Reg.HIF_RING_STAT_BACKLOG r) < 256 → s.pwr.sleep = none →
    s.dma r 0 false idx 0 (64 * s.rd (Reg.HIF_RING_SQ_ADDR r) + 32 * (idx % 2 ^ s.rd (Reg.HIF_RING_CFG_SQ_LOG2 r))) dma = (true, u) →
    let v := u.bump .hif C.HIF_DESCRIPTORS r
    (r = 0 → s.rd (Reg.HIF_RING_CFG_KIND r) ≠ 5 → mgmtWellFormed desc.toNat = true →
      exec (.descriptorFetch ring desc dma) s = .next (v.wr (Reg.HIF_RING_STAT_SQ_HEAD 0) ((idx + 1) % 65536))) ∧
    (r = 0 → s.rd (Reg.HIF_RING_CFG_KIND r) ≠ 5 → mgmtWellFormed desc.toNat = false →
      exec (.descriptorFetch ring desc dma) s = .next ((v.wr (Reg.HIF_RING_STAT_SQ_HEAD 0) ((idx + 1) % 65536)).complete 0
        (Status.invalid.code + 2 ^ 8 * descByte desc.toNat 0 + 2 ^ 16 * bits desc.toNat 16 16))) ∧
    (r ≠ 0 → s.rd (Reg.HIF_RING_CFG_KIND r) = 1 →
      exec (.descriptorFetch ring desc dma) s =
        .next (v.setRing r { v.ring r with fetched := (v.ring r).fetched ++ [some desc.toNat] })) ∧
    (r ≠ 0 → s.rd (Reg.HIF_RING_CFG_KIND r) = 2 → bufWellFormed desc.toNat = true →
      exec (.descriptorFetch ring desc dma) s =
        .next (v.setRing r { v.ring r with fetched := (v.ring r).fetched ++ [some (bits desc.toNat 64 48)] })) ∧
    (r ≠ 0 → s.rd (Reg.HIF_RING_CFG_KIND r) = 2 → bufWellFormed desc.toNat = false →
      exec (.descriptorFetch ring desc dma) s =
        .next (((v.setRing r { v.ring r with fetched := (v.ring r).fetched ++ [none] }).bump .hif C.HIF_DESC_INVALID r).raise 241
          [(Reg.HIF_EVT_IDX_RING 1, r)]))

/-- R318, R321, R322, R335, R345: completions that find entries free are written in the order of production, the tail and the count move by
their number, and the progress word follows; a coalescing time that is over signals; an event queue's oldest entry is written, or, where
the ring has no room, event 242 is raised. COMPLETES, each with its own effect as a next state under conditions on state and operands
alone: completionWrite, irqCoalTimeout, eventEntryWrite. -/
def Obligations.CompletionAndEventWritesComplete : Prop :=
  ∀ (ring : Fin 64) (dma progress : Dma) (q : Fin 4) (w : EvWait) (r : Nat) (s u : State),
    let n := min (s.ring ring).held.length (s.cqFree ring)
    (s.hostUp = true → s.chanFree ring = true → 0 < n →
      s.dma ring 2 true (s.ring ring).cqTail 0 (64 * s.rd (Reg.HIF_RING_CQ_ADDR ring)
        + 16 * ((s.ring ring).cqTail % 2 ^ s.rd (Reg.HIF_RING_CFG_CQ_LOG2 ring))) dma = (true, u) →
      let g := s.ring ring
      let a := (List.range n).foldl (fun s k => s.emit (.completion ring ((g.cqTail + k) % 65536) (((g.held.take n)[k]?).getD 0))) u
      let b := (a.setRing ring { a.ring ring with held := g.held.drop n, cqTail := (g.cqTail + n) % 65536 }).backlog ring
      let d := (b.bumpBy .hif C.HIF_COMPLETIONS n ring).freeStamps (b.rd (Reg.HIF_RING_CFG_KIND ring)) (g.held.take n)
      d.rd (Reg.HIF_RING_CFG_KIND ring) ≠ 4 →
      exec (.completionWrite ring dma progress) s = .next ((d.progressed ring n progress).settle ring)) ∧
    (s.on (Reg.HIF_RING_IRQ_IRQ_EN ring) = true → 0 < (s.ring ring).unsig →
      (s.ring ring).unsigAt + 1000 * s.rd (Reg.HIF_RING_IRQ_COAL_US ring) ≤ s.now →
      exec (.irqCoalTimeout ring) s = .next (s.signal ring)) ∧
    (s.evqRing q.val = some r → s.hif.evWait.find? (fun w => s.rd (Reg.HIF_EVT_ROUTE_EVQ w.src) == q.val) = some w → s.hostUp = true →
      s.chanFree r = true → s.cqFree r = 0 →
      exec (.eventEntryWrite q dma) s = .next (s.raise 242 [(Reg.HIF_EVT_IDX_RING 2, r)])) ∧
    (s.evqRing q.val = some r → s.hif.evWait.find? (fun w => s.rd (Reg.HIF_EVT_ROUTE_EVQ w.src) == q.val) = some w → s.hostUp = true →
      s.chanFree r = true → s.cqFree r ≠ 0 →
      s.dma r 2 true (s.ring r).cqTail 0 (64 * s.rd (Reg.HIF_RING_CQ_ADDR r)
        + 16 * ((s.ring r).cqTail % 2 ^ s.rd (Reg.HIF_RING_CFG_CQ_LOG2 r))) dma = (true, u) →
      let v := State.emit { u with hif := { u.hif with evWait := u.hif.evWait.erase w } } (.eventEntry r (s.ring r).cqTail (evEntry w))
      exec (.eventEntryWrite q dma) s = .next (((v.setRing r { v.ring r with cqTail := ((s.ring r).cqTail + 1) % 65536 }).bump .hif
        C.HIF_COMPLETIONS r).progressed r 1 dma))

/-- R343, R347, R348, R354, R450: an invalidation is issued over the range that the two words name, or over everything, and the oldest one
completes; a write of XLT_FRING_BASE empties the fault ring; RESUME retries a suspended item when no invalidation is under way, or skips
a data item, and completes with the item and its class; a read that completes with an error suspends its channel with event 251.
COMPLETES, each with its own effect as a next state under conditions on state and operands alone: xltInvalidateRange, xltInvalidateAll,
xltInvComplete, fringBaseWrite, resumeRetry, resumeSkip, pcieErrorCompletion. -/
def Obligations.TranslationCommandsComplete : Prop :=
  ∀ (high : BitVec 32) (i : InvReq) (rest : List InvReq) (value : BitVec 32) (tag : BitVec 16) (chan : BitVec 16) (dma : Dma) (u : Susp)
    (c : Fin 65) (stream item dva : Nat) (s t : State),
    let k := s.xlt.invLow.toNat % 64
    (s.barOpen 0x2002C = true → 12 ≤ k → k ≤ 48 →
      exec (.xltInvalidateRange high) s = .next (s.issueInv
        (some ((s.xlt.invLow.toNat / 2 ^ 12 * 2 ^ 12 + 2 ^ 32 * (high.toNat % 2 ^ 16)) / 2 ^ k * 2 ^ k, k)))) ∧
    (s.barOpen 0x2002C = true → exec (.xltInvalidateAll high) s = .next (s.issueInv none)) ∧
    (s.xlt.invs = i :: rest →
      let v : State := { s with xlt := { s.xlt with invs := rest, tlb := dropRange s.xlt.tlb i.range } }
      exec .xltInvComplete s = .next ((((v.wr Reg.XLT_INV_STAT_DONE (v.rd Reg.XLT_INV_STAT_DONE + 1)).wrB Reg.XLT_STAT_INV_BUSY
        (!rest.isEmpty)).bump .xlt C.XLT_INVALIDATIONS).raise 245)) ∧
    (s.barOpen 0x20018 = true →
      exec (.fringBaseWrite 1 value) s = .next (((s.wr Reg.XLT_FRING_BASE_ADDR (setBits (s.rd Reg.XLT_FRING_BASE_ADDR) 20 20
        (value.toNat % 2 ^ 20))).wr Reg.XLT_FRING_HEAD_HEAD 0).wr Reg.XLT_FRING_TAIL_TAIL 0)) ∧
    (s.Serving → chan.toNat ≠ 0 → chan.toNat ≠ 64 → kvGet? s.xlt.susp chan.toNat = some u → u.resume = none → s.xlt.invs = [] →
      exec (.resumeRetry (some tag) chan dma) s = .next (s.retry (some tag.toNat) chan.toNat u dma)) ∧
    (s.Serving → chan.toNat ≠ 0 → chan.toNat ≠ 64 → kvGet? s.xlt.susp chan.toNat = some u → u.resume = none → u.stream = 1 →
      exec (.resumeSkip (some tag) chan) s =
        .next (((((s.unsuspend chan.toNat).skipItem chan.toNat u).bump .xlt C.XLT_RESUMES).bump .xlt C.XLT_SKIPS).mgmtDone
          .resume tag.toNat .ok (u.item + 2 ^ 16 * u.cls))) ∧
    (s.Serving → kvGet? s.xlt.susp chan.toNat = none →
      exec (.resumeRetry (some tag) chan dma) s = .next (s.mgmtDone .resume tag.toNat .invalid) ∧
      exec (.resumeSkip (some tag) chan) s = .next (s.mgmtDone .resume tag.toNat .invalid)) ∧
    (s.hostUp = true → s.chanFree c = true → s.readInFlight c = some (stream, item, dva, t) →
      exec (.pcieErrorCompletion c) s = .next ((((t.suspMark c ⟨0, stream, false, item, dva, 0, 0, none⟩).recoverable 0xFF c 0x16 dva).bump
        .err C.ERR_PCIE_DATA).raise 251))

/-! ### Registers -/

/-- R24, R42, R43, R111, R311, R481, R482: a word of a register with no row of its own, written while BAR0 serves it, acts by the access
codes of its fields; one that is not aligned does nothing; a group is latched by a read of its latch word in LOCAL mode, and every group
by TAKE; a read of SCHED_WRD_STAT clears MAX_ITEM_US; ING_CMDF sends its four commands. COMPLETES, each with its own effect as a next
state under conditions on state and operands alone: registerWrite, snapLatchRead, snapTake, wrdStatRead, cmdfTurnOff, cmdfTurnOn,
cmdfSendCfg2, cmdfSendCfg3. -/
def Obligations.RegisterAccessesComplete : Prop :=
  ∀ (who : Requester) (addr : BitVec 26) (value : BitVec 32) (d : RegD) (w : Window) (entry : Fin 8192) (b : Nat) (s : State),
    (addr.toNat % 4 = 0 → (s.breakSequence addr.toNat).mayWrite who addr.toNat = true →
      (s.breakSequence addr.toNat).ownRow who addr.toNat value = none →
      (s.breakSequence addr.toNat).discarded who addr.toNat = none →
      exec (.registerWrite who addr value) s = .next ((s.breakSequence addr.toNat).follow
        ((s.breakSequence addr.toNat).writeFields addr.toNat value.toNat) addr.toNat value.toNat)) ∧
    (addr.toNat % 4 ≠ 0 → exec (.registerWrite who addr value) s = .next (s.breakSequence addr.toNat)) ∧
    (s.on Reg.GLB_SNAP_CTL_MODE = false → s.barOpen addr.toNat = true → s.windowAt addr.toNat = some w → addr.toNat = w.base →
      exec (.snapLatchRead addr) s = .next (s.latchWindow w)) ∧
    (s.on Reg.GLB_SNAP_CTL_MODE = false → s.barOpen addr.toNat = true → s.windowAt addr.toNat = none →
      findReg addr.toNat = some (d, b) → d.isSnap = true → addr.toNat = b →
      exec (.snapLatchRead addr) s = .next (s.latchGroup d b)) ∧
    (bitOf value.toNat 0 = true →
      exec (.snapTake value) s = .next (s.wr Reg.GLB_SNAP_CTL_MODE (bits value.toNat 1 1)).latchAll) ∧
    (exec .wrdStatRead s = .next (s.wr Reg.SCHED_WRD_STAT_MAX_ITEM_US 0)) ∧
    (exec (.cmdfTurnOff entry) s = .next (s.cmdf entry 1)) ∧ (exec (.cmdfTurnOn entry) s = .next (s.cmdf entry 2)) ∧
    (exec (.cmdfSendCfg2 entry) s = .next (s.cmdf entry 5)) ∧ (exec (.cmdfSendCfg3 entry) s = .next (s.cmdf entry 6))

/-! ### Time base -/

/-- R45 to R48, R50, R52 to R54, R64 to R66: a legal increment from the owner is taken at the next tick; a step is taken, but a negative one
while slices are produced is refused with event 52; an alarm arms with the instant held and fires when it is reached; a second of
holdover adds HOLD_PPB to TB_ERR, saturating; a leap changes OFFSET by one and sets LSO, which clears when its time is over; the 10 MHz
reference lost while in use sets FREF_LOST, and returned clears it. COMPLETES, each with its own effect as a next state under conditions
on state and operands alone: tbIncrWrite, tbStepWrite, tbAlmArm, tbAlmFire, holdoverSecond, leapApply, lsoExpiry, ref10mLoss,
ref10mReturn. -/
def Obligations.TimeBaseCommandsComplete : Prop :=
  ∀ (who : Requester) (high word : BitVec 32) (k : Fin 4) (s : State),
    let v := high.toNat % 256 * 2 ^ 32 + s.tb.incrLow.toNat
    (s.mayWrite who 0x4000C = true → s.ownsTb who = true → s.tbState ≠ tbHOLDOVER → incrLegal v →
      exec (.tbIncrWrite who high) s = .next { s with tb := { s.tb with incrNext := some v, holdWrite := false } }) ∧
    (s.mayWrite who 0x4000C = true → s.ownsTb who = true → s.tbState ≠ tbHOLDOVER → ¬ incrLegal v →
      exec (.tbIncrWrite who high) s = .next (s.wr Reg.TB_STAT_INCR_RANGE 1)) ∧
    (s.mayWrite who 0x4000C = true → s.ownsTb who = false →
      exec (.tbIncrWrite who high) s = .next (s.wr Reg.TB_STAT_OWNER_WR 1)) ∧
    (s.mayWrite who 0x40024 = true → s.ownsTb who = true → s.tbState ≠ tbHOLDOVER → s.producing = false →
      exec (.tbStepWrite who high) s = .next (s.stepped (s.stepDelta high))) ∧
    (s.mayWrite who 0x40024 = true → s.ownsTb who = true → s.tbState ≠ tbHOLDOVER → s.producing = true → s.stepDelta high < 0 →
      exec (.tbStepWrite who high) s = .next ((s.wr Reg.TB_STAT_STEP_REF 1).raise 52)) ∧
    (s.barOpen (0x40068 + 0x10 * k) = true → bitOf word.toNat 17 = false → bitOf word.toNat 16 = true →
      let u := (s.wr (Reg.TB_ALM_S k) (setBits (s.rd (Reg.TB_ALM_S k)) 32 16 (word.toNat % 2 ^ 16))).wr (Reg.TB_ALM_EN k) 1
      exec (.tbAlmArm k word) s = .next { u with tb := { u.tb with
        almNext := kvSet u.tb.almNext k (u.almInstant k, decide (u.almInstant k < u.now)) } }) ∧
    (s.almDue k = true → exec (.tbAlmFire k) s = .next (s.almFire k false)) ∧
    (s.tbState = tbHOLDOVER → s.tb.holdNext ≤ s.now →
      let u := s.wr Reg.TB_ERR_ERR_NS (min 0xFFFFFFFF (s.rd Reg.TB_ERR_ERR_NS + s.cf Reg.TB_REF_HOLD_PPB))
      exec .holdoverSecond s = .next (State.setTq { u with tb := { u.tb with holdNext := u.tb.holdNext + nsPerS } })) ∧
    (s.leapDue = true → s.rd Reg.TB_UTC_LEAP_PEND = 1 →
      let u := ((s.wr Reg.TB_UTC_OFFSET (s.rd Reg.TB_UTC_OFFSET + 1)).wr Reg.TB_UTC_LEAP_PEND 0).wr Reg.TB_UTC_LSO 1
      exec .leapApply s = .next (State.raise
        { u with tb := { u.tb with lsoUntil := (u.now / nsPerS + 86400) * nsPerS, leapDeleted := false } } 54)) ∧
    (s.on Reg.TB_UTC_LSO = true → s.tb.lsoUntil ≤ s.now → exec .lsoExpiry s = .next (s.wr Reg.TB_UTC_LSO 0)) ∧
    (s.cfOn Reg.TB_CTL_FREF = true → s.tb.ref10mPresent = true →
      exec .ref10mLoss s = .next ((State.wr { s with tb := { s.tb with pllRef10m := false, ref10mPresent := false } }
        Reg.TB_STAT_FREF_LOST 1).raise 59)) ∧
    (exec .ref10mReturn s = .next (State.wr { s with tb := { s.tb with ref10mPresent := true } } Reg.TB_STAT_FREF_LOST 0))

/-- R51, R53, R55, R62, R63: a qualified reference is acquired from FREE or HOLDOVER, 16 measurements within 1 us lock, and a lost one
raises event 50 and gives the time base to the next reference or to holdover; a 1PPS edge and a good IRIG-B frame are measured against
the time base, a parity error raises event 58; PPS_OUT rises at the second in the modes that allow it and falls when its width is over.
COMPLETES, each with its own effect as a next state under conditions on state and operands alone: refQualify, refLoss, hwLossDetect,
tbLock, ppsInEdge, ppsOutPulse, ppsOutEnd, irigbFrame. -/
def Obligations.ReferencesAndPulsesComplete : Prop :=
  ∀ (frame : IrigFrame) (s : State),
    (s.tbState = tbFREE ∨ s.tbState = tbHOLDOVER → s.bestRef ≠ 0 →
      exec .refQualify s = .next ((s.wr Reg.TB_STAT_ACTIVE_REF s.bestRef).setTbState tbACQUIRING)) ∧
    (s.rd Reg.TB_STAT_ACTIVE_REF ≠ 0 → s.refLost (s.rd Reg.TB_STAT_ACTIVE_REF) = true →
      exec .refLoss s = .next ((s.missing (s.rd Reg.TB_STAT_ACTIVE_REF)).loseRef false)) ∧
    (s.rd Reg.TB_STAT_ACTIVE_REF ≠ 0 → s.refLost (s.rd Reg.TB_STAT_ACTIVE_REF) = false → s.bestRef ≠ 0 →
      s.bestRef ≠ s.rd Reg.TB_STAT_ACTIVE_REF → exec .refLoss s = .next (s.loseRef false)) ∧
    (s.tb.refs.ppsLast ≠ none → s.refLost refPPS = true → (s.hwLoss refPPS).tb.refs.irigLast = none →
      exec .hwLossDetect s = .next (s.hwLoss refPPS)) ∧
    (s.tbState = tbACQUIRING → 16 ≤ s.tb.lockCount → exec .tbLock s = .next (s.setTbState tbLOCKED)) ∧
    (s.dark = false → s.tb.refs.ppsLast = none →
      let u := s.wrInstant Reg.TB_PPS_TS_S Reg.TB_PPS_TS_NS s.now
      exec .ppsInEdge s = .next (State.measured { u with tb := { u.tb with refs := { s.tb.refs with
        ppsEdges := 1, ppsLast := some s.now } } } refPPS
        (State.ppsOffset { u with tb := { u.tb with refs := { s.tb.refs with ppsEdges := 1, ppsLast := some s.now } } }))) ∧
    (s.tb.ppsDue = true → s.dark = false → s.cf Reg.TB_CTL_PPS_OUT_MODE = 1 →
      exec .ppsOutPulse s = .next (State.emit { s with tb := { s.tb with
        ppsDue := false, ppsOut := true, ppsOutEnd := s.now + 1000 * s.cf Reg.TB_PPS_OUT_WIDTH_US } } (.ppsOut s.now))) ∧
    (s.tb.ppsDue = true → s.cf Reg.TB_CTL_PPS_OUT_MODE = 0 →
      exec .ppsOutPulse s = .next { s with tb := { s.tb with ppsDue := false } }) ∧
    (s.tb.ppsOut = true → s.tb.ppsOutEnd ≤ s.now → exec .ppsOutEnd s = .next { s with tb := { s.tb with ppsOut := false } }) ∧
    (s.dark = false → frame.parityOk = false →
      exec (.irigbFrame frame) s = .next (State.raise { s with tb := { s.tb with refs := { s.tb.refs with
        irigGood := 0, irigBad := s.tb.refs.irigBad + 1 } } } 58)) ∧
    (s.dark = false → frame.parityOk = true → s.cfOn Reg.TB_IRIG_IEEE1344 = false → s.tb.refs.irigLast = none →
      let mark := s.now - frame.age
      let tai := s.irigTai frame mark
      exec (.irigbFrame frame) s = .next (State.measured { s with tb := { s.tb with refs := { s.tb.refs with
        irigGood := 1, irigLast := some (tai, mark), irigBad := 0 } } } refIRIG (((mark : Nat) : Int) - nsPerS * tai)))

/-- R51, R54, R57, R60: an Announce or Sync of the domain on the slave port is taken, a message of another domain is discarded; after 3
announce intervals the other slave port is used; Sync and Announce leave a master port, and Pdelay_Req every port with a role, at their
interval. COMPLETES, each with its own effect as a next state under conditions on state and operands alone: ptpMessage,
announceReceiptTimeout, ptpSend. -/
def Obligations.PtpCommandsComplete : Prop :=
  ∀ (port : Fin 48) (msg : PtpMsg) (bytes : List Byte) (a b : Nat) (rest : List Nat) (s : State),
    let n := port.val
    (s.cf (Reg.TB_PTP_PORT_ROLE n) ≠ 0 → msg.supported = true → msg.domain = s.cf Reg.TB_PTP_CFG_DOMAIN → msg.tags ≤ 1 →
      s.cfOn Reg.ING_RING_UNM_EN = false → s.slavePort = some n → msg.kind = .sync →
      exec (.ptpMessage port msg bytes) s = .next (s.sync port msg)) ∧
    (s.cf (Reg.TB_PTP_PORT_ROLE n) ≠ 0 → msg.supported = true → msg.domain = s.cf Reg.TB_PTP_CFG_DOMAIN → msg.tags ≤ 1 →
      s.cfOn Reg.ING_RING_UNM_EN = false → s.slavePort = some n → msg.kind = .announce →
      exec (.ptpMessage port msg bytes) s = .next (s.announce msg)) ∧
    (msg.domain ≠ s.cf Reg.TB_PTP_CFG_DOMAIN → exec (.ptpMessage port msg bytes) s = .next s) ∧
    (filterBelow 48 (fun n => s.cf (Reg.TB_PTP_PORT_ROLE n) == 2) = a :: b :: rest → s.tb.ptpPort = none →
      s.tb.refs.ptpLastAnnounce + 3 * nsPerS ≤ s.now →
      exec .announceReceiptTimeout s = .next { s with tb := { s.tb with
        ptpPort := some a, refs := { s.tb.refs with ptpLastAnnounce := s.now, ptpLastSync := s.now } } }) ∧
    (s.dark = false → s.cf (Reg.TB_PTP_PORT_ROLE n) ≠ 0 → kvGet? s.tb.ptpSent (16 * n + PtpKind.pdelayReq.num) = none →
      let seq := kvGetD s.tb.ptpSeq (16 * n + PtpKind.pdelayReq.num) 0
      let u : State := { s with tb := { s.tb with
        ptpSent := kvSet s.tb.ptpSent (16 * n + PtpKind.pdelayReq.num) s.now
        ptpSeq := kvSet s.tb.ptpSeq (16 * n + PtpKind.pdelayReq.num) ((seq + 1) % 2 ^ 16) } }
      ∃ f, f.twoStep = false ∧ f.oneStep = false ∧ f.seqId = seq ∧ f.reqTs = none ∧
        exec (.ptpSend port .pdelayReq) s = .next (u.send n 7 f))

/-! ### Ports -/

/-- R72, R73, R78, R79, R81, R82, R87: a frame that fails acceptance counts where R72 says, and an accepted one counts and goes through the
duplicate check to the stages of R73; aged entries leave the PRP table; a supervision frame is sent every 2 s; the head of the highest
queue leaves, or is discarded while the link is down; link changes show and raise their cause. COMPLETES, each with its own effect as a
next state under conditions on state and operands alone: frameReceive, prpEntryAge, prpSupervision, linkUp, linkDown, frameTransmit. -/
def Obligations.PortCommandsComplete : Prop :=
  ∀ (port : Fin 48) (frame : Frame) (harness : Fin 25) (speed : Fin 6) (anDone : Bool) (i q : Nat) (f : TxFrame) (s u : State),
    let n := port.val
    let h := harness.val
    let z := (s.capFrame n frame).countLine n frame
    (s.cf (Reg.PORT_CFG_MODE n) ≠ 0 → s.deaf = false → frame.ethType ≠ 0x8808 → z.rejectCounter n frame = some i →
      exec (.frameReceive port frame) s = .next (z.portCount n i)) ∧
    (s.cf (Reg.PORT_CFG_MODE n) ≠ 0 → s.deaf = false → frame.ethType = 0x8808 → (s.capFrame n frame).rejectCounter n frame = some i →
      exec (.frameReceive port frame) s = .next ((s.capFrame n frame).portCount n i)) ∧
    (s.cf (Reg.PORT_CFG_MODE n) ≠ 0 → s.deaf = false → frame.ethType ≠ 0x8808 → z.rejectCounter n frame = none →
      (z.countAccepted n frame).prpStage n frame = (true, u) →
      exec (.frameReceive port frame) s = .next (u.stages n frame)) ∧
    (s.cf (Reg.PORT_CFG_MODE n) ≠ 0 → s.deaf = false → frame.ethType ≠ 0x8808 → z.rejectCounter n frame = none →
      (z.countAccepted n frame).prpStage n frame = (false, u) →
      exec (.frameReceive port frame) s = .next u) ∧
    (s.cf (Reg.PORT_CFG_MODE n) = 0 → exec (.frameReceive port frame) s = .next s) ∧
    (∀ m rest, s.act.members h = m :: rest →
      exec (.prpEntryAge harness) s = .next { s with port := { s.port with dup := (kvPut s.port.dup h
        ((kvGetD s.port.dup h []).filter (fun e => decide (s.now < e.made + s.cf (Reg.PORT_PRP_AGE_MS m) * 1000000))) []) } }) ∧
    (∀ m rest, s.act.members h = m :: rest → s.cf (Reg.PORT_CFG_HARN_KIND m) = 1 → s.dark = false → kvGet? s.port.prpSupLast h = none →
      exec (.prpSupervision harness) s = .next (State.send { s with port := { s.port with
        prpSupLast := kvSet s.port.prpSupLast h s.now } } (0x80 + h) 7 (fwFrame .prpSupervision 64))) ∧
    (s.cf (Reg.PORT_CFG_MODE n) ≠ 0 → (s.dark = false ∨ (n ∈ s.wakePorts ∧ s.rd Reg.PWR_STAT_PHASE ≠ 0)) → s.linkOn n = false →
      (s.prt n).idleUntil ≤ s.now →
      let mode := s.cf (Reg.PORT_CFG_MODE n)
      exec (.linkUp port speed anDone) s = .next (((((s.wr (Reg.PORT_STAT_LINK n) 1).wr (Reg.PORT_STAT_PCS_LOCK n) 1).wrB
        (Reg.PORT_STAT_AN_DONE n) ((s.cfOn (Reg.PORT_CFG_AN_EN n) && hasAn mode) && anDone)).wr (Reg.PORT_STAT_SPEED n)
          (speedOf mode (s.cfOn (Reg.PORT_CFG_AN_EN n) && hasAn mode) speed)).portCause n 0)) ∧
    (s.linkOn n = true → exec (.linkDown port) s = .next (s.dropLink n)) ∧
    (s.dark = false → (s.prt n).top = some (q, f) → s.linkOn n = false → exec (.frameTransmit port) s = .next (s.discardTx n q f)) ∧
    (s.dark = false → (s.prt n).top = some (q, f) → s.linkOn n = true → f.harness = 0 →
      exec (.frameTransmit port) s = .next (s.leave n q f none true))

/-- R82, R84, R316, R326, R327, R346: a transmit descriptor is carried out when it can be, and one that waited proceeds when cells free; a
received frame is written to its ring whole, or as far as buffers go with TRUNCATED, or dropped where the ring has no buffer or is no
receive ring. COMPLETES, each with its own effect as a next state under conditions on state and operands alone: txDescriptor,
txCellsFreed, rxRingDeliver. -/
def Obligations.TransmitAndReceiveRingsComplete : Prop :=
  ∀ (ring : Fin 64) (bytes : List Byte) (ptp : Option (PtpKind × BitVec 16)) (dma : Dma) (i : RxItem) (s u : State),
    let r := ring.val
    let len := i.frame.len - 4
    let need := (len + s.bufSize r - 1) / s.bufSize r
    (s.txHead r bytes ptp dma = some u → exec (.txDescriptor ring bytes ptp dma) s = .next u ∧
      exec (.txCellsFreed ring bytes ptp dma) s = .next u) ∧
    (∀ d rest t, s.ringIs r 1 = true → s.hostUp = true → s.chanFree r = true → s.rd (Reg.HIF_RING_STAT_BACKLOG r) < 256 →
      (s.ring r).fetched = some d :: rest → s.txCheck d (ptp.map (·.1)) = none → txType d = 0x20 →
      s.txFits (txDest d) (txLen d + 4) = true →
      s.dma r 1 false (s.rd (Reg.HIF_RING_STAT_SQ_HEAD r)) 0 (bits d 64 48) dma = (true, t) →
      exec (.txDescriptor ring bytes ptp dma) s = .next ((t.takeBuffers r 1).txFrame r d bytes ptp) ∧
      exec (.txCellsFreed ring bytes ptp dma) s = .next ((t.takeBuffers r 1).txFrame r d bytes ptp)) ∧
    (s.port.rxq.find? (fun i => i.ring = r) = some i → s.ringIs r 2 = false →
      exec (.rxRingDeliver ring dma) s = .next ((s.dropRx i).bump .hif C.HIF_MISROUTED r)) ∧
    (s.port.rxq.find? (fun i => i.ring = r) = some i → s.ringIs r 2 = true → s.chanFree r = true → s.moreBuffers r = false →
      s.buffers r = 0 →
      exec (.rxRingDeliver ring dma) s = .next ((s.dropRx i).portCount i.port C.PORT_RX_RING_NOBUF)) ∧
    (s.port.rxq.find? (fun i => i.ring = r) = some i → s.ringIs r 2 = true → s.chanFree r = true → s.hostUp = true → 0 < s.buffers r →
      need ≤ s.buffers r →
      s.dma r 1 true (s.rd (Reg.HIF_RING_STAT_SQ_HEAD r)) (min need (dma.offset / s.bufSize r + 1))
        (s.bufferAddr r (dma.offset / s.bufSize r)) ⟨dma.offset % s.bufSize r, dma.walk⟩ = (true, u) →
      exec (.rxRingDeliver ring dma) s = .next ((((u.takeBuffers r need).dropRx i).emit
        (.rxFrame r need (min len (need * s.bufSize r)) i.frame)).complete r
          (rxCpl .ok i.source (min len (need * s.bufSize r)) i.port need i.ts)))

/-! ### Ingest -/

/-- R93 to R97, R101, R112, R259: ING takes the oldest frame: one that fails its transport is discarded, one that matches an entry whose
ports admit it is parsed for it, and one that matches nothing goes to the unmatched ring; a connection that is established starts its
source, a lost one is opened anew after its wait; a segment in order hands its frames on and is acknowledged; firmware stages a
configuration frame of an AUTOCFG entry; an on or off command acts on the output that it addresses. COMPLETES, each with its own effect
as a next state under conditions on state and operands alone: ingParse, tcpEstablished, tcpConnectionLoss, tcpRetry, tcpSegment,
cfgFrame, c37118CmdFrame. -/
def Obligations.IngestControlCompletes : Prop :=
  ∀ (i : InFrame) (rest : List InFrame) (c e : Nat) (entry : Fin 8192) (next : BitVec 32) (p : Parsed) (ps : List Parsed) (m : C37)
    (info : CfgInfo) (seq ack : BitVec 32) (payload buf : List Byte) (frames : List C37) (fs : List (List Byte)) (n o : Nat) (r : Rec)
    (s v : State),
    let u := State.bump { s with port := { s.port with inq := rest } } .ing C.ING_FRAMES (i.entry.getD 0)
    let w : State := { s with ing := { s.ing with parsed := ps } }
    let k := (w.conn p.entry).acked ack.toNat
    let item : InFrame := ⟨p.port, none, p.ts, p.cells, p.frame⟩
    (s.port.inq = i :: rest → u.transport i.port i.frame = some c →
      exec .ingParse s = .next ((u.freeCells i).discard i.entry c)) ∧
    (∀ x, s.port.inq = i :: rest → u.transport i.port i.frame = none → i.frame.body = .sv x → u.reader i.ts i.frame = .ok (n, e) →
      (u.cfgOf n).portAdmits ((u.cfgOf n).tab 1 e) i.port = true →
      exec .ingParse s = .next ((u.freeCells i).parse i e n i.frame)) ∧
    (s.port.inq = i :: rest → u.transport i.port i.frame = none → i.frame.body = .raw →
      exec .ingParse s = .next (u.copyToRing Reg.ING_RING_UNM_EN Reg.ING_RING_UNM_RING 0 i)) ∧
    ((s.conn entry).st = 1 →
      let z := s.setConn entry { s.conn entry with st := 2, next := next.toNat, retryAt := 0, wait := 0, unacked := [] }
      ((z.act.tab 1 entry).bitAt 0 6 = false → exec (.tcpEstablished entry next) s = .next (z.sendTcp entry 2 2)) ∧
      ((z.act.tab 1 entry).bitAt 0 6 = true →
        exec (.tcpEstablished entry next) s = .next ((z.sendTcp entry 2 5).sendTcp entry 2 2))) ∧
    ((s.conn entry).st = 2 → (s.conn entry).wait = 0 →
      exec (.tcpConnectionLoss entry) s =
        .next (s.setConn entry { s.conn entry with st := 3, wait := 1, retryAt := s.now + 1 * nsPerS })) ∧
    ((s.conn entry).st = 3 → (s.conn entry).retryAt ≤ s.now → exec (.tcpRetry entry) s = .next (s.openConn entry)) ∧
    (s.ing.parsed = p :: ps → p.frame.body = .tcp seq ack payload frames → k.st = 2 → seq.toNat = k.next →
      tcpFrames (if (w.act.tab 1 p.entry).bitsAt 3 0 2 = 0 then 0 else 17) (k.buf ++ payload).length (k.buf ++ payload) = (fs, buf) →
      exec .tcpSegment s = .next ((fs.foldl (fun s b => s.tcpFrame p frames b) (w.setConn p.entry
        { k with next := (k.next + payload.length) % 2 ^ 32, buf })).sendTcp p.entry 1 0)) ∧
    (s.ing.parsed = p :: ps → p.frame.body = .tcp seq ack payload frames → k.st = 2 → seq.toNat ≠ k.next →
      exec .tcpSegment s = .next (((w.setConn p.entry k).bump .ing C.ING_TCP_OOO p.entry).sendTcp p.entry 1 0)) ∧
    (s.ing.parsed = p :: ps → p.frame.body = .c37 m → m.typ = .cfg2 → m.cfg = some info → m.chkOk = true →
      w.cfOn Reg.ING_CTL_FW_STAGE = true → p.entry < noEntry → (w.act.tab 1 p.entry).bitAt 0 6 = true →
      exec .cfgFrame s = .next (w.stageCfg p.entry info false false)) ∧
    (s.ing.parsed = p :: ps → p.frame.body = .c37 m → m.typ = .command → w.addressed p.port p.frame m = some (o, r) →
      w.cmdTrailer r m = (true, v) → m.cmd = 2 → ((v.bump .pub C.PUB_CMD_RX).freeCells item).pairMode = false →
      exec .c37118CmdFrame s = .next (((v.bump .pub C.PUB_CMD_RX).freeCells item).turn o true)) ∧
    (s.ing.parsed = p :: ps → p.frame.body = .c37 m → m.typ = .command → w.addressed p.port p.frame m = some (o, r) →
      w.cmdTrailer r m = (false, v) →
      exec .c37118CmdFrame s = .next ((v.freeCells item).bump .pub C.PUB_CMD_REJECTED))

/-- R97 to R110: a data frame that passes its checks, in their order, hands its blocks on at its grid instant; a sampled-value frame of the
right shape and name hands its samples on; an SPDU that passes hands on what it carries; a GOOSE message goes to its entry; when the
time a GOOSE message allowed to live is over, its last values are handed on as INVALID. COMPLETES, each with its own effect as a next
state under conditions on state and operands alone: c37118DataFrame, svFrame, gooseFrame, iec905Spdu, gooseTtlExpiry. -/
def Obligations.IngestDataCompletes : Prop :=
  ∀ (p : Parsed) (ps : List Parsed) (m : C37) (v : SvFrame) (g : GoosePdu) (x : Spdu) (q st sq : Nat) (exp : Instant) (last : Meas)
    (first got : Bool) (entry : Fin 8192) (s w z : State),
    let u : State := { s with ing := { s.ing with parsed := ps } }
    let c := u.parseCfg p
    let e := p.entry
    let r := c.tab 1 e
    let raw := u.c37Instant (r.at 60 4) m
    let t := snap (r.at 40 2) raw
    (s.ing.parsed = p :: ps → p.frame.body = .c37 m → m.typ = .data → m.sound = true → m.framesize = r.at 72 2 →
      m.blocks.length = r.at 46 1 → blocksFit c e m.blocks = true →
      u.endAuth (r.bitsAt 3 0 2) p.key m.iv m.bytes m.tag = .ok q →
      (if t ≤ raw then raw - t else t - raw) ≤ c.fld Reg.ING_CTL_GRID_TOL_US * 1000 → u.tooFar t = false →
      u.fresh e (r.at 40 2) t (r.bitsAt 3 0 2 != 0) = (true, w) → w.tqFault (r.bitsAt 47 0 4) t m.tqFlags.toNat = false →
      m.blocks.any (fun b => bitOf b.stat.toNat 13) = false →
      State.c37Blocks c p t q false w e (r.bitsAt 48 0 17) m.blocks = (first, z) →
      exec .c37118DataFrame s = .next (if first then z.autoCfg e else z)) ∧
    (s.ing.parsed = p :: ps → p.frame.body = .c37 m → m.typ = .data → m.sound = false →
      exec .c37118DataFrame s = .next (u.discard (some e) C.ING_PARSE_ERR)) ∧
    (s.ing.parsed = p :: ps → p.frame.body = .sv v → v.noAsdu = r.bitsAt 45 0 4 → v.asdus.length = v.noAsdu →
      (∀ a ∈ v.asdus, a.values.length = r.at 54 1) → r.at 32 4 = crc32 v.svId → r.at 56 4 = v.confRev.toNat →
      v.asdus.foldl (fun (x : Bool × State) a => ((x.1 || (x.2.asdu c p v.simulated a).1), (x.2.asdu c p v.simulated a).2))
        (false, u.setEnt e { u.ent e with mismatch := false }) = (got, z) →
      exec .svFrame s = .next (if got then z.setEnt e { z.ent e with accepted := ((z.ent e).accepted + 1) % 2 ^ 32 } else z)) ∧
    (s.ing.parsed = p :: ps → p.frame.body = .goose g → exec .gooseFrame s = .next (u.goose c p g (2 ^ 8))) ∧
    (s.ing.parsed = p :: ps → p.frame.body = .spdu x → x.nApdus = 1 → x.encrypted = false → x.sigAlg = r.bitsAt 3 0 2 →
      r.bitsAt 3 0 2 = 0 → x.sessionId ≠ 0xA1 → x.apdu = .goose g → u.endAuth 0 p.key [] x.bytes x.tag = .ok q →
      exec .iec905Spdu s = .next (u.goose c p g q)) ∧
    (s.ing.parsed = p :: ps → p.frame.body = .spdu x → x.nApdus = 1 → x.encrypted = true →
      exec .iec905Spdu s = .next (u.discard (some e) C.ING_ENCRYPTED)) ∧
    ((s.ent entry).goose = some ⟨st, sq, some exp, last⟩ → exp ≤ s.now →
      let z := s.setEnt entry { s.ent entry with goose := some ⟨st, sq, none, last⟩, flags := (s.ent entry).flags ||| 1 }
      exec (.gooseTtlExpiry entry) s =
        .next ((z.toStitcher { last with instant := exp, quality := last.quality ||| 1 }).ingEvent 4 entry))

/-! ### Phasor estimation and the Stitcher -/

/-- R117 to R128: a sample is held and every window that it completes starts; the earliest window starts WAIT_US after its last sample; a
computation that ends gives the channel's output, and under DUAL one instance that is missing after 20 us gives a mismatch. COMPLETES,
each with its own effect as a next state under conditions on state and operands alone: pheSample, pheWaitExpiry, pheOutput,
pheDualTimeout. -/
def Obligations.PhasorCommandsComplete : Prop :=
  ∀ (p : PheSmp) (rest : List PheSmp) (ch : Fin 1024) (agree : Bool) (run : PheRun) (runs : List PheRun) (t t0 : Instant)
    (rate len : Nat) (a : Int) (s : State),
    let u := State.bump { s with phe := { s.phe with inbox := rest } } .phe C.PHE_SAMPLES p.chan
    let x := u.pheChan p.chan
    let v := u.setPheChan p.chan { x with samples := x.samples.filter (fun q => decide (u.now ≤ q.instant + nsPerS)) ++ [p] }
    (s.phe.inbox = p :: rest → p.chan < 1024 → x.done = [] → x.next = some t0 →
      exec .pheSample s = .next (((v.pheCandidates p.chan p.pos 1024 t0).filter (fun t => v.pheActive p.chan t)).foldl
        (fun s t => if s.pheComplete p.chan t then s.pheStart p.chan t else s) v)) ∧
    ((s.pheChan ch).next = some t → s.pheActive ch t = true → s.pheWindow ch t = (rate, len, a) →
      (2 * (a + len - 1).toNat * nsPerS + rate) / (2 * rate) + s.cf Reg.PHE_CTL_WAIT_US * 1000 ≤ s.now →
      exec (.pheWaitExpiry ch) s = .next (s.pheStart ch t)) ∧
    ((s.pheChan ch).runs = run :: runs → exec (.pheOutput ch agree) s = .next ((s.popRun ch).pheFinish ch run agree)) ∧
    ((s.pheChan ch).runs = run :: runs → (s.cfgAt run.t).fld Reg.PHE_CTL_DUAL = 1 → run.start + 20000 ≤ s.now →
      exec (.pheDualTimeout ch) s = .next ((s.popRun ch).pheMismatch ch run.t))

/-- R133, R137 to R147, R151: a slice opens when due; a measurement is placed in the order of arrival; a slice whose deadline is reached
with a stream missing is marked, and revision 0 is released in order; gathering ends with its time, and the next revision is released; a
slice closes at its horizon; a release that found no room proceeds when space is free. COMPLETES, each with its own effect as a next
state under conditions on state and operands alone: sliceOpen, measurementPlace, sliceDeadline, revision0Release, revGatherExpiry,
revisionRelease, sliceHorizon, storeStallClear. -/
def Obligations.StitcherCommandsComplete : Prop :=
  ∀ (m : Meas) (rest : List Meas) (x : Slice) (later : List Slice) (s : State),
    (s.openDue = true → exec .sliceOpen s = .next s.openNext) ∧
    (s.stch.inbox = m :: rest → exec .measurementPlace s = .next (State.place { s with stch := { s.stch with inbox := rest } } m)) ∧
    (s.openSlices = [x] → x.deadline = false → s.deadlineOf x ≤ s.now → x.instant ≤ s.now →
      (s.expectedIn x).all (s.presentIn x) = false →
      exec .sliceDeadline s = .next (s.setSlice { x with deadline := true })) ∧
    (s.openSlices = x :: later → s.sliceReady x = true → exec .revision0Release s = .next (s.releaseOpen x)) ∧
    (s.openSlices = x :: later → s.sliceReady x = false → exec .revision0Release s = .next s) ∧
    (s.stch.slices = [x] → x.phase = .gathering → x.gatherDue = false →
      x.gatherAt + 1000 * (s.sliceCfg x).fld Reg.STCH_CTL2_REV_GATHER_US ≤ s.now →
      exec .revGatherExpiry s = .next (s.setSlice { x with gatherDue := true })) ∧
    (s.stch.slices = [x] → x.phase = .gathering → x.stalled = false → x.gatherDue = true →
      exec .revisionRelease s = .next (s.releaseNext x)) ∧
    (s.stch.slices = [x] → x.phase = .released → s.horizonOf x ≤ s.now →
      exec .sliceHorizon s = .next (s.finish x)) ∧
    (s.stch.slices = [x] → x.stalled = true → x.phase = .opened →
      (makeRoom s.revFrozen s.storeCap (s.sliceCfg x).sliceLength s.stch.store.length s.stch.store).isSome = true →
      exec .storeStallClear s = .next (s.releaseOpen x)) ∧
    (s.stch.slices = [x] → x.stalled = true → x.phase = .gathering →
      (makeRoom s.revFrozen s.storeCap (s.sliceCfg x).sliceLength s.stch.store.length s.stch.store).isSome = true →
      exec .storeStallClear s = .next (s.releaseNext x))

/-! ### State estimation, mode tracking, islanding -/

/-- R148, R161 to R172: the topology of a revision is labelled, kept for ISL, and the estimate follows where LSE_CTL.EN is 1; an estimate
under the factor of its instant is published, and one older than every factor is skipped; a factorisation that succeeds is cut over, one
that fails raises its event. COMPLETES, each with its own effect as a next state under conditions on state and operands alone:
topologyLabel, lseEstimate, refactorComplete. -/
def Obligations.EstimationCommandsComplete : Prop :=
  ∀ (w : Work) (f : Factor) (r : Refactor) (s u : State),
    let v := w.rev
    let c := s.cfgRev v
    let off : State := { s with stch := { s.stch with work := [] } }
    (s.stch.work = [w] → w.who = .topo → c.fld Reg.LSE_CTL_EN = 0 → c.nodes ≠ [] →
      let z := off.setSwitches c v
      let st (d : Nat) := z.switchState c v d
      let l := labelNodes c (fun d => (st d).closed) (fun d => decide (0 < (st d).uncSlices))
      let y : State := { z with lse := { z.lse with labels := (⟨v.instant, v.rev, l⟩ :: z.lse.labels).take 64 } }
      (v.instant < z.lse.newest → exec .topologyLabel s = .next y) ∧
      (z.lse.newest ≤ v.instant →
        let q : State := { y with lse := { y.lse with newest := v.instant, topo := topoOf l } }
        exec .topologyLabel s = .next ((((q.wr Reg.LSE_STAT_NBUS (distinct (l.map (·.bus))).length).wr Reg.LSE_TOPO_NISL
          (distinct ((l.filter (fun x => !x.earthed)).map (·.island))).length).checkTopo c).factorRegs))) ∧
    (s.stch.work = [w] → w.who = .lse → v.rev ≠ 0 → off.factorGone c v.instant = true →
      exec .lseEstimate s = .next (off.bump .lse C.LSE_REEST_SKIPPED)) ∧
    (s.stch.work = [w] → w.who = .lse → v.rev ≠ 0 → off.factorGone c v.instant = false → off.factorFor c v.instant = some f →
      let x := off.countEstimate (estimate c f v)
      let z := if (estimate c f v).status = 2 ∨ (estimate c f v).status = 3 then x.refactorPresent c v else x
      let e := z.lseResult c v (some f) (estimate c f v)
      exec .lseEstimate s = .next ((z.produce ⟨1, v.instant, v.k, v.rev, v.material, e.length, .lse e⟩).factorRegs)) ∧
    (s.stch.work = [w] → w.who = .lse → v.rev = 0 → off.persist c v = (false, u) →
      let y : State := { u with lse := { u.lse with lastEst := max u.lse.lastEst v.instant } }
      y.factorFor c v.instant = some f →
      let x := y.countEstimate (estimate c f v)
      let z := if (estimate c f v).status = 2 ∨ (estimate c f v).status = 3 then x.refactorPresent c v else x
      let e := z.lseResult c v (some f) (estimate c f v)
      exec .lseEstimate s = .next ((z.produce ⟨1, v.instant, v.k, v.rev, v.material, e.length, .lse e⟩).factorRegs)) ∧
    (s.lse.running = some r → s.lse.held = false →
      let model := modelCfg r.model
      let unobs := unobservable model r.topo r.set
      let set := r.set.filter (fun m => !measLost model r.topo unobs m)
      let z := (State.wr { s with lse := { s.lse with running := none } } Reg.LSE_STAT_REFACTOR_BUSY 0).wr
        Reg.LSE_LAST_REFAC_DURATION_US ((s.now - r.start) / 1000)
      let failed := (z.bump .lse C.LSE_REFACTOR_FAIL).lseEvent 2 0
      let made (n : Nat) : Factor := ⟨z.lse.nextId, r.model, r.topo, set, unobs, n,
        if z.lse.lastEst = 0 then 0 else z.nextSlice z.lse.lastEst⟩
      let x : State := match lseFactor (lseSys model r.topo (set.filter (fun m => !measDead model r.topo m)) unobs) with
        | some n => if lseMaxBytes < n then failed
          else if r.shadow then { z with lse := { z.lse with staged := some (made n) } } else z.cutOver (made n)
        | none => failed
      exec .refactorComplete s = .next { x with lse := { x.lse with held := false } })

/-- R180 to R193: a revision 0 enters every set that runs, a material revision is taken up by every set; the update in progress of a set
ends with a result: of status WARMUP while it is still warming up, and after that with its modes. COMPLETES, each with its own effect as
a next state under conditions on state and operands alone: oscSample, oscRevision, oscUpdate. -/
def Obligations.ModeTrackingCommandsComplete : Prop :=
  ∀ (w : Work) (set : Fin 16) (r : OscRun) (s : State),
    let u : State := { s with stch := { s.stch with work := [] } }
    (s.stch.work = [w] → w.who = .osc → w.rev.rev = 0 →
      exec .oscSample s = .next ((List.range 16).foldl (State.oscTake (s.cfgRev w.rev) w.rev) u)) ∧
    (s.stch.work = [w] → w.who = .osc → w.rev.rev ≠ 0 →
      exec .oscRevision s = .next ((List.range 16).foldl (State.oscRevise (s.cfgRev w.rev) w.rev) u)) ∧
    ((s.oscSet set).run = some r →
      let c := s.cfgOf r.epoch
      let z := (s.setOsc set { s.oscSet set with run := none }).bump .osc C.OSC_UPDATES set
      ∀ restarted x, z.oscWarm c set r.sample = (true, restarted, x) →
        ∀ g, (x.oscSet set).track c set ((x.oscSet set).window (c.oscWindow set) r.sample) = ([], [], g) →
          exec (.oscUpdate set) s = .next ((x.setOsc set g).produceOsc
            ((x.setOsc set g).oscResult c set 0 r.instant r.epoch r.sample r.release 1 restarted false [] g.fos) r.k)) ∧
    ((s.oscSet set).run = some r →
      let c := s.cfgOf r.epoch
      let z := (s.setOsc set { s.oscSet set with run := none }).bump .osc C.OSC_UPDATES set
      ∀ restarted x, z.oscWarm c set r.sample = (false, restarted, x) →
        ∀ g, (x.oscSet set).track c set ((x.oscSet set).window (c.oscWindow set) r.sample) = ([], [], g) → g.noRef c set = false →
          ∀ modes y, (x.setOsc set g).oscModes c set r.sample true = (modes, y) →
            let q := y.oscAlarms c set modes g.fos
            (List.range 64).map q.oscActive = (List.range 64).map y.oscActive →
            exec (.oscUpdate set) s = .next (q.produceOsc (q.oscResult c set 0 r.instant r.epoch r.sample r.release 0 restarted false
              (modes.map (fun m => { m with alarm := q.oscHolds c set m })) g.fos) r.k))

/-- R205 to R218, R222, R383: a revision whose labels are there is evaluated; a re-clustering that is due starts, and its groups apply from
the next revision 0; a state that lasted too long raises its event; a publisher repeats its GOOSE message when its interval is over; an
alarm pin toggles after its half-period; two instances that agree are shown, two that differ are a mismatch, and one that is late is one
too. COMPLETES, each with its own effect as a next state under conditions on state and operands alone: ruleEval, recluster,
reclusterDone, confMiss, gooseRepeat, almOutHalfPeriod, safetyCompare, safetyDeadlineMiss. -/
def Obligations.IslandingCommandsComplete : Prop :=
  ∀ (w : Work) (t : Instant) (k : Nat) (ks : List Nat) (p : Fin 8) (g : GooseState) (pin : Fin 16) (a : AlmPin) (x : Compare)
    (xs : List Compare) (s : State),
    let u : State := { s with isl := { s.isl with compare := xs } }
    (s.stch.work = [w] → w.who = .rules →
      exec .ruleEval s = .next (State.evalRules { s with stch := { s.stch with work := [] } } w.rev)) ∧
    (s.isl.cluDue = some t → s.isl.reclust = none →
      exec .recluster s = .next { s with isl := { s.isl with cluDue := none, reclust := some t } }) ∧
    (s.isl.reclust = some t →
      let c := s.cfgAt t
      let n := c.fld Reg.ISL_COH_A_CLU_WIN
      let new := cohComponents ((s.isl.coh.filter (fun x => decide (x.t ≤ t))).take n) n (c.fld Reg.ISL_COH_B_DF_COH)
      let z := State.bump { s with isl := { s.isl with reclust := none, newGroups := some (s.now, new.map (fun g : Nat × List Nat =>
        (⟨g.1, g.2, RuleState.init, 0, 0⟩ : CohGroup))) } } .isl C.ISL_RECLUSTERS
      (∀ h hs, new.filter (fun g => !z.isl.groups.any (fun o => o.members == g.2)) = h :: hs →
        exec .reclusterDone s = .next (z.islEvent 7 h.1)) ∧
      (new.filter (fun g => !z.isl.groups.any (fun o => o.members == g.2)) = [] → new.length = z.isl.groups.length →
        exec .reclusterDone s = .next z)) ∧
    (s.isl.confDue = k :: ks →
      exec .confMiss s = .next ((State.bump { s with isl := { s.isl with confDue := ks } } .isl C.ISL_CONF_MISS).islEvent 6 (k / 2))) ∧
    (kvGet? s.isl.pubs p = some g → s.gooseMode ≠ 0 → s.pubOn p = true → g.next ≤ s.now →
      exec (.gooseRepeat p) s = .next (s.sendGoose p g)) ∧
    (kvGet? s.isl.pubs p = some g → s.gooseMode = 0 → exec (.gooseRepeat p) s = .next s.gooseSilence) ∧
    (kvGet? s.pins pin = some a → a.edge + a.half ≤ s.now →
      exec (.almOutHalfPeriod pin) s =
        .next { s with pins := kvSet s.pins pin { a with level := !a.level, edge := a.edge + a.half } }) ∧
    (s.isl.compare = x :: xs → s.equal x = true → exec (.safetyCompare true) s = .next (u.compared x)) ∧
    (s.isl.compare = x :: xs → s.equal x = false → exec (.safetyCompare true) s = .next (u.mismatch x)) ∧
    (s.isl.compare = x :: xs → exec (.safetyCompare false) s = .next (u.mismatch x)) ∧
    (s.overdue = none → s.overdueRules = none → s.lateDecision = some x → s.isl.compare = x :: xs →
      exec .safetyDeadlineMiss s = .next (u.mismatch x)) ∧
    (∀ r, s.overdue = some r → exec .safetyDeadlineMiss s = .next (State.mismatch
      { s with isl := { s.isl with compare := s.isl.compare.erase (.graph r.g r.id) } } (.graph r.g r.id)).schedShow)

/-! ### Capture, publication, sensors, engines -/

/-- R231 to R234, R253: an edge that lasted counts, is time-stamped with its calibration and fires as its trigger; a rising edge on XFIRE
that another unit drives is trigger 8; the pulses on XFIRE and TRIG_OUT end with their widths; a calibration drives its 16 pulses, 10 us
apart, and ends with event 135; the level at XARM is taken. COMPLETES, each with its own effect as a next state under conditions on
state and operands alone: trigInEdge, xfireEdge, xfirePulseEnd, trigOutPulseEnd, capCalStart, capCalDone, xarmChange. -/
def Obligations.TriggerCommandsComplete : Prop :=
  ∀ (n : Fin 8) (rising : Bool) (held : Nat) (k : Fin 4) (word : BitVec 32) (level own : Bool) (t : Instant)
    (sums : KV (Int × Nat)) (s : State),
    let c := (((s.now - held : Nat) : Int) - signed (s.cf (Reg.CAP_TIN_CAL_NS n)) 16).toNat
    let x := s.now - s.cf Reg.CAP_X_XFIRE_DLY_NS
    (s.dark = false → s.cf (Reg.CAP_TIN_EDGE n) = 2 → s.cf (Reg.CAP_TIN_MIN_NS n) ≤ held →
      let u := (s.bump .cap C.CAP_TIN_EDGES n).wrInstant (Reg.CAP_TIN_TS_S n) (Reg.CAP_TIN_TS_NS n) c
      exec (.trigInEdge n false held) s = .next (u.trigger [⟨c, n, 0, false⟩] (u.trigPoint c))) ∧
    (s.dark = false → s.cf (Reg.CAP_TIN_EDGE n) = 1 → s.cf (Reg.CAP_TIN_MIN_NS n) ≤ held →
      let u := ((s.bump .cap C.CAP_TIN_EDGES n).wrInstant (Reg.CAP_TIN_TS_S n) (Reg.CAP_TIN_TS_NS n) c).calEdge n (s.now - held)
      exec (.trigInEdge n true held) s = .next (u.trigger [⟨c, n, 0, false⟩] (u.trigPoint c))) ∧
    (s.cf (Reg.CAP_TIN_EDGE n) = 0 → exec (.trigInEdge n rising held) s = .next s) ∧
    (s.dark = false → s.cap.xfire = none →
      let u := (State.wr { s with cap := { s.cap with xfire := some (s.now + 1000, false) } } Reg.CAP_X_XFIRE_IN 1).bump .cap
        C.CAP_XFIRE_EDGES
      exec .xfireEdge s = .next (u.trigger [⟨x, 8, 0, false⟩] (u.trigPoint x))) ∧
    (s.cap.xfire = some (t, true) → s.now < t → exec .xfireEdge s = .next s) ∧
    (s.cap.xfire = some (t, own) → t ≤ s.now →
      exec .xfirePulseEnd s = .next (State.wr { s with cap := { s.cap with xfire := none } } Reg.CAP_X_XFIRE_IN 0)) ∧
    (kvGet? s.cap.tout k = some t → t ≤ s.now →
      exec (.trigOutPulseEnd k) s = .next { s with cap := { s.cap with tout := kvDel s.cap.tout k } }) ∧
    (s.barOpen 0x1500D0 = true → s.on Reg.CAP_CAL_BUSY = false →
      let v := word.toNat
      let u := ((s.wr Reg.CAP_CAL_OUT (bits v 24 2)).wr Reg.CAP_CAL_IN_MASK (bits v 16 8)).wr Reg.CAP_CAL_BUSY 1
      exec (.capCalStart word) s = .next ((List.range 16).foldl (fun z p => z.emit (.trigOut (bits v 24 2) (u.now + 10000 * p)))
        { u with cap := { u.cap with cal := some (u.now, []), tout := kvDel u.cap.tout (bits v 24 2) } })) ∧
    (s.cap.cal = some (t, sums) → t + 160000 ≤ s.now →
      let y := (List.range 8).foldl (fun z n =>
        if bitOf (z.rd Reg.CAP_CAL_IN_MASK) n = false then z
        else if (kvGetD sums n (0, 0)).2 = 2 ^ 16 - 1 then
          (z.wr (Reg.CAP_CAL_RES_DELAY n) ((kvGetD sums n (0, 0)).1 % 2 ^ 24).toNat).wr (Reg.CAP_CAL_RES_VALID n) 1
        else z.wr (Reg.CAP_CAL_RES_VALID n) 0) s
      exec .capCalDone s = .next ((State.wr { y with cap := { y.cap with cal := none } } Reg.CAP_CAL_BUSY 0).capEvent 7
        (s.rd Reg.CAP_CAL_OUT))) ∧
    (s.cfOn Reg.CAP_X_XARM_MASTER = false → s.on Reg.CAP_X_XARM_IN ≠ level → exec (.xarmChange level) s = .next (s.xarmChange level))

/-- R236 to R240, R246: a channel re-arms when its hold-off is satisfied, or waits for XARM; the next slice of a record is copied once it
settled, and the record ends with its window; a record in a ring's buffers is complete with its last one, waits while there is none, and
is discarded where the ring serves no capture. COMPLETES, each with its own effect as a next state under conditions on state and
operands alone: holdoffSatisfied, captureCopy, captureWindowEnd, captureDrain. -/
def Obligations.CaptureRecordCommandsComplete : Prop :=
  ∀ (ch : Fin 8) (dma : Dma) (r : CapRec) (rest : List CapRec) (v : Revision) (s u : State),
    let c := ch.val
    let x := s.capChan c
    let ring := r.cfg.at 1 1
    let need := (r.len + s.bufSize ring - 1) / s.bufSize ring
    (x.phase = .holdoff → x.satisfied = true → (s.capCfg c).capGuar = false → (s.capCfg c).capXarm = false →
      exec (.holdoffSatisfied ch) s = .next ((s.capArmed c).capEvent 6 c)) ∧
    (x.phase = .holdoff → x.satisfied = true → (s.capCfg c).capGuar = false → (s.capCfg c).capXarm = true →
      s.on Reg.CAP_X_XARM_IN = false →
      exec (.holdoffSatisfied ch) s = .next ((s.setCapChan c { x with phase := .waitXarm }).capEvent 6 c)) ∧
    (s.on Reg.ERR_STAT_FATAL = false → x.rcd = some r → r.cfg.capSource = 0 → s.nextSliceItem c = some v →
      v.instant + r.cfg.capSettle ≤ s.now → s.slicesToCome r v.instant = false →
      exec (.captureCopy ch) s = .next ((s.capTake c (8192 * v.instant) (.slice v)).capFinish c)) ∧
    (s.on Reg.ERR_STAT_FATAL = false → x.rcd = some r → r.cfg.capSource = 2 → r.stop < s.now →
      exec (.captureWindowEnd ch) s = .next (s.capComplete c false false)) ∧
    (s.on Reg.ERR_STAT_FATAL = false → x.queue = r :: rest → s.ringIs ring 4 = false →
      exec (.captureDrain ch dma) s =
        .next ((s.setCapChan c { x with queue := rest, drained := 0, waiting := false }).bump .hif C.HIF_MISROUTED ring)) ∧
    (s.on Reg.ERR_STAT_FATAL = false → x.queue = r :: rest → s.ringIs ring 4 = true → s.hostUp = true → s.chanFree ring = true →
      s.drainer ring = some c → s.buffers ring = 0 →
      exec (.captureDrain ch dma) s = .next (s.drainWaits c)) ∧
    (s.on Reg.ERR_STAT_FATAL = false → x.queue = r :: rest → s.ringIs ring 4 = true → s.hostUp = true → s.chanFree ring = true →
      s.drainer ring = some c → 0 < s.buffers ring → x.drained = 0 → need ≤ s.buffers ring →
      s.dma ring 1 true ((s.rd (Reg.HIF_RING_STAT_SQ_HEAD ring) + 65536) % 65536) (min need (dma.offset / s.bufSize ring + 1))
        (s.bufferAddr ring (dma.offset / s.bufSize ring)) ⟨dma.offset % s.bufSize ring, dma.walk⟩ = (true, u) →
      let t := (u.takeBuffers ring need).setCapChan c { x with queue := rest, drained := 0, waiting := false, sent := x.sent ++ [r] }
      exec (.captureDrain ch dma) s = .next ((t.emit (.capture ring need c (r.image c))).complete ring (captureCpl c need r.len)))

/-- R255 to R261, R316: the next revision is framed for every output that sends it, where the outputs run; the oldest item of a ring goes
into fresh buffers and is announced with what was dropped before it; where the ring is no publication ring the item is discarded.
COMPLETES, each with its own effect as a next state under conditions on state and operands alone: outputFrame, pubDeliver. -/
def Obligations.PublicationCommandsComplete : Prop :=
  ∀ (w : Work) (ring : Fin 64) (dma : Dma) (i : PubItem) (s u : State),
    let r := ring.val
    let c := s.cfgRev w.rev
    let z : State := { s with stch := { s.stch with work := [] } }
    let need := (i.length + s.bufSize r - 1) / s.bufSize r
    let dropped := kvGetD s.pub.dropped i.kind 0
    (s.stch.work = [w] → w.who = .outputs → z.outputsRun = true →
      exec .outputFrame s = .next (((c.listed 16).filter (fun e => z.outputTakes c e.1 e.2 w.rev)).foldl
        (fun s e => s.sendOutput c e.1 e.2 w.rev) z)) ∧
    (s.stch.work = [w] → w.who = .outputs → z.outputsRun = false → exec .outputFrame s = .next z) ∧
    (s.pub.items.find? (fun i => s.cf (Reg.PUB_KIND_RING i.kind) == r) = some i → s.ringIs r 3 = false →
      exec (.pubDeliver ring dma) s = .next ((s.dropItem i).bump .hif C.HIF_MISROUTED r)) ∧
    (s.pub.items.find? (fun i => s.cf (Reg.PUB_KIND_RING i.kind) == r) = some i → s.ringIs r 3 = true → s.hostUp = true →
      s.chanFree r = true → need ≤ s.buffers r →
      s.dma r 1 true (s.rd (Reg.HIF_RING_STAT_SQ_HEAD r)) (min need (dma.offset / s.bufSize r + 1))
        (s.bufferAddr r (dma.offset / s.bufSize r)) ⟨dma.offset % s.bufSize r, dma.walk⟩ = (true, u) →
      exec (.pubDeliver ring dma) s = .next (((((u.takeBuffers r need).takeItem i).bump .pub C.PUB_ITEMS).emit
        (.published r need i.kind i.body.bytes)).complete r (pubCpl (if dropped = 0 then .ok else .overflow) i.kind need i.length dropped)))

/-- R268 to R270, R274 to R283: a beacon is sent at its instant where the interface is able to, and is missed where it is not; a frame for
another network counts as FOREIGN, one of no sensor as NO_SENSOR, and one that passes the security checks is read; a sensor that stays
silent raises its event; a downlink leaves when its sensor polled, completes when it is acknowledged, is retried at most three times,
and is discarded after 30 s; a transceiver that is reset loses what was in progress. COMPLETES, each with its own effect as a next state
under conditions on state and operands alone: beacon, fslFrameReceive, sensorSilent, downlinkSend, downlinkAckReceive,
downlinkAckTimeout, downlinkExpiry, transceiverReset. -/
def Obligations.SensorCommandsComplete : Prop :=
  ∀ (x : Fin 2) (frame : FslFrame) (sensor : Fin 1024) (alive : Bool) (dsn : BitVec 8) (a : InAir) (d : Downlink) (ctr n : Nat)
    (later : List Nat) (ds : List Downlink) (s u : State),
    let f := s.fslIf x
    let z := s.bump .fsl C.FSL_RX_FRAMES x
    (s.cfOn (Reg.FSL_CTL_EN x) = true → s.act.beaconAt x f.next ≤ s.now → (s.fslWatch1 x).fslAble x = false →
      exec (.beacon x) s = .next ((s.fslWatch1 x).beaconMissed x f.next)) ∧
    (s.cfOn (Reg.FSL_CTL_EN x) = true → s.act.beaconAt x f.next ≤ s.now → (s.fslWatch1 x).fslAble x = true →
      s.now < s.act.beaconAt x f.next + (s.fslWatch1 x).act.fslBi x → ((s.fslWatch1 x).fslIf x).missed < 2 →
      (s.fslWatch1 x).now = s.now →
      exec (.beacon x) s = .next ((s.fslWatch1 x).sendBeacon x f.next)) ∧
    (s.cfOn (Reg.FSL_CTL_EN x) = true → s.on (Reg.FSL_STAT_IF_UP x) = true → s.deaf = false → frame.supported = false →
      exec (.fslFrameReceive x frame) s = .next (z.bump .fsl C.FSL_FOREIGN x)) ∧
    (s.cfOn (Reg.FSL_CTL_EN x) = true → s.on (Reg.FSL_STAT_IF_UP x) = true → s.deaf = false → frame.supported = true →
      let c := s.cfgAt (s.now - frame.age - s.cf (Reg.FSL_LAT_RX_LAT_NS x))
      frame.dstPan.toNat = c.fld (Reg.FSL_ADDR_PAN_ID x) → frame.dst = none → c.senMatch x frame.src = none →
      exec (.fslFrameReceive x frame) s = .next (z.bump .fsl C.FSL_NO_SENSOR x)) ∧
    (s.cfOn (Reg.FSL_CTL_EN x) = true → s.on (Reg.FSL_STAT_IF_UP x) = true → s.deaf = false → frame.supported = true →
      let sfd := s.now - frame.age - s.cf (Reg.FSL_LAT_RX_LAT_NS x)
      let c := s.cfgAt sfd
      ∀ r k stale v, frame.dstPan.toNat = c.fld (Reg.FSL_ADDR_PAN_ID x) → frame.dst = none → c.senMatch x frame.src = some (n, r) →
        frame.ackRequest = false → frame.secured = true → r.at 13 1 ≤ frame.level.toNat → frame.keyMode = 1 →
        frame.keyIdx.toNat = c.fld (Reg.FSL_SEC_KEY_IDX x) → frame.level.toNat < 4 →
        z.keyBegan (c.fld (Reg.FSL_SEC_KEY_SLOT x)) 2 useFsl (z.now - frame.began) = (k, stale, v) → k.usable = true →
        ccmMic k.key (micSize frame.level.toNat) (fslNonce r.senExt frame.counter.toNat frame.level.toNat) (frame.header ++ frame.body) []
          = frame.mic →
        ctrRule (r.at 20 4) (v.sensor n) frame.counter.toNat frame.dsn.toNat = .accepted → (v.sensor n).st = 2 → frame.request = false →
        let y := (v.setSensor n ⟨2, frame.counter.toNat, frame.dsn.toNat, true, 0⟩).bump .fsl C.FSL_ACCEPTED n
        exec (.fslFrameReceive x frame) s = .next (y.fslReading c (y.epochAt sfd) x r sfd frame.body stale)) ∧
    ((s.sensor sensor).st = 2 → (s.act.tab 17 sensor).at 17 1 ≠ 0 →
      (s.act.tab 17 sensor).at 17 1 * 2 ^ (s.act.tab 17 sensor).senCycle ≤ (s.sensor sensor).beacons →
      exec (.sensorSilent sensor) s = .next ((s.setSensor sensor { s.sensor sensor with st := 3 }).fslEvent 2 sensor)) ∧
    (f.polled = n :: later → s.queuedFor n = d :: ds → f.air = none → s.fslRate x = true → s.fslCanSecure x = true →
      s.on (Reg.FSL_STAT_IF_UP x) = true → s.fslSilent x = false → s.fslCounter x = (some ctr, u) →
      let g := u.fslIf x
      let v := u.setFslIf x { g with polled := later, dsn := (g.dsn + 1) % 256, air := some ⟨d, ctr, g.dsn, 0, u.now⟩ }
      exec (.downlinkSend x) s =
        .next ((v.bump .fsl C.FSL_DL_SENT n).emit (v.dlFrame x ⟨d, ctr, g.dsn, 0, u.now⟩))) ∧
    (f.air = some a → a.dsn = dsn.toNat → (s.setFslIf x { f with air := none }).fsl.dls.contains a.dl = true →
      exec (.downlinkAckReceive x dsn) s = .next ((s.setFslIf x { f with air := none }).dlDone a.dl .ok)) ∧
    (f.air = some a → a.sent + s.act.ackWait x ≤ s.now → s.fslSilent x = false → 3 ≤ a.retries →
      exec (.downlinkAckTimeout x) s = .next (s.setFslIf x { f with air := none })) ∧
    (f.air = some a → a.sent + s.act.ackWait x ≤ s.now → s.fslSilent x = false → a.retries < 3 → s.fsl.dls.contains a.dl = true →
      let v := s.setFslIf x { f with air := some { a with retries := a.retries + 1, sent := s.now } }
      exec (.downlinkAckTimeout x) s = .next ((v.bump .fsl C.FSL_DL_SENT a.dl.sensor).emit (v.dlFrame x a))) ∧
    (s.fsl.dls = [d] → senIf d.sensor = x.val → d.queued + 30 * nsPerS ≤ s.now →
      exec (.downlinkExpiry x) s = .next (((s.dlDone d .degraded).bump .fsl C.FSL_DL_DISCARDED d.sensor).fslEvent 5 d.sensor)) ∧
    (s.cfOn (Reg.FSL_CTL_EN x) = true →
      exec (.transceiverReset x alive) s = .next (((((((s.setFslIf x { f with air := none, polled := [] }).emit (.fslReset x)).fslConfigure
        x).wrB (Reg.FSL_STAT_IF_UP x) alive).fslEvent 0 x).fslWatch1 x)))

/-- R11, R12, R293 to R303, R384: an engine that is free takes the operation that it is given; an operation that is the last of its run
releases the run's result; a result that waited enters a free place; entries of the delay list become ready at their tick; a revision
starts the graphs of its epoch, and a timed graph goes through the delay list; the Warden takes its items by priority, and one that runs
too long is reported. COMPLETES, each with its own effect as a next state under conditions on state and operands alone: engineDispatch,
affWaitExpiry, opComplete, releaseStageFree, delayTick, graphRunStart, graphTimedStart, wardenItemStart, wardenItemOverrun. -/
def Obligations.SchedulerCommandsComplete : Prop :=
  ∀ (e : Fin 64) (c : Fin 16) (g : Fin 64) (pair : Fin 2) (us : Nat) (o : SchedOp) (w : Work) (made : List WardenItem) (p : WardenItem)
    (rest : List WardenItem) (acts : List QueueAct) (id inst : Nat) (r : GRun) (s t : State),
    (∀ (x : Engine), s.engineRuns e = true → s.engine e = x → x.op = none → x.hold = none → x.spill = none → x.last = none →
      s.pickOp e false = some o → s.affinity o = none →
      let y : State := match s.affKey o with
        | some k => { s with sched := { s.sched with aff := kvSet s.sched.aff k e } }
        | none => s
      let z := y.setCluster (e.val / 4) { s.cluster (e.val / 4) with ready := (s.cluster (e.val / 4)).ready.erase o }
      exec (.engineDispatch e) s = .next ((z.setEngine e { x with op := some o, last := some (o.src, o.inst, o.level) }).schedShow)) ∧
    (s.builtinReady c = [] →
      exec (.affWaitExpiry c) s = .next (s.setCluster c { s.cluster c with ready := (s.cluster c).ready.map (fun o =>
        if decide (o.ready + s.cf Reg.SCHED_CTL_AFF_WAIT_NS ≤ s.now) && (match s.affinity o with
          | some a => !(s.engine a).idle
          | none => false) then { o with free := true } else o) })) ∧
    (∀ (x : Engine), s.engine e = x → x.op = some o →
      let z := acts.foldl State.queueAct (s.setEngine e { x with op := none })
      let y := z.free.2.wr (Reg.SCHED_CLU_LOAD_LOAD_PM (e.val / 4)) (z.free.1 % 1001)
      (∀ g, o.src = .graph g → y.graphRun g = none → exec (.opComplete e acts) s = .next y.schedShow) ∧
      ((∀ g, o.src ≠ .graph g) → y.builtins.any (fun b => b.1 == o.src) = true →
        exec (.opComplete e acts) s = .next (y.setChain ⟨o.src, o.inst, o.node + 1, y.now, false⟩).schedShow) ∧
      (∀ q, y.runOf o = some q → y.runNode q o.inst o.node = (r, t) →
        let there (k : Nat) : Bool := (kvGet? r.vals (512 * o.inst + k)).isSome
        let z := t.makeReady r o.inst ((List.range r.nodes.length).filter (fun k =>
          ((r.nodes[k]?).map (fun n => n.uses o.node && n.inputs.all there)).getD false))
        ((List.range r.nodes.length).all there = true →
          exec (.opComplete e acts) s = .next (z.instanceDone r o.inst e).schedShow) ∧
        ((List.range r.nodes.length).all there = false → exec (.opComplete e acts) s = .next z.schedShow))) ∧
    (((List.range 4).map (fun i => 4 * c.val + i)).filterMap (fun e => (s.engine e).spill.map (fun p => (e, true, p))) = [] →
      ((List.range 4).map (fun i => 4 * c.val + i)).filterMap (fun e => (s.engine e).hold.map (fun p => (e, false, p)))
        = [(e.val, false, id, inst)] → s.graphRun id = some r → s.takePlace c r inst = some t →
      exec (.releaseStageFree c) s = .next ((t.setEngine e { t.engine e with hold := none }).schedShow)) ∧
    (∀ tick, tick = s.now / 10000 * 10000 →
      exec (.delayTick c) s = .next ((((s.cluster c).delay.filter (fun e => decide (e.1 ≤ tick))).foldl (fun z e =>
        match z.graphRun e.2.1 with
        | some r => z.makeReady r e.2.2 r.sources
        | none => z) (s.setCluster c { s.cluster c with
          delay := (s.cluster c).delay.filter (fun e => decide (tick < e.1)) })).schedShow)) ∧
    (s.stch.work = [w] → w.who = .graphs →
      let z : State := { s with stch := { s.stch with work := [] } }
      let f := s.cfgRev w.rev
      f.fld Reg.SCHED_CTL_EN ≠ 0 → w.rev.epoch = z.rd Reg.GLB_EPOCH_EPOCH →
      exec .graphRunStart s = .next (((f.graphs.filter (fun e => !e.2.dirTimed)).foldl
        (fun s e => s.startGraph f z.sched.place w.rev e.1 e.2) z).schedShow)) ∧
    (let d := s.act.tab 18 g
      let n := kvGetD s.sched.timedNext g 0
      s.act.fld Reg.SCHED_CTL_EN ≠ 0 → d.dirOn = true → d.dirTimed = true → d.dirPeriod ≠ 0 → n ≤ s.now → s.stch.gap = true →
      let z : State := { s with sched := { s.sched with timedNext := kvSet s.sched.timedNext g (n + d.dirPeriod) } }
      exec (.graphTimedStart g) s = .next (z.emptyGraph g d 0 2 n (z.rd Reg.GLB_EPOCH_EPOCH) 0 false).schedShow) ∧
    (let d := s.act.tab 18 g
      let n := kvGetD s.sched.timedNext g 0
      ∀ v h y, s.act.fld Reg.SCHED_CTL_EN ≠ 0 → d.dirOn = true → d.dirTimed = true → d.dirPeriod ≠ 0 → n ≤ s.now → s.stch.gap = false →
      let z : State := { s with sched := { s.sched with timedNext := kvSet s.sched.timedNext g (n + d.dirPeriod) } }
      z.acted = [v] → v.rev = 0 → v.release ≤ n → kvGet? z.sched.place g = some h → z.graphFull g = false →
      (if d.dirSafety then [h.1, h.2] else [h.1]).any (fun c => decide (1024 ≤ (z.cluster c).delay.length)) = false →
      z.newRun z.act g d v true n v.instant v.epoch h = (r, y) →
      exec (.graphTimedStart g) s = .next ((r.instances.foldl (fun z i => z.setCluster (r.cluster i) { z.cluster (r.cluster i) with
        delay := delayInsert (z.cluster (r.cluster i)).delay (n, r.id, i) }) y).schedShow)) ∧
    ((s.wardenPair pair).running = none → takeTop ((s.wardenPair pair).ready ++ made) = some (p, rest) →
      exec (.wardenItemStart pair us made) s = .next (s.setWardenPair pair ⟨rest, some p⟩).schedShow) ∧
    ((if pair = 0 then 20 else 100) < us →
      exec (.wardenItemOverrun pair us) s = .next (((s.itemTook us).schedEvent 8 pair).reportFree))

/-! ### Pairs, witness, Hjel, teams -/

/-- R361, R362, R365, R372, R380: enabling a pair takes the unit to START and disabling it, where its state may go to OFF, to OFF; a write
while the pair runs only sets CFG_WR; START ends in QUERY, and a HOLD that lasts too long takes the safe state once; heartbeats leave
every 250 us; one of a unit that is expected is heard; a partner that is silent for 1,000 us is lost; revision 0s are compared by
digest, and 10 s without a comparison raise an event. COMPLETES, each with its own effect as a next state under conditions on state and
operands alone: pairEnable, pairDisable, startWaitExpiry, holdMaxExpiry, heartbeatSend, heartbeatReceive, partnerLost, digest,
digestTimeout. -/
def Obligations.PairCommandsComplete : Prop :=
  ∀ (word : BitVec 32) (h : Heartbeat) (unit : Fin 16) (t : Instant) (h0 : Heartbeat) (msg d : DigestMsg) (s : State),
    (s.barOpen 0x190000 = true → s.rd Reg.PAIR_STAT_STATE = 0 → s.on Reg.PAIR_CTL_ENABLE = true →
      let z := (s.pairCtl word.toNat).wr Reg.PAIR_CTL_ENABLE 1
      z.rd Reg.PAIR_CTL_MODE = 1 → z.quarantine = false →
      exec (.pairEnable word) s = .next (State.goPair { z with pair := { z.pair with
        startAt := z.now, cmpAt := z.now, witAt := z.now, witSeq := none, wasActive := false } } 1)) ∧
    (s.barOpen 0x190000 = true → s.rd Reg.PAIR_STAT_STATE ≠ 0 →
      exec (.pairEnable word) s = .next (s.wr Reg.PAIR_STAT_CFG_WR 1)) ∧
    (s.barOpen 0x190000 = true → s.rd Reg.PAIR_STAT_STATE = 0 →
      exec (.pairDisable word) s = .next (((s.pairCtl word.toNat).wr Reg.PAIR_CTL_ENABLE 0).setPins)) ∧
    (s.barOpen 0x190000 = true → s.rd Reg.PAIR_STAT_STATE = 7 →
      word.toNat % 2 ^ 31 - 2 ^ 16 * bits word.toNat 16 3 = s.pairCtlWord →
      let z := (((((s.wr Reg.PAIR_CTL_ENABLE 0).wr Reg.PAIR_STAT_PARTNER 0).wr Reg.PAIR_STAT_PARTNER_OK 0).wr Reg.PAIR_STAT_WIT_OK 0).wr
        Reg.PAIR_PARTNER_CLAIM 0).wr Reg.PAIR_PARTNER_AGE_US 0xFFFF
      exec (.pairDisable word) s = .next (State.goPair { z with pair := { z.pair with
        heard := [], lost := [], resync := none, retryAt := none, wasActive := false } } 0)) ∧
    (s.rd Reg.PAIR_STAT_STATE = 1 → s.pair.startAt + 1000000 * s.rd Reg.PAIR_CTL_START_WAIT_MS ≤ s.now →
      exec .startWaitExpiry s = .next s.enterQuery) ∧
    (s.rd Reg.PAIR_STAT_STATE = 7 → s.rd Reg.PAIR_WIT_HOLD_MAX_MS ≠ 0 →
      s.pair.holdAt + 1000000 * s.rd Reg.PAIR_WIT_HOLD_MAX_MS ≤ s.now →
      exec .holdMaxExpiry s =
        .next (((State.enterSafe { s with pair := { s.pair with holdAt := s.now + 2 ^ 80 } } 0x0E).pinRegs).pairEvent 12)) ∧
    (s.pairing = true → s.safe = false → s.pair.sentAt + 250000 ≤ s.now →
      let z := s.moveBoundary.heartbeatUnits.foldl State.sendHeartbeat s.moveBoundary
      exec .heartbeatSend s = .next { z with pair := { z.pair with
        seq := (z.pair.seq + 1) % 2 ^ 32, sentAt := z.now
        sent := z.pair.sent.filter (fun x => decide (z.now ≤ x.2 + 1000000)) ++ [(z.pair.seq, z.now)] } }) ∧
    (s.pairing = true → s.expectedHb h = true → h.unit ∉ s.pair.lost →
      let z := (State.bump { s with pair := { s.pair with
        heard := kvSet s.pair.heard h.unit (h, s.now), lost := setDel s.pair.lost h.unit } } .pair C.PAIR_HB_RECV).readDecision h
      z.rd Reg.PAIR_CTL_MODE = 1 →
      exec (.heartbeatReceive h) s = .next (((((z.wr Reg.PAIR_STAT_PARTNER h.unit).wr Reg.PAIR_STAT_PARTNER_OK 1).wr
        Reg.PAIR_PARTNER_CLAIM h.claim).wr Reg.PAIR_PARTNER_AGE_US 0).pairStep h)) ∧
    (s.pairing = true → kvGet? s.pair.heard unit.val = some (h0, t) → t + 1000000 ≤ s.now → unit.val ∉ s.pair.lost →
      let z := (State.bump { s with pair := { s.pair with lost := setAdd s.pair.lost unit.val } } .pair C.PAIR_HB_MISSED).pairEvent 0
      z.rd Reg.PAIR_CTL_MODE = 1 →
      let y := (z.wr Reg.PAIR_STAT_PARTNER_OK 0).forwardsLost
      y.rd Reg.PAIR_STAT_STATE = 4 →
      exec (.partnerLost unit) s = .next y.enterQuery) ∧
    (s.pairMode = true → s.pair.own = [d] → d.instant = msg.instant → d.epoch = msg.epoch →
      exec (.digest msg) s = .next (State.compareDigests { s with pair := { s.pair with own := [] } } d msg)) ∧
    (s.pairMode = true → s.pair.own = [] →
      exec (.digest msg) s = .next { s with pair := { s.pair with peers := keepLast s.pair.peers msg } }) ∧
    (s.pairMode = true → s.pair.cmpAt + 10 * nsPerS ≤ s.now →
      exec .digestTimeout s = .next (State.pairEvent { s with pair := { s.pair with cmpAt := s.now } } 9))

/-- R362, R367 to R370: a unit answers the witness frame that it accepts; a GRANT makes it the active one with the granted claim, a DENY
keeps it in BELAY_HOLD, and a witness that was not heard for 2 ms sends a unit in QUERY to HOLD; the witness addresses its two units in
turn, answers a query of a unit alone at once where the other was silent, and decides when its window is over. COMPLETES, each with its
own effect as a next state under conditions on state and operands alone: witnessPoll, witnessGrant, witnessDeny, witnessUnreachable,
witnessSlot, witnessAnswer, witnessWindowExpiry. -/
def Obligations.WitnessCommandsComplete : Prop :=
  ∀ (frame : WitFrame) (query : Bool) (t : Instant) (l : KV (Nat × Bool)) (s u : State),
    (s.witAccept 1 frame = (true, u) → exec (.witnessPoll frame) s = .next (u.witAnswer frame.seq)) ∧
    (s.witAccept 2 frame = (true, u) → u.rd Reg.PAIR_STAT_STATE = 5 → u.pair.wasActive = true →
      exec (.witnessGrant frame) s = .next ((u.becomeActive (frame.claim.toNat / 16)).witAnswer frame.seq)) ∧
    (s.witAccept 2 frame = (true, u) → u.rd Reg.PAIR_STAT_STATE = 6 → u.pair.wasActive = false →
      exec (.witnessGrant frame) s =
        .next (((u.bump .pair C.PAIR_SWITCHOVERS).becomeActive (frame.claim.toNat / 16)).witAnswer frame.seq)) ∧
    (s.witAccept 3 frame = (true, u) → u.rd Reg.PAIR_STAT_STATE = 5 →
      exec (.witnessDeny frame) s = .next (((u.goPair 6).pairEvent 5).witAnswer frame.seq)) ∧
    (s.rd Reg.PAIR_STAT_STATE = 5 → s.rd Reg.PAIR_CTL_MODE = 1 → s.on Reg.ERR_STAT_FATAL = false → s.on Reg.PAIR_STAT_WIT_OK = false →
      max s.pair.witAt s.pair.queryAt + 2000000 ≤ s.now →
      exec .witnessUnreachable s = .next (State.goPair { s with pair := { s.pair with holdAt := s.now } } 7)) ∧
    (let w := s.pair.wit
      let n := if w.second then s.rd Reg.PAIR_WIT_WUNIT_B else s.rd Reg.PAIR_WIT_WUNIT_A
      let x := s.witUnit n
      s.isWitness = true → w.slotAt + 250000 ≤ s.now → x.reply = none →
      let z := s.setWit n { x with missed := if x.awaiting then min 2 (x.missed + 1) else x.missed, awaiting := true, reply := none }
      exec .witnessSlot s = .next (State.sendWit { z with pair := { z.pair with wit := { z.pair.wit with
        seq := (w.seq + 1) % 2 ^ 16, slotAt := z.now, second := !w.second } } } 1 n w.highest ((w.seq + 1) % 2 ^ 16))) ∧
    (s.isWitness = true → frame.unit.val ∈ s.witServes → s.witGood (if query then 9 else 8) frame = (false, u) →
      exec (.witnessAnswer query frame) s = .next (u.bump .pair C.PAIR_WIT_BAD)) ∧
    (let n := frame.unit.val
      let x := u.witUnit n
      s.isWitness = true → n ∈ s.witServes → s.witGood 9 frame = (true, u) → x.awaiting = true → frame.seq.toNat = u.pair.wit.seq →
      claimAbove frame.claim.toNat
        ((u.setWit n { x with claim := frame.claim.toNat, missed := 0, awaiting := false }).bump .pair C.PAIR_WIT_FRAMES).pair.wit.highest
          = false →
      let z := (u.setWit n { x with claim := frame.claim.toNat, missed := 0, awaiting := false }).bump .pair C.PAIR_WIT_FRAMES
      2 ≤ (z.witUnit (z.witOther n)).missed →
      exec (.witnessAnswer true frame) s = .next (z.witGrant n)) ∧
    (s.pair.wit.window = some (t, l) → s.isWitness = true → t + 2000000 ≤ s.now →
      exec .witnessWindowExpiry s = .next (s.witDecide l))

/-- R259, R371, R373: the Active answers a resynchronisation request with its configuration and the boundary; the syncing unit keeps what is
consistent, or tries again after 10 s, and at the boundary takes configuration, shadow, epoch and on and off states and enters BELAY; a
Belay follows an on or off change; the time master sends its time every 1 ms, and a receiver counts and measures it. COMPLETES, each
with its own effect as a next state under conditions on state and operands alone: syncReq, resyncImage, resyncRetry, resyncBoundary,
onoffForward, timeMessageSend, timeMessage. -/
def Obligations.ResynchronisationAndTimeComplete : Prop :=
  ∀ (unit : Fin 16) (image : ResyncImage) (t : Instant) (o : Fin 64) (on : Bool) (offset : Int) (s : State),
    (s.rd Reg.PAIR_STAT_STATE = 4 → s.peer = unit.val → s.on Reg.ERR_STAT_FATAL = false →
      exec (.syncReq unit) s = .next (s.toPeer 3 (.resync ⟨s.act, s.shd, s.rd Reg.GLB_EPOCH_EPOCH, s.claim, s.rd Reg.PUB_OUT_ON_ON,
        gridFrom s.act.fs (s.now + 5000000)⟩))) ∧
    (s.rd Reg.PAIR_STAT_STATE = 2 → firstInc (s.inconsistencies image.act (image.act.look [])) = none →
      exec (.resyncImage image) s = .next { s with pair := { s.pair with resync := some image } }) ∧
    (s.rd Reg.PAIR_STAT_STATE = 2 → firstInc (s.inconsistencies image.act (image.act.look [])) ≠ none →
      exec (.resyncImage image) s = .next ((State.wr { s with pair := { s.pair with retryAt := some (s.now + 10 * nsPerS) } }
        Reg.PAIR_STAT_RESYNC_FAIL 1).pairEvent 11)) ∧
    (s.pair.retryAt = some t → s.rd Reg.PAIR_STAT_STATE = 2 → t ≤ s.now →
      exec .resyncRetry s = .next (State.toPeer { s with pair := { s.pair with retryAt := none } } 0 .syncReq)) ∧
    (s.pair.resync = some image → s.rd Reg.PAIR_STAT_STATE = 2 → image.boundary ≤ s.now →
      let z := (State.memberAbort { s with pair := { s.pair with resync := none } }).switchTo image.act image.epoch image.boundary
      let y := State.setClaim { z with shd := image.shd } (image.claim / 16 + 4095)
      exec .resyncBoundary s = .next (((y.wr Reg.PUB_OUT_ON_ON image.outOn).goPair 3).pairEvent 10)) ∧
    (s.belay = true → exec (.onoffForward o on) s = .next (s.turn o on)) ∧
    (s.timeMaster = true → s.pairing = true → s.pair.timeAt + 1000000 ≤ s.now →
      exec .timeMessageSend s = .next (State.toUnits { s with pair := { s.pair with timeAt := s.now } } s.partners 1 (.time s.now))) ∧
    (s.pairing = true → s.timeMaster = false → unit.val ≠ 0 → s.timeMasterUnit = unit.val → s.now ≤ s.tb.refs.hjelLast + 1100000 →
      exec (.timeMessage unit offset) s = .next (State.measured { s with tb := { s.tb with refs := { s.tb.refs with
        hjelMsgs := s.tb.refs.hjelMsgs + 1, hjelLast := s.now } } } refHJEL offset)) ∧
    (s.pairing = true → s.timeMaster = false → unit.val ≠ 0 → s.timeMasterUnit = unit.val → s.tb.refs.hjelLast + 1100000 < s.now →
      exec (.timeMessage unit offset) s = .next (State.measured { s with tb := { s.tb with refs := { s.tb.refs with
        hjelMsgs := 1, hjelLast := s.now } } } refHJEL offset))

/-- R358 to R360, R373, R376, R450: the delay of a link that is up is measured every 125 ms; a flit with a wrong CRC is replayed and logged,
one in sequence goes on to its message; a link that trained is up with its peer, and is down after 8 replays or without block lock; a
member's revision 0 joins its team slice, which goes when its time is over. COMPLETES, each with its own effect as a next state under
conditions on state and operands alone: hjelDelayMeasure, hjelFlit, hjelLinkUp, hjelLinkDown, teamRevision, teamWaitExpiry. -/
def Obligations.HjelAndTeamCommandsComplete : Prop :=
  ∀ (link peer : Nat) (hl : link < 4) (hp : peer < 16) (delay crossed : Nat) (flit : Flit) (noLock : Bool) (unit : Fin 16)
    (rev : Revision) (e : Nat × TeamSlice) (s : State),
    let l : Fin 4 := ⟨link, hl⟩
    let x := s.hjelLink link
    let body := leBytes 1 (flit.vc.val + 16 * flit.typ.val) ++ leBytes 1 flit.seq.toNat ++ flit.payload
    (s.linkUp link = true → x.delayAt + 125000000 ≤ s.now →
      exec (.hjelDelayMeasure l delay) s = .next (s.setLink link { x with delay, delayAt := s.now })) ∧
    (s.linkUp link = true → crc32 body ≠ flit.crc.toNat →
      exec (.hjelFlit l flit crossed) s =
        .next (((s.setLink link { x with replays := x.replays + 1 }).bump .pair C.PAIR_LINK_RETRY).correctable 0xFF link 0x04 0)) ∧
    (s.linkUp link = true → crc32 body = flit.crc.toNat → flit.typ.val = 3 → flit.seq.toNat = x.expect →
      exec (.hjelFlit l flit crossed) s = .next ((s.setLink link { x with
        expect := (x.expect + 1) % 256, replays := 0, parts := kvDel x.parts flit.vc.val }).hjelMessage flit.vc.val crossed flit.payload)) ∧
    (s.on (Reg.PAIR_LINK_EN link) = true → s.linkUp link = false → s.dark = false →
      exec (.hjelLinkUp l ⟨peer, hp⟩) s = .next ((((s.wr (Reg.PAIR_LINK_LSTATE link) 2).wr (Reg.PAIR_LINK_PEER link) peer).setLink link
        HjelLink.init).pairEvent 6)) ∧
    (s.linkUp link = true → noLock = true ∨ 8 ≤ x.replays → exec (.hjelLinkDown l noLock) s = .next (s.linkDown link)) ∧
    (s.teamMaster = true → unit.val ∈ s.partners → s.stch.store.any (fun r => r.team && r.instant == rev.instant) = false → rev.rev = 0 →
      rev.epoch = s.epochAt rev.instant → (s.teamSlice rev.instant).own = none →
      exec (.teamRevision unit rev) s = .next (s.setTeam rev.instant
        { s.teamSlice rev.instant with parts := kvSet (s.teamSlice rev.instant).parts unit.val rev })) ∧
    (s.pair.team = [e] → e.2.own.isSome = true → e.2.ownAt + 1000 * s.rd Reg.PAIR_TEAM_TEAM_WAIT_US ≤ s.now → s.teamMaster = true →
      exec .teamWaitExpiry s = .next (s.assemble e.1))
end

