-- ==== Sys2Proof/Laws/State.lean ====
section
/-!
SUPPORT. One lemma per field of State and per plain update: the field is what it was.  Each is true by unfolding and is tagged for
the simplifier, so that no proof unfolds a record update.
-/
namespace Sys2Proof.Machine
open Sys2Proof

/-! ### wr -/

@[simp] theorem State.wr_pending (s : State) (f : Fld) (v : Nat) : (s.wr f v).pending = s.pending := rfl
@[simp] theorem State.wr_act (s : State) (f : Fld) (v : Nat) : (s.wr f v).act = s.act := rfl
@[simp] theorem State.wr_shd (s : State) (f : Fld) (v : Nat) : (s.wr f v).shd = s.shd := rfl
@[simp] theorem State.wr_ret (s : State) (f : Fld) (v : Nat) : (s.wr f v).ret = s.ret := rfl
@[simp] theorem State.wr_glb (s : State) (f : Fld) (v : Nat) : (s.wr f v).glb = s.glb := rfl
@[simp] theorem State.wr_tb (s : State) (f : Fld) (v : Nat) : (s.wr f v).tb = s.tb := rfl
@[simp] theorem State.wr_port (s : State) (f : Fld) (v : Nat) : (s.wr f v).port = s.port := rfl
@[simp] theorem State.wr_pair (s : State) (f : Fld) (v : Nat) : (s.wr f v).pair = s.pair := rfl
@[simp] theorem State.wr_safety (s : State) (f : Fld) (v : Nat) : (s.wr f v).safety = s.safety := rfl
@[simp] theorem State.wr_key (s : State) (f : Fld) (v : Nat) : (s.wr f v).key = s.key := rfl
@[simp] theorem State.wr_pwr (s : State) (f : Fld) (v : Nat) : (s.wr f v).pwr = s.pwr := rfl
@[simp] theorem State.wr_upd (s : State) (f : Fld) (v : Nat) : (s.wr f v).upd = s.upd := rfl
@[simp] theorem State.wr_err (s : State) (f : Fld) (v : Nat) : (s.wr f v).err = s.err := rfl
@[simp] theorem State.wr_sched (s : State) (f : Fld) (v : Nat) : (s.wr f v).sched = s.sched := rfl
@[simp] theorem State.wr_fsl (s : State) (f : Fld) (v : Nat) : (s.wr f v).fsl = s.fsl := rfl
@[simp] theorem State.wr_ing (s : State) (f : Fld) (v : Nat) : (s.wr f v).ing = s.ing := rfl
@[simp] theorem State.wr_slots (s : State) (f : Fld) (v : Nat) : (s.wr f v).slots = s.slots := rfl
@[simp] theorem State.wr_bound (s : State) (f : Fld) (v : Nat) : (s.wr f v).bound = s.bound := rfl
@[simp] theorem State.wr_phe (s : State) (f : Fld) (v : Nat) : (s.wr f v).phe = s.phe := rfl
@[simp] theorem State.wr_rawSv (s : State) (f : Fld) (v : Nat) : (s.wr f v).rawSv = s.rawSv := rfl
@[simp] theorem State.wr_stch (s : State) (f : Fld) (v : Nat) : (s.wr f v).stch = s.stch := rfl
@[simp] theorem State.wr_pins (s : State) (f : Fld) (v : Nat) : (s.wr f v).pins = s.pins := rfl
@[simp] theorem State.wr_lse (s : State) (f : Fld) (v : Nat) : (s.wr f v).lse = s.lse := rfl
@[simp] theorem State.wr_osc (s : State) (f : Fld) (v : Nat) : (s.wr f v).osc = s.osc := rfl
@[simp] theorem State.wr_isl (s : State) (f : Fld) (v : Nat) : (s.wr f v).isl = s.isl := rfl
@[simp] theorem State.wr_cap (s : State) (f : Fld) (v : Nat) : (s.wr f v).cap = s.cap := rfl
@[simp] theorem State.wr_pub (s : State) (f : Fld) (v : Nat) : (s.wr f v).pub = s.pub := rfl
@[simp] theorem State.wr_hif (s : State) (f : Fld) (v : Nat) : (s.wr f v).hif = s.hif := rfl
@[simp] theorem State.wr_xlt (s : State) (f : Fld) (v : Nat) : (s.wr f v).xlt = s.xlt := rfl
@[simp] theorem State.wr_freeCtr (s : State) (f : Fld) (v : Nat) : (s.wr f v).freeCtr = s.freeCtr := rfl
@[simp] theorem State.wr_out (s : State) (f : Fld) (v : Nat) : (s.wr f v).out = s.out := rfl

/-! ### wrB -/

@[simp] theorem State.wrB_pending (s : State) (f : Fld) (b : Bool) : (s.wrB f b).pending = s.pending := rfl
@[simp] theorem State.wrB_act (s : State) (f : Fld) (b : Bool) : (s.wrB f b).act = s.act := rfl
@[simp] theorem State.wrB_shd (s : State) (f : Fld) (b : Bool) : (s.wrB f b).shd = s.shd := rfl
@[simp] theorem State.wrB_ret (s : State) (f : Fld) (b : Bool) : (s.wrB f b).ret = s.ret := rfl
@[simp] theorem State.wrB_glb (s : State) (f : Fld) (b : Bool) : (s.wrB f b).glb = s.glb := rfl
@[simp] theorem State.wrB_tb (s : State) (f : Fld) (b : Bool) : (s.wrB f b).tb = s.tb := rfl
@[simp] theorem State.wrB_port (s : State) (f : Fld) (b : Bool) : (s.wrB f b).port = s.port := rfl
@[simp] theorem State.wrB_pair (s : State) (f : Fld) (b : Bool) : (s.wrB f b).pair = s.pair := rfl
@[simp] theorem State.wrB_safety (s : State) (f : Fld) (b : Bool) : (s.wrB f b).safety = s.safety := rfl
@[simp] theorem State.wrB_key (s : State) (f : Fld) (b : Bool) : (s.wrB f b).key = s.key := rfl
@[simp] theorem State.wrB_pwr (s : State) (f : Fld) (b : Bool) : (s.wrB f b).pwr = s.pwr := rfl
@[simp] theorem State.wrB_upd (s : State) (f : Fld) (b : Bool) : (s.wrB f b).upd = s.upd := rfl
@[simp] theorem State.wrB_err (s : State) (f : Fld) (b : Bool) : (s.wrB f b).err = s.err := rfl
@[simp] theorem State.wrB_sched (s : State) (f : Fld) (b : Bool) : (s.wrB f b).sched = s.sched := rfl
@[simp] theorem State.wrB_fsl (s : State) (f : Fld) (b : Bool) : (s.wrB f b).fsl = s.fsl := rfl
@[simp] theorem State.wrB_ing (s : State) (f : Fld) (b : Bool) : (s.wrB f b).ing = s.ing := rfl
@[simp] theorem State.wrB_slots (s : State) (f : Fld) (b : Bool) : (s.wrB f b).slots = s.slots := rfl
@[simp] theorem State.wrB_bound (s : State) (f : Fld) (b : Bool) : (s.wrB f b).bound = s.bound := rfl
@[simp] theorem State.wrB_phe (s : State) (f : Fld) (b : Bool) : (s.wrB f b).phe = s.phe := rfl
@[simp] theorem State.wrB_rawSv (s : State) (f : Fld) (b : Bool) : (s.wrB f b).rawSv = s.rawSv := rfl
@[simp] theorem State.wrB_stch (s : State) (f : Fld) (b : Bool) : (s.wrB f b).stch = s.stch := rfl
@[simp] theorem State.wrB_pins (s : State) (f : Fld) (b : Bool) : (s.wrB f b).pins = s.pins := rfl
@[simp] theorem State.wrB_lse (s : State) (f : Fld) (b : Bool) : (s.wrB f b).lse = s.lse := rfl
@[simp] theorem State.wrB_osc (s : State) (f : Fld) (b : Bool) : (s.wrB f b).osc = s.osc := rfl
@[simp] theorem State.wrB_isl (s : State) (f : Fld) (b : Bool) : (s.wrB f b).isl = s.isl := rfl
@[simp] theorem State.wrB_cap (s : State) (f : Fld) (b : Bool) : (s.wrB f b).cap = s.cap := rfl
@[simp] theorem State.wrB_pub (s : State) (f : Fld) (b : Bool) : (s.wrB f b).pub = s.pub := rfl
@[simp] theorem State.wrB_hif (s : State) (f : Fld) (b : Bool) : (s.wrB f b).hif = s.hif := rfl
@[simp] theorem State.wrB_xlt (s : State) (f : Fld) (b : Bool) : (s.wrB f b).xlt = s.xlt := rfl
@[simp] theorem State.wrB_freeCtr (s : State) (f : Fld) (b : Bool) : (s.wrB f b).freeCtr = s.freeCtr := rfl
@[simp] theorem State.wrB_out (s : State) (f : Fld) (b : Bool) : (s.wrB f b).out = s.out := rfl

/-! ### orBit -/

@[simp] theorem State.orBit_pending (s : State) (f : Fld) (k : Nat) : (s.orBit f k).pending = s.pending := rfl
@[simp] theorem State.orBit_act (s : State) (f : Fld) (k : Nat) : (s.orBit f k).act = s.act := rfl
@[simp] theorem State.orBit_shd (s : State) (f : Fld) (k : Nat) : (s.orBit f k).shd = s.shd := rfl
@[simp] theorem State.orBit_ret (s : State) (f : Fld) (k : Nat) : (s.orBit f k).ret = s.ret := rfl
@[simp] theorem State.orBit_glb (s : State) (f : Fld) (k : Nat) : (s.orBit f k).glb = s.glb := rfl
@[simp] theorem State.orBit_tb (s : State) (f : Fld) (k : Nat) : (s.orBit f k).tb = s.tb := rfl
@[simp] theorem State.orBit_port (s : State) (f : Fld) (k : Nat) : (s.orBit f k).port = s.port := rfl
@[simp] theorem State.orBit_pair (s : State) (f : Fld) (k : Nat) : (s.orBit f k).pair = s.pair := rfl
@[simp] theorem State.orBit_safety (s : State) (f : Fld) (k : Nat) : (s.orBit f k).safety = s.safety := rfl
@[simp] theorem State.orBit_key (s : State) (f : Fld) (k : Nat) : (s.orBit f k).key = s.key := rfl
@[simp] theorem State.orBit_pwr (s : State) (f : Fld) (k : Nat) : (s.orBit f k).pwr = s.pwr := rfl
@[simp] theorem State.orBit_upd (s : State) (f : Fld) (k : Nat) : (s.orBit f k).upd = s.upd := rfl
@[simp] theorem State.orBit_err (s : State) (f : Fld) (k : Nat) : (s.orBit f k).err = s.err := rfl
@[simp] theorem State.orBit_sched (s : State) (f : Fld) (k : Nat) : (s.orBit f k).sched = s.sched := rfl
@[simp] theorem State.orBit_fsl (s : State) (f : Fld) (k : Nat) : (s.orBit f k).fsl = s.fsl := rfl
@[simp] theorem State.orBit_ing (s : State) (f : Fld) (k : Nat) : (s.orBit f k).ing = s.ing := rfl
@[simp] theorem State.orBit_slots (s : State) (f : Fld) (k : Nat) : (s.orBit f k).slots = s.slots := rfl
@[simp] theorem State.orBit_bound (s : State) (f : Fld) (k : Nat) : (s.orBit f k).bound = s.bound := rfl
@[simp] theorem State.orBit_phe (s : State) (f : Fld) (k : Nat) : (s.orBit f k).phe = s.phe := rfl
@[simp] theorem State.orBit_rawSv (s : State) (f : Fld) (k : Nat) : (s.orBit f k).rawSv = s.rawSv := rfl
@[simp] theorem State.orBit_stch (s : State) (f : Fld) (k : Nat) : (s.orBit f k).stch = s.stch := rfl
@[simp] theorem State.orBit_pins (s : State) (f : Fld) (k : Nat) : (s.orBit f k).pins = s.pins := rfl
@[simp] theorem State.orBit_lse (s : State) (f : Fld) (k : Nat) : (s.orBit f k).lse = s.lse := rfl
@[simp] theorem State.orBit_osc (s : State) (f : Fld) (k : Nat) : (s.orBit f k).osc = s.osc := rfl
@[simp] theorem State.orBit_isl (s : State) (f : Fld) (k : Nat) : (s.orBit f k).isl = s.isl := rfl
@[simp] theorem State.orBit_cap (s : State) (f : Fld) (k : Nat) : (s.orBit f k).cap = s.cap := rfl
@[simp] theorem State.orBit_pub (s : State) (f : Fld) (k : Nat) : (s.orBit f k).pub = s.pub := rfl
@[simp] theorem State.orBit_hif (s : State) (f : Fld) (k : Nat) : (s.orBit f k).hif = s.hif := rfl
@[simp] theorem State.orBit_xlt (s : State) (f : Fld) (k : Nat) : (s.orBit f k).xlt = s.xlt := rfl
@[simp] theorem State.orBit_freeCtr (s : State) (f : Fld) (k : Nat) : (s.orBit f k).freeCtr = s.freeCtr := rfl
@[simp] theorem State.orBit_out (s : State) (f : Fld) (k : Nat) : (s.orBit f k).out = s.out := rfl

/-! ### wrInstant -/

@[simp] theorem State.wrInstant_pending (s : State) (f g : Fld) (t : Instant) : (s.wrInstant f g t).pending = s.pending := rfl
@[simp] theorem State.wrInstant_act (s : State) (f g : Fld) (t : Instant) : (s.wrInstant f g t).act = s.act := rfl
@[simp] theorem State.wrInstant_shd (s : State) (f g : Fld) (t : Instant) : (s.wrInstant f g t).shd = s.shd := rfl
@[simp] theorem State.wrInstant_ret (s : State) (f g : Fld) (t : Instant) : (s.wrInstant f g t).ret = s.ret := rfl
@[simp] theorem State.wrInstant_glb (s : State) (f g : Fld) (t : Instant) : (s.wrInstant f g t).glb = s.glb := rfl
@[simp] theorem State.wrInstant_tb (s : State) (f g : Fld) (t : Instant) : (s.wrInstant f g t).tb = s.tb := rfl
@[simp] theorem State.wrInstant_port (s : State) (f g : Fld) (t : Instant) : (s.wrInstant f g t).port = s.port := rfl
@[simp] theorem State.wrInstant_pair (s : State) (f g : Fld) (t : Instant) : (s.wrInstant f g t).pair = s.pair := rfl
@[simp] theorem State.wrInstant_safety (s : State) (f g : Fld) (t : Instant) : (s.wrInstant f g t).safety = s.safety := rfl
@[simp] theorem State.wrInstant_key (s : State) (f g : Fld) (t : Instant) : (s.wrInstant f g t).key = s.key := rfl
@[simp] theorem State.wrInstant_pwr (s : State) (f g : Fld) (t : Instant) : (s.wrInstant f g t).pwr = s.pwr := rfl
@[simp] theorem State.wrInstant_upd (s : State) (f g : Fld) (t : Instant) : (s.wrInstant f g t).upd = s.upd := rfl
@[simp] theorem State.wrInstant_err (s : State) (f g : Fld) (t : Instant) : (s.wrInstant f g t).err = s.err := rfl
@[simp] theorem State.wrInstant_sched (s : State) (f g : Fld) (t : Instant) : (s.wrInstant f g t).sched = s.sched := rfl
@[simp] theorem State.wrInstant_fsl (s : State) (f g : Fld) (t : Instant) : (s.wrInstant f g t).fsl = s.fsl := rfl
@[simp] theorem State.wrInstant_ing (s : State) (f g : Fld) (t : Instant) : (s.wrInstant f g t).ing = s.ing := rfl
@[simp] theorem State.wrInstant_slots (s : State) (f g : Fld) (t : Instant) : (s.wrInstant f g t).slots = s.slots := rfl
@[simp] theorem State.wrInstant_bound (s : State) (f g : Fld) (t : Instant) : (s.wrInstant f g t).bound = s.bound := rfl
@[simp] theorem State.wrInstant_phe (s : State) (f g : Fld) (t : Instant) : (s.wrInstant f g t).phe = s.phe := rfl
@[simp] theorem State.wrInstant_rawSv (s : State) (f g : Fld) (t : Instant) : (s.wrInstant f g t).rawSv = s.rawSv := rfl
@[simp] theorem State.wrInstant_stch (s : State) (f g : Fld) (t : Instant) : (s.wrInstant f g t).stch = s.stch := rfl
@[simp] theorem State.wrInstant_pins (s : State) (f g : Fld) (t : Instant) : (s.wrInstant f g t).pins = s.pins := rfl
@[simp] theorem State.wrInstant_lse (s : State) (f g : Fld) (t : Instant) : (s.wrInstant f g t).lse = s.lse := rfl
@[simp] theorem State.wrInstant_osc (s : State) (f g : Fld) (t : Instant) : (s.wrInstant f g t).osc = s.osc := rfl
@[simp] theorem State.wrInstant_isl (s : State) (f g : Fld) (t : Instant) : (s.wrInstant f g t).isl = s.isl := rfl
@[simp] theorem State.wrInstant_cap (s : State) (f g : Fld) (t : Instant) : (s.wrInstant f g t).cap = s.cap := rfl
@[simp] theorem State.wrInstant_pub (s : State) (f g : Fld) (t : Instant) : (s.wrInstant f g t).pub = s.pub := rfl
@[simp] theorem State.wrInstant_hif (s : State) (f g : Fld) (t : Instant) : (s.wrInstant f g t).hif = s.hif := rfl
@[simp] theorem State.wrInstant_xlt (s : State) (f g : Fld) (t : Instant) : (s.wrInstant f g t).xlt = s.xlt := rfl
@[simp] theorem State.wrInstant_freeCtr (s : State) (f g : Fld) (t : Instant) : (s.wrInstant f g t).freeCtr = s.freeCtr := rfl
@[simp] theorem State.wrInstant_out (s : State) (f g : Fld) (t : Instant) : (s.wrInstant f g t).out = s.out := rfl

/-! ### free -/

@[simp] theorem State.free_pending (s : State) : (s.free.2).pending = s.pending := rfl
@[simp] theorem State.free_dev (s : State) : (s.free.2).dev = s.dev := rfl
@[simp] theorem State.free_act (s : State) : (s.free.2).act = s.act := rfl
@[simp] theorem State.free_shd (s : State) : (s.free.2).shd = s.shd := rfl
@[simp] theorem State.free_ret (s : State) : (s.free.2).ret = s.ret := rfl
@[simp] theorem State.free_glb (s : State) : (s.free.2).glb = s.glb := rfl
@[simp] theorem State.free_tb (s : State) : (s.free.2).tb = s.tb := rfl
@[simp] theorem State.free_port (s : State) : (s.free.2).port = s.port := rfl
@[simp] theorem State.free_pair (s : State) : (s.free.2).pair = s.pair := rfl
@[simp] theorem State.free_safety (s : State) : (s.free.2).safety = s.safety := rfl
@[simp] theorem State.free_key (s : State) : (s.free.2).key = s.key := rfl
@[simp] theorem State.free_pwr (s : State) : (s.free.2).pwr = s.pwr := rfl
@[simp] theorem State.free_upd (s : State) : (s.free.2).upd = s.upd := rfl
@[simp] theorem State.free_err (s : State) : (s.free.2).err = s.err := rfl
@[simp] theorem State.free_sched (s : State) : (s.free.2).sched = s.sched := rfl
@[simp] theorem State.free_fsl (s : State) : (s.free.2).fsl = s.fsl := rfl
@[simp] theorem State.free_ing (s : State) : (s.free.2).ing = s.ing := rfl
@[simp] theorem State.free_slots (s : State) : (s.free.2).slots = s.slots := rfl
@[simp] theorem State.free_bound (s : State) : (s.free.2).bound = s.bound := rfl
@[simp] theorem State.free_phe (s : State) : (s.free.2).phe = s.phe := rfl
@[simp] theorem State.free_rawSv (s : State) : (s.free.2).rawSv = s.rawSv := rfl
@[simp] theorem State.free_stch (s : State) : (s.free.2).stch = s.stch := rfl
@[simp] theorem State.free_pins (s : State) : (s.free.2).pins = s.pins := rfl
@[simp] theorem State.free_lse (s : State) : (s.free.2).lse = s.lse := rfl
@[simp] theorem State.free_osc (s : State) : (s.free.2).osc = s.osc := rfl
@[simp] theorem State.free_isl (s : State) : (s.free.2).isl = s.isl := rfl
@[simp] theorem State.free_cap (s : State) : (s.free.2).cap = s.cap := rfl
@[simp] theorem State.free_pub (s : State) : (s.free.2).pub = s.pub := rfl
@[simp] theorem State.free_hif (s : State) : (s.free.2).hif = s.hif := rfl
@[simp] theorem State.free_xlt (s : State) : (s.free.2).xlt = s.xlt := rfl
@[simp] theorem State.free_out (s : State) : (s.free.2).out = s.out := rfl

/-! ### emit -/

@[simp] theorem State.emit_pending (s : State) (o : Out) : (s.emit o).pending = s.pending := rfl
@[simp] theorem State.emit_dev (s : State) (o : Out) : (s.emit o).dev = s.dev := rfl
@[simp] theorem State.emit_act (s : State) (o : Out) : (s.emit o).act = s.act := rfl
@[simp] theorem State.emit_shd (s : State) (o : Out) : (s.emit o).shd = s.shd := rfl
@[simp] theorem State.emit_ret (s : State) (o : Out) : (s.emit o).ret = s.ret := rfl
@[simp] theorem State.emit_glb (s : State) (o : Out) : (s.emit o).glb = s.glb := rfl
@[simp] theorem State.emit_tb (s : State) (o : Out) : (s.emit o).tb = s.tb := rfl
@[simp] theorem State.emit_port (s : State) (o : Out) : (s.emit o).port = s.port := rfl
@[simp] theorem State.emit_pair (s : State) (o : Out) : (s.emit o).pair = s.pair := rfl
@[simp] theorem State.emit_safety (s : State) (o : Out) : (s.emit o).safety = s.safety := rfl
@[simp] theorem State.emit_key (s : State) (o : Out) : (s.emit o).key = s.key := rfl
@[simp] theorem State.emit_pwr (s : State) (o : Out) : (s.emit o).pwr = s.pwr := rfl
@[simp] theorem State.emit_upd (s : State) (o : Out) : (s.emit o).upd = s.upd := rfl
@[simp] theorem State.emit_err (s : State) (o : Out) : (s.emit o).err = s.err := rfl
@[simp] theorem State.emit_sched (s : State) (o : Out) : (s.emit o).sched = s.sched := rfl
@[simp] theorem State.emit_fsl (s : State) (o : Out) : (s.emit o).fsl = s.fsl := rfl
@[simp] theorem State.emit_ing (s : State) (o : Out) : (s.emit o).ing = s.ing := rfl
@[simp] theorem State.emit_slots (s : State) (o : Out) : (s.emit o).slots = s.slots := rfl
@[simp] theorem State.emit_bound (s : State) (o : Out) : (s.emit o).bound = s.bound := rfl
@[simp] theorem State.emit_phe (s : State) (o : Out) : (s.emit o).phe = s.phe := rfl
@[simp] theorem State.emit_rawSv (s : State) (o : Out) : (s.emit o).rawSv = s.rawSv := rfl
@[simp] theorem State.emit_stch (s : State) (o : Out) : (s.emit o).stch = s.stch := rfl
@[simp] theorem State.emit_pins (s : State) (o : Out) : (s.emit o).pins = s.pins := rfl
@[simp] theorem State.emit_lse (s : State) (o : Out) : (s.emit o).lse = s.lse := rfl
@[simp] theorem State.emit_osc (s : State) (o : Out) : (s.emit o).osc = s.osc := rfl
@[simp] theorem State.emit_isl (s : State) (o : Out) : (s.emit o).isl = s.isl := rfl
@[simp] theorem State.emit_cap (s : State) (o : Out) : (s.emit o).cap = s.cap := rfl
@[simp] theorem State.emit_pub (s : State) (o : Out) : (s.emit o).pub = s.pub := rfl
@[simp] theorem State.emit_hif (s : State) (o : Out) : (s.emit o).hif = s.hif := rfl
@[simp] theorem State.emit_xlt (s : State) (o : Out) : (s.emit o).xlt = s.xlt := rfl
@[simp] theorem State.emit_freeCtr (s : State) (o : Out) : (s.emit o).freeCtr = s.freeCtr := rfl

/-! ### setRing -/

@[simp] theorem State.setRing_pending (s : State) (r : Nat) (g : Ring) : (s.setRing r g).pending = s.pending := rfl
@[simp] theorem State.setRing_dev (s : State) (r : Nat) (g : Ring) : (s.setRing r g).dev = s.dev := rfl
@[simp] theorem State.setRing_act (s : State) (r : Nat) (g : Ring) : (s.setRing r g).act = s.act := rfl
@[simp] theorem State.setRing_shd (s : State) (r : Nat) (g : Ring) : (s.setRing r g).shd = s.shd := rfl
@[simp] theorem State.setRing_ret (s : State) (r : Nat) (g : Ring) : (s.setRing r g).ret = s.ret := rfl
@[simp] theorem State.setRing_glb (s : State) (r : Nat) (g : Ring) : (s.setRing r g).glb = s.glb := rfl
@[simp] theorem State.setRing_tb (s : State) (r : Nat) (g : Ring) : (s.setRing r g).tb = s.tb := rfl
@[simp] theorem State.setRing_port (s : State) (r : Nat) (g : Ring) : (s.setRing r g).port = s.port := rfl
@[simp] theorem State.setRing_pair (s : State) (r : Nat) (g : Ring) : (s.setRing r g).pair = s.pair := rfl
@[simp] theorem State.setRing_safety (s : State) (r : Nat) (g : Ring) : (s.setRing r g).safety = s.safety := rfl
@[simp] theorem State.setRing_key (s : State) (r : Nat) (g : Ring) : (s.setRing r g).key = s.key := rfl
@[simp] theorem State.setRing_pwr (s : State) (r : Nat) (g : Ring) : (s.setRing r g).pwr = s.pwr := rfl
@[simp] theorem State.setRing_upd (s : State) (r : Nat) (g : Ring) : (s.setRing r g).upd = s.upd := rfl
@[simp] theorem State.setRing_err (s : State) (r : Nat) (g : Ring) : (s.setRing r g).err = s.err := rfl
@[simp] theorem State.setRing_sched (s : State) (r : Nat) (g : Ring) : (s.setRing r g).sched = s.sched := rfl
@[simp] theorem State.setRing_fsl (s : State) (r : Nat) (g : Ring) : (s.setRing r g).fsl = s.fsl := rfl
@[simp] theorem State.setRing_ing (s : State) (r : Nat) (g : Ring) : (s.setRing r g).ing = s.ing := rfl
@[simp] theorem State.setRing_slots (s : State) (r : Nat) (g : Ring) : (s.setRing r g).slots = s.slots := rfl
@[simp] theorem State.setRing_bound (s : State) (r : Nat) (g : Ring) : (s.setRing r g).bound = s.bound := rfl
@[simp] theorem State.setRing_phe (s : State) (r : Nat) (g : Ring) : (s.setRing r g).phe = s.phe := rfl
@[simp] theorem State.setRing_rawSv (s : State) (r : Nat) (g : Ring) : (s.setRing r g).rawSv = s.rawSv := rfl
@[simp] theorem State.setRing_stch (s : State) (r : Nat) (g : Ring) : (s.setRing r g).stch = s.stch := rfl
@[simp] theorem State.setRing_pins (s : State) (r : Nat) (g : Ring) : (s.setRing r g).pins = s.pins := rfl
@[simp] theorem State.setRing_lse (s : State) (r : Nat) (g : Ring) : (s.setRing r g).lse = s.lse := rfl
@[simp] theorem State.setRing_osc (s : State) (r : Nat) (g : Ring) : (s.setRing r g).osc = s.osc := rfl
@[simp] theorem State.setRing_isl (s : State) (r : Nat) (g : Ring) : (s.setRing r g).isl = s.isl := rfl
@[simp] theorem State.setRing_cap (s : State) (r : Nat) (g : Ring) : (s.setRing r g).cap = s.cap := rfl
@[simp] theorem State.setRing_pub (s : State) (r : Nat) (g : Ring) : (s.setRing r g).pub = s.pub := rfl
@[simp] theorem State.setRing_xlt (s : State) (r : Nat) (g : Ring) : (s.setRing r g).xlt = s.xlt := rfl
@[simp] theorem State.setRing_freeCtr (s : State) (r : Nat) (g : Ring) : (s.setRing r g).freeCtr = s.freeCtr := rfl
@[simp] theorem State.setRing_out (s : State) (r : Nat) (g : Ring) : (s.setRing r g).out = s.out := rfl

/-! ### backlog -/

@[simp] theorem State.backlog_pending (s : State) (r : Nat) : (s.backlog r).pending = s.pending := rfl
@[simp] theorem State.backlog_act (s : State) (r : Nat) : (s.backlog r).act = s.act := rfl
@[simp] theorem State.backlog_shd (s : State) (r : Nat) : (s.backlog r).shd = s.shd := rfl
@[simp] theorem State.backlog_ret (s : State) (r : Nat) : (s.backlog r).ret = s.ret := rfl
@[simp] theorem State.backlog_glb (s : State) (r : Nat) : (s.backlog r).glb = s.glb := rfl
@[simp] theorem State.backlog_tb (s : State) (r : Nat) : (s.backlog r).tb = s.tb := rfl
@[simp] theorem State.backlog_port (s : State) (r : Nat) : (s.backlog r).port = s.port := rfl
@[simp] theorem State.backlog_pair (s : State) (r : Nat) : (s.backlog r).pair = s.pair := rfl
@[simp] theorem State.backlog_safety (s : State) (r : Nat) : (s.backlog r).safety = s.safety := rfl
@[simp] theorem State.backlog_key (s : State) (r : Nat) : (s.backlog r).key = s.key := rfl
@[simp] theorem State.backlog_pwr (s : State) (r : Nat) : (s.backlog r).pwr = s.pwr := rfl
@[simp] theorem State.backlog_upd (s : State) (r : Nat) : (s.backlog r).upd = s.upd := rfl
@[simp] theorem State.backlog_err (s : State) (r : Nat) : (s.backlog r).err = s.err := rfl
@[simp] theorem State.backlog_sched (s : State) (r : Nat) : (s.backlog r).sched = s.sched := rfl
@[simp] theorem State.backlog_fsl (s : State) (r : Nat) : (s.backlog r).fsl = s.fsl := rfl
@[simp] theorem State.backlog_ing (s : State) (r : Nat) : (s.backlog r).ing = s.ing := rfl
@[simp] theorem State.backlog_slots (s : State) (r : Nat) : (s.backlog r).slots = s.slots := rfl
@[simp] theorem State.backlog_bound (s : State) (r : Nat) : (s.backlog r).bound = s.bound := rfl
@[simp] theorem State.backlog_phe (s : State) (r : Nat) : (s.backlog r).phe = s.phe := rfl
@[simp] theorem State.backlog_rawSv (s : State) (r : Nat) : (s.backlog r).rawSv = s.rawSv := rfl
@[simp] theorem State.backlog_stch (s : State) (r : Nat) : (s.backlog r).stch = s.stch := rfl
@[simp] theorem State.backlog_pins (s : State) (r : Nat) : (s.backlog r).pins = s.pins := rfl
@[simp] theorem State.backlog_lse (s : State) (r : Nat) : (s.backlog r).lse = s.lse := rfl
@[simp] theorem State.backlog_osc (s : State) (r : Nat) : (s.backlog r).osc = s.osc := rfl
@[simp] theorem State.backlog_isl (s : State) (r : Nat) : (s.backlog r).isl = s.isl := rfl
@[simp] theorem State.backlog_cap (s : State) (r : Nat) : (s.backlog r).cap = s.cap := rfl
@[simp] theorem State.backlog_pub (s : State) (r : Nat) : (s.backlog r).pub = s.pub := rfl
@[simp] theorem State.backlog_hif (s : State) (r : Nat) : (s.backlog r).hif = s.hif := rfl
@[simp] theorem State.backlog_xlt (s : State) (r : Nat) : (s.backlog r).xlt = s.xlt := rfl
@[simp] theorem State.backlog_freeCtr (s : State) (r : Nat) : (s.backlog r).freeCtr = s.freeCtr := rfl
@[simp] theorem State.backlog_out (s : State) (r : Nat) : (s.backlog r).out = s.out := rfl

/-! ### mgmtStart -/

@[simp] theorem State.mgmtStart_pending (s : State) (op : Opcode) (tag : Nat) : (s.mgmtStart op tag).pending = s.pending := rfl
@[simp] theorem State.mgmtStart_dev (s : State) (op : Opcode) (tag : Nat) : (s.mgmtStart op tag).dev = s.dev := rfl
@[simp] theorem State.mgmtStart_act (s : State) (op : Opcode) (tag : Nat) : (s.mgmtStart op tag).act = s.act := rfl
@[simp] theorem State.mgmtStart_shd (s : State) (op : Opcode) (tag : Nat) : (s.mgmtStart op tag).shd = s.shd := rfl
@[simp] theorem State.mgmtStart_ret (s : State) (op : Opcode) (tag : Nat) : (s.mgmtStart op tag).ret = s.ret := rfl
@[simp] theorem State.mgmtStart_glb (s : State) (op : Opcode) (tag : Nat) : (s.mgmtStart op tag).glb = s.glb := rfl
@[simp] theorem State.mgmtStart_tb (s : State) (op : Opcode) (tag : Nat) : (s.mgmtStart op tag).tb = s.tb := rfl
@[simp] theorem State.mgmtStart_port (s : State) (op : Opcode) (tag : Nat) : (s.mgmtStart op tag).port = s.port := rfl
@[simp] theorem State.mgmtStart_pair (s : State) (op : Opcode) (tag : Nat) : (s.mgmtStart op tag).pair = s.pair := rfl
@[simp] theorem State.mgmtStart_safety (s : State) (op : Opcode) (tag : Nat) : (s.mgmtStart op tag).safety = s.safety := rfl
@[simp] theorem State.mgmtStart_key (s : State) (op : Opcode) (tag : Nat) : (s.mgmtStart op tag).key = s.key := rfl
@[simp] theorem State.mgmtStart_pwr (s : State) (op : Opcode) (tag : Nat) : (s.mgmtStart op tag).pwr = s.pwr := rfl
@[simp] theorem State.mgmtStart_upd (s : State) (op : Opcode) (tag : Nat) : (s.mgmtStart op tag).upd = s.upd := rfl
@[simp] theorem State.mgmtStart_err (s : State) (op : Opcode) (tag : Nat) : (s.mgmtStart op tag).err = s.err := rfl
@[simp] theorem State.mgmtStart_sched (s : State) (op : Opcode) (tag : Nat) : (s.mgmtStart op tag).sched = s.sched := rfl
@[simp] theorem State.mgmtStart_fsl (s : State) (op : Opcode) (tag : Nat) : (s.mgmtStart op tag).fsl = s.fsl := rfl
@[simp] theorem State.mgmtStart_ing (s : State) (op : Opcode) (tag : Nat) : (s.mgmtStart op tag).ing = s.ing := rfl
@[simp] theorem State.mgmtStart_slots (s : State) (op : Opcode) (tag : Nat) : (s.mgmtStart op tag).slots = s.slots := rfl
@[simp] theorem State.mgmtStart_bound (s : State) (op : Opcode) (tag : Nat) : (s.mgmtStart op tag).bound = s.bound := rfl
@[simp] theorem State.mgmtStart_phe (s : State) (op : Opcode) (tag : Nat) : (s.mgmtStart op tag).phe = s.phe := rfl
@[simp] theorem State.mgmtStart_rawSv (s : State) (op : Opcode) (tag : Nat) : (s.mgmtStart op tag).rawSv = s.rawSv := rfl
@[simp] theorem State.mgmtStart_stch (s : State) (op : Opcode) (tag : Nat) : (s.mgmtStart op tag).stch = s.stch := rfl
@[simp] theorem State.mgmtStart_pins (s : State) (op : Opcode) (tag : Nat) : (s.mgmtStart op tag).pins = s.pins := rfl
@[simp] theorem State.mgmtStart_lse (s : State) (op : Opcode) (tag : Nat) : (s.mgmtStart op tag).lse = s.lse := rfl
@[simp] theorem State.mgmtStart_osc (s : State) (op : Opcode) (tag : Nat) : (s.mgmtStart op tag).osc = s.osc := rfl
@[simp] theorem State.mgmtStart_isl (s : State) (op : Opcode) (tag : Nat) : (s.mgmtStart op tag).isl = s.isl := rfl
@[simp] theorem State.mgmtStart_cap (s : State) (op : Opcode) (tag : Nat) : (s.mgmtStart op tag).cap = s.cap := rfl
@[simp] theorem State.mgmtStart_pub (s : State) (op : Opcode) (tag : Nat) : (s.mgmtStart op tag).pub = s.pub := rfl
@[simp] theorem State.mgmtStart_xlt (s : State) (op : Opcode) (tag : Nat) : (s.mgmtStart op tag).xlt = s.xlt := rfl
@[simp] theorem State.mgmtStart_freeCtr (s : State) (op : Opcode) (tag : Nat) : (s.mgmtStart op tag).freeCtr = s.freeCtr := rfl
@[simp] theorem State.mgmtStart_out (s : State) (op : Opcode) (tag : Nat) : (s.mgmtStart op tag).out = s.out := rfl

/-! ### The two copies of the configuration -/

@[simp] theorem Cfg.setFld_tabs (c : Cfg) (f : Fld) (v : Nat) : (c.setFld f v).tabs = c.tabs := rfl
@[simp] theorem Cfg.setTab_regs (c : Cfg) (code i : Nat) (r : Rec) : (c.setTab code i r).regs = c.regs := rfl
@[simp] theorem Cfg.setFld_tab (c : Cfg) (f : Fld) (v code i : Nat) : (c.setFld f v).tab code i = c.tab code i := rfl
@[simp] theorem Cfg.setTab_fld (c : Cfg) (code i : Nat) (r : Rec) (f : Fld) : (c.setTab code i r).fld f = c.fld f := rfl

/-! ### What a plain update writes -/

theorem State.wr_dev (s : State) (f : Fld) (v : Nat) : (s.wr f v).dev = kvPut s.dev f.key (v % 2 ^ f.width) f.rst := rfl
theorem State.emit_out (s : State) (o : Out) : (s.emit o).out = o :: s.out := rfl
theorem State.free_freeCtr (s : State) : s.free.2.freeCtr = s.freeCtr + 1 := rfl
theorem State.free_value (s : State) : s.free.1 = Config.freeNat s.freeCtr := rfl
@[simp] theorem State.cf_wr (s : State) (f g : Fld) (v : Nat) : (s.wr f v).cf g = s.cf g := rfl
@[simp] theorem State.now_wr (s : State) (f : Fld) (v : Nat) : (s.wr f v).now = s.now := rfl

end Sys2Proof.Machine
end

