-- ==== Sys2Proof/Laws/Ops.lean ====
section
/-!
SUPPORT. What the shared operations do, said once: sparse maps, bytes of numbers, guards, completions.
-/
namespace Sys2Proof.Machine
open Sys2Proof

/-! ### Sparse maps -/

section maps
variable {α : Type}

@[simp] theorem kvGet?_kvSet_same (m : KV α) (k : Nat) (v : α) : kvGet? (kvSet m k v) k = some v := by
  induction m with
  | nil => simp [kvSet, kvGet?]
  | cons e m ih =>
    obtain ⟨a, w⟩ := e
    simp only [kvSet]
    split
    · simp [kvGet?]
    · split
      · simp [kvGet?]
      · rename_i _ h
        simp [kvGet?, h, ih]

theorem kvGet?_kvSet_other (m : KV α) {k j : Nat} (v : α) (h : j ≠ k) : kvGet? (kvSet m k v) j = kvGet? m j := by
  induction m with
  | nil => simp [kvSet, kvGet?, Ne.symm h]
  | cons e m ih =>
    obtain ⟨a, w⟩ := e
    simp only [kvSet]
    split
    · simp [kvGet?, Ne.symm h]
    · split
      · rename_i _ hk
        subst hk
        simp [kvGet?, Ne.symm h]
      · simp [kvGet?, ih]

@[simp] theorem kvGet?_kvDel_same (m : KV α) (k : Nat) : kvGet? (kvDel m k) k = none := by
  induction m with
  | nil => rfl
  | cons e m ih =>
    obtain ⟨a, w⟩ := e
    by_cases h : a = k
    · simpa [kvDel, h] using ih
    · simpa [kvDel, h, kvGet?] using ih

theorem kvGet?_kvDel_other (m : KV α) {k j : Nat} (h : j ≠ k) : kvGet? (kvDel m k) j = kvGet? m j := by
  induction m with
  | nil => rfl
  | cons e m ih =>
    obtain ⟨a, w⟩ := e
    by_cases hk : a = k
    · subst hk
      simpa [kvDel, kvGet?, Ne.symm h] using ih
    · by_cases hj : a = j
      · simp [kvDel, kvGet?, hj, show j ≠ k from h]
      · simpa [kvDel, hk, kvGet?, hj] using ih

/-- What is put in place of a key is read back, with the default where nothing is listed. -/
@[simp] theorem kvGetD_kvPut_same [DecidableEq α] (m : KV α) (k : Nat) (v d : α) : kvGetD (kvPut m k v d) k d = v := by
  unfold kvPut kvGetD
  split
  · rename_i h
    simp [h]
  · simp

theorem kvGetD_kvPut_other [DecidableEq α] (m : KV α) {k j : Nat} (v d e : α) (h : j ≠ k) :
    kvGetD (kvPut m k v d) j e = kvGetD m j e := by
  unfold kvPut kvGetD
  split
  · rw [kvGet?_kvDel_other m h]
  · rw [kvGet?_kvSet_other m v h]

/-- A key that `kvSet` lists is one that was listed, or the new one. -/
theorem kvSet_keys (m : KV α) (k : Nat) (v : α) : ∀ e ∈ kvSet m k v, e = (k, v) ∨ e ∈ m := by
  induction m with
  | nil => simp [kvSet]
  | cons x m ih =>
    obtain ⟨a, w⟩ := x
    intro e he
    simp only [kvSet] at he
    split at he
    · simpa using he
    · split at he
      · rcases List.mem_cons.mp he with h | h
        · exact .inl h
        · exact .inr (List.mem_cons_of_mem _ h)
      · rcases List.mem_cons.mp he with h | h
        · exact .inr (h ▸ List.mem_cons_self)
        · rcases ih e h with h | h
          · exact .inl h
          · exact .inr (List.mem_cons_of_mem _ h)

/-- Setting a key keeps the keys rising. -/
theorem kvSet_rising (m : KV α) (k : Nat) (v : α) (h : m.Pairwise (fun a b => a.1 < b.1)) :
    (kvSet m k v).Pairwise (fun a b => a.1 < b.1) := by
  induction m with
  | nil => simp [kvSet]
  | cons x m ih =>
    obtain ⟨a, w⟩ := x
    obtain ⟨ha, hm⟩ := List.pairwise_cons.mp h
    simp only [kvSet]
    split
    · rename_i hk
      refine List.pairwise_cons.mpr ⟨?_, h⟩
      intro e he
      rcases List.mem_cons.mp he with rfl | he
      · exact hk
      · exact Nat.lt_trans hk (ha e he)
    · split
      · rename_i _ hk
        subst hk
        exact List.pairwise_cons.mpr ⟨ha, hm⟩
      · rename_i h1 h2
        refine List.pairwise_cons.mpr ⟨?_, ih hm⟩
        intro e he
        rcases kvSet_keys m k v e he with rfl | he
        · show a < k
          omega
        · exact ha e he

/-- Deleting a key keeps the keys rising. -/
theorem kvDel_rising (m : KV α) (k : Nat) (h : m.Pairwise (fun a b => a.1 < b.1)) :
    (kvDel m k).Pairwise (fun a b => a.1 < b.1) := h.sublist List.filter_sublist

end maps

/-! ### Bytes -/

@[simp] theorem leBytes_length (w v : Nat) : (leBytes w v).length = w := by
  induction w generalizing v with
  | zero => rfl
  | succ w ih => simp [leBytes, ih]

/-- The little-endian bytes of a number give it back, cut to their width (R3). -/
theorem leNat_leBytes (w v : Nat) : leNat (leBytes w v) = v % 256 ^ w := by
  induction w generalizing v with
  | zero => simp [leBytes, leNat, Nat.mod_one]
  | succ w ih =>
    simp only [leBytes, leNat, ih, BitVec.toNat_ofNat]
    rw [show (2 : Nat) ^ 8 = 256 from rfl, Nat.pow_succ', Nat.mod_mul]

/-! ### Guards -/

@[simp] theorem when_true (s t : State) : when true s t = .next t := rfl
@[simp] theorem when_false (s t : State) : when false s t = .next s := rfl

/-- A guarded effect answers a next state. -/
theorem when_next (g : Bool) (s t : State) : ∃ u, when g s t = .next u := ⟨_, rfl⟩

theorem State.dequeued_awake {s : State} (h : s.pwr.sleep = none) (t : Result) : s.dequeued t = t := by
  simp [State.dequeued, h]

/-- Where the management ring serves every command, a command's own meaning is what happens. -/
theorem State.served_serving {s : State} (h : s.pwr.sleep = none) (q : s.quarantine = false) (op : Opcode) (tag : BitVec 16)
    (t : Result) : s.served op tag t = t := by
  simp [State.served, State.dequeued, h, q]

/-- In QUARANTINE a command that is not served there completes with NOT_PERMITTED. -/
theorem State.served_quarantine {s : State} (h : s.pwr.sleep = none) (q : s.quarantine = true) (op : Opcode) (tag : BitVec 16)
    (t : Result) : s.served op tag t = .next (s.mgmtDone op tag.toNat .notPermitted) := by
  simp [State.served, State.dequeued, h, q]

theorem State.queued_free {s : State} (h : s.hif.heldCinch = none) (i : Instr) (t : State) : s.queued i t = .next t := by
  simp [State.queued, h]

/-! ### Completions -/

/-- An enabled ring with a free entry: the completion is the last of those held. -/
theorem State.complete_fits {s : State} {r : Nat} (e : s.on (Reg.HIF_RING_CFG_EN r) = true)
    (h : (s.ring r).held.length < s.cqFree r) (c : Nat) :
    s.complete r c = (s.setRing r { s.ring r with held := (s.ring r).held ++ [c] }).backlog r := by
  simp [State.complete, e, h]

/-- A ring that is not enabled and has no free entry: the completion is discarded (R316). -/
theorem State.complete_discarded {s : State} {r : Nat} (e : s.on (Reg.HIF_RING_CFG_EN r) = false)
    (h : ¬ (s.ring r).held.length < s.cqFree r) (c : Nat) : s.complete r c = s := by
  simp [State.complete, e, h]

/-- A ring that is not enabled and has a free entry keeps the completion. -/
theorem State.complete_kept {s : State} {r : Nat} (e : s.on (Reg.HIF_RING_CFG_EN r) = false)
    (h : (s.ring r).held.length < s.cqFree r) (c : Nat) :
    s.complete r c = s.setRing r { s.ring r with held := (s.ring r).held ++ [c] } := by
  simp [State.complete, e, h]

@[simp] theorem State.setRing_ring (s : State) (r : Nat) (g : Ring) : (s.setRing r g).ring r = g := by
  simp [State.setRing, State.ring]

end Sys2Proof.Machine
end

