-- ==== Sys2Proof/Tests/Slice0.lean ====
section
/-!
SUPPORT. Tests.  The expected values of the effect tests come from the rules that their comments name.  A theorem `test_witness_<Name>`
shows, for each clause of the statement `<Name>`, a state and operands that meet its hypotheses together.
-/
namespace Sys2Proof.Tests
set_option Elab.async false
open Sys2Proof Sys2Proof.Machine

/-! ### Small states -/

/-- Register fields written. -/
def put (s : State) (l : List (Fld × Nat)) : State := l.foldl (fun s p => s.wr p.1 p.2) s

/-- ST fields of the active configuration written. -/
def cfg (s : State) (l : List (Fld × Nat)) : State :=
  { s with act := l.foldl (fun c p => c.setFld p.1 p.2) s.act }

/-- Records of the active configuration written: table code, index and value. -/
def tabs (s : State) (l : List (Nat × Nat × Nat)) : State :=
  { s with act := l.foldl (fun c p => c.setTab p.1 p.2.1 ⟨1, p.2.2⟩) s.act }

/-- A device that has reached operation (R418). -/
def up (l : List (Fld × Nat) := []) : State := put State.reset ((Reg.PWR_STAT_PHASE, 6) :: l)

/-- The time base set to an instant. -/
def at_ (s : State) (t : Instant) : State := { s with tb := { s.tb with ns := t } }

/-- Translation on, with the page at 0 cached for reading and writing (R339, R342). -/
def mapped (s : State) : State := { s.wr Reg.XLT_CTL_EN 1 with xlt := { s.xlt with tlb := [⟨0, 12, 0, true, true⟩] } }

/-- The host link up, with Bus Master Enable set and HIF enabled (R313). -/
def linked (s : State) : State :=
  { (mapped s).wr Reg.HIF_CTL_EN 1 with hif := { s.hif with busMaster := true, linkUp := true } }

/-- An access that reads no table. -/
def d0 : Dma := ⟨0, ⟨[]⟩⟩

/-- A pair of which the first part is known. -/
theorem pair_fst {α β : Type} (p : α × β) {a : α} (h : p.1 = a) : p = (a, p.2) := by rw [← h]

/-- The outcome is a next state. -/
def isNext : Result → Bool
  | .next _ => true
  | .fault _ | .refused _ => false

theorem next_of {r : Result} (h : isNext r = true) : ∃ t, r = .next t := by
  cases r with
  | next t => exact ⟨t, rfl⟩
  | fault f => cases h
  | refused f => cases h

/-- The state after a command. -/
def after (i : Instr) (s : State) : State :=
  match exec i s with
  | .next t => t
  | .fault _ | .refused _ => s

/-! ### WellFormed refuses, check by check -/

def okImage : TableImage := ⟨0, 1, 8, 0, 1, 0, 0, [5]⟩
def okReq : KeyReq := ⟨1, 1, 0, 0, 0, 0, 0, List.replicate 32 0, List.replicate 40 0⟩
def okFw : Image := ⟨0, 0, 0, 0, 0, 0, 0, 0, 0, 0, List.replicate 133 0, 0, true, 0, 0, 0⟩
def okFrame : Frame := ⟨64, true, 0, 0, 0, 0, 0, 0, none, none, .raw, List.replicate 60 0⟩
def okFlit : Flit := ⟨0, 3, 0, List.replicate 58 0, 0⟩

theorem test_wf_image_count : Instr.wellFormed (.tableForward none okImage) = true ∧
    Instr.wellFormed (.tableForward none { okImage with count := 2 }) = false ∧
    Instr.wellFormed (.tableLoad 0 64 { okImage with records := [] } 0 d0) = false := by decide +kernel
theorem test_wf_image_width : Instr.wellFormed (.tableForward none { okImage with records := [2 ^ 64] }) = false := by decide +kernel
theorem test_wf_ns : Instr.wellFormed (.cinch 0 0 true 0 999999999 0) = true ∧
    Instr.wellFormed (.cinch 0 0 true 0 1000000000 0) = false ∧ Instr.wellFormed (.sleep 0 true 0 1000000000 0) = false := by
  decide +kernel
theorem test_wf_key_request : Instr.wellFormed (.keyOpDerive 0 0 0 64 0 d0 okReq 0) = true ∧
    Instr.wellFormed (.keyOpDerive 0 0 0 64 0 d0 { okReq with context := [] } 0) = false ∧
    Instr.wellFormed (.keyOpImport 0 0 0 104 0 d0 { okReq with wrapped := [] } 0) = false := by decide +kernel
theorem test_wf_provision : Instr.wellFormed (.keyOpProvision 0 40 0 d0 []) = false := by decide +kernel
theorem test_wf_challenge : Instr.wellFormed (.attest 0 136 0 [] d0) = false := by decide +kernel
theorem test_wf_fw_image : Instr.wellFormed (.updateStageStage 0 0 0 d0 okFw) = true ∧
    Instr.wellFormed (.updateStageStage 0 0 0 d0 { okFw with reserved := [] }) = false := by decide +kernel
theorem test_wf_cairn : Instr.wellFormed (.cairnPost 0 16 0 [] d0) = false := by decide +kernel
theorem test_wf_addresses : Instr.wellFormed (.registerWrite .host 2 0) = false ∧ Instr.wellFormed (.snapLatchRead 6) = false := by
  decide +kernel
theorem test_wf_frame : Instr.wellFormed (.frameReceive 0 okFrame) = true ∧
    Instr.wellFormed (.frameReceive 0 { okFrame with len := 60 }) = false := by decide +kernel
theorem test_wf_doorbell : Instr.wellFormed (.doorbellRead [0, 0] d0) = false := by decide +kernel
theorem test_wf_flit : Instr.wellFormed (.hjelFlit 0 okFlit 0) = true ∧
    Instr.wellFormed (.hjelFlit 0 { okFlit with payload := [] } 0) = false := by decide +kernel

/-! ### Witnesses: the machine -/

theorem test_witness_StepRunsFrontCommand : ({ up with pending := [.nop 7, .cinchAccept] } : State).pending = [.nop 7, .cinchAccept] :=
  rfl

theorem test_witness_IdleStepIsOneTick : (up [(Reg.PWR_STAT_PHASE, 0)]).pending = [] ∧
    (up [(Reg.PWR_STAT_PHASE, 0)]).dark = true ∧ up.pending = [] ∧ up.dark = false := by
  decide +kernel

theorem test_witness_CommandsAnswerNextAndKeepTheQueue : exec .wrdStatRead up = .next (up.wr Reg.SCHED_WRD_STAT_MAX_ITEM_US 0) := rfl

theorem test_witness_ActiveCopyChangesOnlyAtBoundaries : exec .busMasterEnable up =
    .next { up with hif := { up.hif with busMaster := true } } := rfl

theorem test_witness_FusesOnlyBurn : step { up with pending := [.busMasterEnable] } =
    .next { up with hif := { up.hif with busMaster := true } } := rfl

theorem test_witness_FusesOnlyBurn_other_commands : ∃ (c : Instr) (t : State), exec c up = .next t ∧
    (∀ tag len state check, c ≠ .keyOpAdvance tag len state check) ∧
    (∀ tag len addr dma wrapped, c ≠ .keyOpProvision tag len addr dma wrapped) ∧ c ≠ .trialCommit :=
  ⟨.busMasterEnable, _, rfl, by intros; simp, by intros; simp, by simp⟩

theorem test_witness_TimeBaseStaysLegal :
    let s : State := { up with tb := { up.tb with ns := instantModulus - 1, frac := 2 ^ 32 - 1, incrNext := some 0x02028F5C29 } }
    s.TimeBaseLegal ∧ ∃ t, step s = .next t :=
  ⟨⟨by decide +kernel, by decide +kernel, by decide +kernel, by
    intro v h
    obtain rfl := Option.some.inj h
    decide⟩, _, rfl⟩

theorem test_witness_TickAddsIncrement :
    let s : State := { up with tb := { up.tb with ns := 3999999998 } }
    let u : State := { up with tb := { up.tb with ns := 3999999997 } }
    (s.TimeBaseLegal ∧ s.tb.incrNext = none ∧ nsPerS ≤ s.tb.ns % nsPerS + (s.tb.frac + s.tb.incr) / 2 ^ 32) ∧
    (u.TimeBaseLegal ∧ u.tb.incrNext = none ∧ u.tb.ns % nsPerS + (u.tb.frac + u.tb.incr) / 2 ^ 32 < nsPerS) := by
  refine ⟨⟨⟨by decide +kernel, by decide +kernel, by decide +kernel, ?_⟩, by decide +kernel⟩,
    ⟨⟨by decide +kernel, by decide +kernel, by decide +kernel, ?_⟩, by decide +kernel⟩⟩ <;> (intro v h; cases h)

theorem test_witness_IncrementTakenAtNextTick :
    let s := up
    s.TimeBaseLegal ∧ s.tbState ≠ tbHOLDOVER ∧ s.ownsTb .firmware = true ∧ s.mayWrite .firmware 0x4000C = true ∧
    (∃ t, exec (.tbIncrWrite .firmware 2) s = .next t) ∧ incrLegal (2 * 2 ^ 32 + s.tb.incrLow.toNat) ∧
    ¬ incrLegal (3 * 2 ^ 32 + s.tb.incrLow.toNat) := by
  refine ⟨⟨by decide +kernel, by decide +kernel, by decide +kernel, ?_⟩, by decide +kernel, by decide +kernel, by decide +kernel,
    next_of (by decide +kernel), by decide +kernel,
    by decide +kernel⟩
  intro v h; cases h

theorem test_witness_TwoWriteSequences :
    let s : State := { up with safety := { up.safety with armed := true }, pwr := { up.pwr with armed := true } }
    (s.barOpen 0x1A001C = true ∧ s.safety.armed = true) ∧ (up.barOpen 0x1A001C = true ∧ up.safety.armed = false) ∧
    (s.pwr.armed = true) ∧ (up.pwr.armed = false) ∧ (0x1A0000 ≤ (0x1A0000 : BitVec 26).toNat ∧ (0x1AFFFF : BitVec 26).toNat < 0x1B0000 ∧
    (0x1D0000 : BitVec 26).toNat ≠ 0x1D0004 ∧ (0x1DFFFF : BitVec 26).toNat < 0x1E0000) := by decide +kernel

theorem test_witness_ClaimsAreCompared :
    (0xFFF1 : Nat) < 2 ^ 16 ∧ (0x0002 : Nat) < 2 ^ 16 ∧ 0xFFF1 ≠ 0x0002 ∧ (0xFFF1 / 16 + 4096 - 0x0002 / 16) % 4096 ≠ 2048 := by decide

/-! ### Witnesses: registers, tables, counters, completions -/

theorem test_witness_StorageHoldsWhatWasWritten_maps : Canonical [(3, 5), (7, 1)] (fun _ => 0) ∧ (3 : Nat) ≠ 7 :=
  ⟨⟨by decide, by decide⟩, by decide⟩

theorem test_witness_StorageHoldsWhatWasWritten_fields :
    up.dev.Pairwise (fun a b => a.1 < b.1) ∧ Reg.PAIR_STAT_STATE.key ≠ Reg.PAIR_STAT_CFG_WR.key := by decide +kernel

theorem test_witness_StorageHoldsWhatWasWritten_staged :
    (cfg up [(Reg.TB_CTL_FREF, 1)]).act.regs.Pairwise (fun a b => a.1 < b.1) ∧ Reg.TB_CTL_FREF.key ≠ Reg.TB_IRIG_IEEE1344.key := by
  decide +kernel

theorem test_witness_StorageHoldsWhatWasWritten_records :
    (tabs up [(1, 8191, 5), (2, 0, 3)]).act.tabs.Pairwise (fun a b => a.1 < b.1) ∧ (8191 : Nat) < 2 ^ 20 ∧ ((2, 0) : Nat × Nat) ≠ (1, 0) := by
  decide +kernel

theorem test_witness_CountersAndEventSourcesActLocally_counters :
    let s := up [(Blk.ing.cnt 0, 2 ^ 31 - 1)]
    bitOf (s.rd (Blk.ing.cnt 0)) 31 ≠ bitOf (s.rd (Blk.ing.cnt 0) + 1) 31 ∧
    bitOf (up.rd (Blk.ing.cnt 0)) 31 = bitOf (up.rd (Blk.ing.cnt 0) + 1) 31 := by decide +kernel

theorem test_witness_CountersAndEventSourcesActLocally_sources :
    let recent : State := { up with hif := { up.hif with lastRaise := [(64, 0)] } }
    let once : State := { at_ up 1000000 with hif := { up.hif with lastRaise := [(64, 0)] } }
    causeOf 64 = some (Reg.ING_EVT_CAUSE, 0) ∧ rateLimited 64 = true ∧ kvGet? recent.hif.lastRaise 64 = some 0 ∧ 0 ≤ recent.now ∧
    recent.now < 0 + 1000000 ∧ kvGet? once.hif.lastRaise 64 = some 0 ∧ 0 + 1000000 ≤ once.now ∧
    causeOf 240 = some (Reg.HIF_EVT_CAUSE, 0) ∧ rateLimited 240 = false ∧
    up.on (Reg.HIF_EVT_ROUTE_EN 240) = false ∧ Reg.HIF_EVT_CAUSE.key ≠ (Reg.HIF_EVT_ROUTE_EN 240).key ∧
    once.on (Reg.HIF_EVT_ROUTE_EN 64) = false ∧ Reg.ING_EVT_CAUSE.key ≠ (Reg.HIF_EVT_ROUTE_EN 64).key ∧
    (Reg.ING_EVT_ENTRY_ENTRY 0).key ≠ (Reg.HIF_EVT_ROUTE_EN 64).key := by decide +kernel

/-- The management ring enabled, with 16 entries. -/
def ringed (s : State) : State := (s.wr (Reg.HIF_RING_CFG_EN 0) 1).wr (Reg.HIF_RING_CFG_CQ_LOG2 0) 4

theorem test_witness_ManagementCompletionQueued :
    (ringed up).on (Reg.HIF_RING_CFG_EN 0) = true ∧ ((ringed up).ring 0).held.length < (ringed up).cqFree 0 := by decide +kernel

/-! ### Witnesses: management commands and the CINCH -/

/-- A capture channel enabled (R229), recording. -/
def capped : State := tabs up [(15, 7, 0x80)]
def rec0 : CapRec := ⟨0, ⟨1, 0x80⟩, 0, 0, [], 0, 0, 0, false, false, false, false, [], 0, 0, none, 0⟩
def recording : State :=
  { capped with cap := { capped.cap with chans := [(7, { CapChan.init with phase := .recording, rcd := some rec0 })] } }

theorem test_witness_NopAndQuenchComplete :
    up.Serving ∧ up.quenchState 0 8191 = some false ∧ (up.setQuench 2 47 true).quenchState 2 47 = some true ∧
    up.quenchState 0 8192 = none ∧ up.quenchState 1 48 = none ∧ up.quenchState 3 0 = none := by decide +kernel

theorem test_witness_CaptureArmAndScheduleComplete :
    capped.Serving ∧ (capped.capCfg 7).capOn = true ∧ recording.Serving ∧ (recording.capCfg 7).capOn = true ∧
    (recording.capChan 7).phase = .recording ∧
    (let x : Sched := ⟨9, 1, 7, 0, false⟩
     let s : State := { up with hif := { up.hif with schedules := [x] } }
     s.hif.schedules.find? (fun x => decide (x.due ≤ s.now)) = some x ∧ x.action = 1) := by decide +kernel

/-- An image of one all-zero record of the graph directory (R291), and its length. -/
def image0 : TableImage :=
  let i : TableImage := ⟨0x52494447, 1, 32, 0, 1, 0, 0, [0]⟩
  { i with crc := BitVec.ofNat 32 (crc32 i.crcBytes) }

def len0 : Nat := 96

/-- The Active of a pair whose partner 2 is its Belay. -/
def hb (unit state : Nat) : Heartbeat := ⟨unit, state, false, false, 0, 0, 0, 0, 0, 0, 0, 0, [], 0, []⟩
def active : State :=
  let s := put (mapped up) [(Reg.PAIR_CTL_ENABLE, 1), (Reg.PAIR_CTL_MODE, 1), (Reg.PAIR_CTL_UNIT_ID, 1), (Reg.PAIR_STAT_STATE, 4),
    (Reg.PAIR_STAT_PARTNER, 2), (Reg.PAIR_STAT_PARTNER_OK, 1)]
  { s with pair := { s.pair with heard := [(2, (hb 2 3, 0))] } }

/-- Slot 0 with a witness key (R395, R403). -/
def keyed (s : State) : State := { s with slots := [(0, ⟨1, 1, 8, 0xFF, 0, 0, none, false, 1, 0, 5⟩)] }

/-- The Belay of a pair. -/
def belay : State := put (keyed up) [(Reg.PAIR_CTL_ENABLE, 1), (Reg.PAIR_CTL_MODE, 1), (Reg.PAIR_CTL_UNIT_ID, 2), (Reg.PAIR_STAT_STATE, 3)]

theorem test_witness_TableLoadsAndForwardsComplete :
    (mapped up).Starting ∧ (mapped up).belay = false ∧ (mapped up).glb.sealed = false ∧ 64 ≤ len0 ∧ len0 ≤ 16 * 2 ^ 20 ∧
    ((mapped up).cmdDma false 0 0 d0).1 = true ∧ (image0.table? len0).isSome = true ∧ ((mapped up).cmdDma false 0 0 d0).2.forwards = false ∧
    active.Starting ∧ active.belay = false ∧ active.glb.sealed = false ∧ (active.cmdDma false 0 0 d0).1 = true ∧
    (active.cmdDma false 0 0 d0).2.forwards = true ∧ belay.belay = true ∧ (tableOf image0.magic.toNat).isSome = true ∧
    (let s : State := { active with glb := { active.glb with forwards := [(65535, 1, 1)] } }
     s.glb.forwards.find? (fun f => f.1 == (65535 : BitVec 16).toNat) = some (65535, 1, 1)) := by decide +kernel

/-- A CINCH in a phase. -/
def cinch0 (p : CinchPhase) (waiting : List Nat) (bitmaps : List (Nat × Nat)) : Cinch :=
  { tag := 3, target := 1, eff := none, grace := 0, accepted := 0, phase := p, boundary := 0, late := false, waiting, bitmaps
    alone := false, sentAt := 0 }
def cinching (s : State) (c : Cinch) : State := { s with glb := { s.glb with cinch := some c, sealed := true } }

/-- A CINCH held with nothing to wait for. -/
def held (target : BitVec 32) : State :=
  { up with hif := { up.hif with heldCinch := some (.cinch 3 target false 0 0 0, []) } }

theorem test_witness_CinchAcceptanceAndValidationComplete :
    up.Starting ∧
    (held 1).hif.heldCinch = some (.cinch 3 1 false 0 0 0, []) ∧
    State.cinchRefused { held 1 with hif := { (held 1).hif with heldCinch := none } } 1 none 0 = none ∧
    State.cinchRefused { held 5 with hif := { (held 5).hif with heldCinch := none } } 5 none 0 = some .invalid ∧
    (let c := cinch0 .validating [] []
     let s := cinching up c
     s.glb.cinch = some c ∧ c.phase = .validating ∧ s.firstRefusal (s.shd.look []) (!s.teamLook) = none ∧
     s.rd Reg.PAIR_STAT_STATE ≠ 4 ∧ s.on Reg.PAIR_CTL_ENABLE = false ∧ s.meetsActivation (s.chooseBoundary c).1 = false ∧
     (let u : State := { s with shd := s.shd.setFld Reg.TB_REF_PRI 15 }
      (u.firstRefusal (u.shd.look []) (!u.teamLook)).isSome = true)) := by decide +kernel

theorem next_differs (d : Nat) : d + 1 ≠ d := by omega

theorem test_witness_CinchTeamPhasesComplete :
    (belay.cinchMember = true ∧ belay.glb.member = none ∧ (1 : Nat) = epochNext (belay.rd Reg.GLB_EPOCH_EPOCH) ∧
      belay.firstRefusal (belay.shd.look []) true = none) ∧ belay.shd.digest + 1 ≠ belay.shd.digest ∧
    (let m : MemberCinch := ⟨1, 5, none, false⟩
     let s : State := { belay with glb := { belay.glb with member := some m } }
     s.cinchMember = true ∧ s.glb.member = some m ∧ m.target = 1 ∧ m.diverged = false ∧ m.decision = none ∧ s.now < 5) ∧
    (let c := cinch0 .preparing [15] []
     let s := at_ (cinching active c) 20000000
     s.glb.cinch = some c ∧ c.phase = .preparing ∧ 15 ∈ c.waiting ∧ c.waiting = [15] ∧ s.pairMode = true ∧
     s.teamLook = false ∧ c.sentAt + 20000000 ≤ s.now) :=
  ⟨by decide +kernel, next_differs _, by decide +kernel, by decide +kernel⟩

theorem test_witness_CinchApplicationCompletes :
    (let c := cinch0 .ready [] []
     let s := cinching up c
     s.glb.cinch = some c ∧ c.phase = .ready ∧ c.boundary ≤ s.now ∧ c.bitmaps = []) ∧
    (let c := cinch0 .ready [] [(15, 0)]
     let s := cinching up c
     s.glb.cinch = some c ∧ c.boundary ≤ s.now ∧ c.bitmaps ≠ []) ∧
    (let m : MemberCinch := ⟨1, 0, some true, false⟩
     let s : State := { belay with glb := { belay.glb with member := some m } }
     s.glb.cinch = none ∧ s.glb.member = some m ∧ m.decision = some true ∧ m.boundary ≤ s.now) ∧
    (let m : MemberCinch := ⟨1, 0, none, false⟩
     let s : State := { belay with glb := { belay.glb with member := some m } }
     s.glb.cinch = none ∧ s.glb.member = some m ∧ m.decision = none ∧ m.diverged = false ∧ m.boundary ≤ s.now) ∧
    (let c := cinch0 .confirming [15] []
     let s := at_ (cinching up c) 5000000
     s.glb.cinch = some c ∧ c.phase = .confirming ∧ c.waiting.filter (fun x => x != 15) = [] ∧ c.boundary + 5000000 ≤ s.now) ∧
    (let r : Retiring := ⟨Cfg.reset, 0, 0, 7⟩
     let s : State := { at_ up 7 with ret := some r }
     s.ret = some r ∧ r.expiry ≤ s.now) := by decide +kernel

/-! ### Witnesses: keys, updates, start and sleep -/

def slotD : KeySlot := ⟨1, 3, 16, 0xFF, 0, 0, none, false, 3, 0, 5⟩

/-- Slot 254 holds a derivation key at depth 3 (R402). -/
def keys : State := { mapped up with slots := [(254, slotD)] }

theorem test_witness_KeySlotOperationsComplete :
    let t := keys.bump .key C.KEY_KEY_OPS
    keys.KeyServing ∧ 32 ≤ (32 : BitVec 32).toNat ∧ (t.cmdDma true 0 0 d0).1 = true ∧ (t.slot 0).st ≠ 1 ∧
    (t.cmdDma false 0 0 d0).1 = true ∧ okReq.ok = true ∧ okReq.exp = none ∧ (254 : Fin 256).val ≠ 0xFF ∧ (254 : Fin 256) ≠ 0 ∧
    ((t.cmdDma false 0 0 d0).2.slot 254).st = 1 ∧ ((t.cmdDma false 0 0 d0).2.slot 254).alg = 3 ∧
    bitOf ((t.cmdDma false 0 0 d0).2.slot 254).usage 4 = true ∧ ((t.cmdDma false 0 0 d0).2.slot 254).depth < 4 ∧
    t.referenced 0 = false ∧ t.below 0 = [] := by decide +kernel

theorem test_witness_KeyLifeCycleOperationsComplete :
    up.KeyServing ∧ lcsMay up.key.lcs 1 = true ∧
    (let s : State := { up with key := { up.key with lcs := 3 } }
     s.KeyServing ∧ lcsMay s.key.lcs 4 = true) ∧
    (let s : State := { mapped up with key := { up.key with lcs := 1 } }
     s.KeyServing ∧ s.key.lcs = 1 ∧ ((s.bump .key C.KEY_KEY_OPS).cmdDma false 0 0 d0).1 = true) ∧
    (let s : State := { at_ up 7 with slots := [(255, { slotD with exp := some 7 })] }
     (s.slot 255).st = 1 ∧ (s.slot 255).exp = some 7 ∧ 7 ≤ s.now) := by decide +kernel

theorem test_witness_AttestationTamperAndDebugComplete :
    (let s : State := { up with key := { up.key with att := some 5 } }
     s.Serving ∧ 136 ≤ (136 : BitVec 32).toNat ∧ s.key.att = some 5) ∧
    (up.key.att = none ∧ up.quarantine = false ∧ 4 ≤ up.rd Reg.PWR_STAT_PHASE ∧ up.deriveAtt.key.attWait = []) ∧
    (6 ≤ up.rd Reg.PWR_STAT_PHASE ∧ up.rd Reg.PWR_STAT_PHASE ≠ 10 ∧ up.key.lcs < 2) ∧
    up.tamperOn 7 = true ∧
    (let s : State := up [(Reg.PWR_STAT_PHASE, 0)]
     s.tamperOn 4 = true ∧ s.rd Reg.PWR_STAT_PHASE = 0) := by decide +kernel

/-- An image that the device verifies, of the part that it is (R435). -/
def fw : Image :=
  { okFw with
    magic := 0x4D495A56, fmt := 1, hdrLen := 256, imgLen := 256, received := 256
    part := BitVec.ofNat 32 (2 ^ 16 * up.rd Reg.GLB_ID_PART + 2 ^ 12 * up.rd Reg.GLB_ID_STEP_MAJOR + 2 ^ 8 * up.rd Reg.GLB_ID_STEP_MINOR) }

theorem test_witness_UpdateStagingCompletes :
    ((mapped up).Starting ∧ ((mapped up).cmdDma false 0 0 d0).1 = true ∧ ((mapped up).cmdDma false 0 0 d0).2.upd.sources = []) ∧
    (active.Starting ∧ active.on Reg.PAIR_CTL_ENABLE = true ∧ active.rd Reg.PAIR_CTL_MODE = 1 ∧ active.peer ≠ 0 ∧
      active.peer ≠ active.unitId ∧ active.upd.sources = []) ∧
    (let s : State := { up with upd := { up.upd with run := some fw, sources := [⟨2, 9, some fw⟩] } }
     s.upd.run = some fw ∧ s.upd.sources = [⟨2, 9, some fw⟩] ∧ s.verify fw = 0 ∧ s.rd Reg.UPD_STAT_STATE = 0 ∧
     s.verify { fw with sigOk := false } ≠ 0) ∧
    (let x : Staging := ⟨2, 9, some fw⟩
     let s : State := { up with upd := { up.upd with writing := some x } }
     s.upd.writing = some x ∧ x.image = some fw) := by decide +kernel

/-- A unit with an image staged in slot 1. -/
def staged (s : State) (st : Nat) : State :=
  { s.wr Reg.UPD_STAT_STATE st with upd := { s.upd with images := [(1, fw)] } }

theorem test_witness_UpdateActivationCompletes :
    (let s := staged (mapped up) 2
     let u := (s.cmdDma false 0 0 d0).2
     s.Starting ∧ (s.cmdDma false 0 0 d0).1 = true ∧ u.rd Reg.UPD_STAT_STATE = 2 ∧ u.cinching = false ∧ u.pwr.sleep = none ∧
     u.cfgInRange = true ∧ s.stagedImage = some fw) ∧
    (let s := staged active 2
     let u := (s.cmdDma false 0 0 d0).2
     s.Starting ∧ (s.cmdDma false 0 0 d0).1 = true ∧ u.rd Reg.UPD_STAT_STATE = 2 ∧ u.cinching = false ∧ u.pwr.sleep = none ∧
     u.cfgInRange = true ∧ s.on Reg.PAIR_CTL_ENABLE = true ∧ s.rd Reg.PAIR_CTL_MODE = 1 ∧ s.coordinator = true ∧ u.partners = [2] ∧
     u.stagedImage = some fw) ∧
    (let a : TeamAct := ⟨3, 0, false, 0, [15], 0⟩
     let s : State := at_ { staged up 2 with upd := { (staged up 2).upd with team := some a } } 20000000
     s.upd.team = some a ∧ a.waiting = [15] ∧ 15 ∈ a.waiting ∧ s.stagedImage = some fw ∧ a.sentAt + 20000000 ≤ s.now) := by
  decide +kernel

theorem test_witness_UpdateTrialAndStoreComplete :
    ((staged up 3).Starting ∧ (staged up 3).rd Reg.UPD_STAT_STATE = 3 ∧
      kvGet? (staged up 3).upd.images (staged up 3).otherSlot = some fw) ∧
    (let s : State := { up with upd := { up.upd with run := some fw } }
     s.Starting ∧ s.rd Reg.UPD_STAT_STATE ≠ 4 ∧ s.upd.saving = none ∧ s.upd.run = some fw) ∧
    (let s : State := { up with upd := { up.upd with saving := some (some 9, 1, ⟨0, 0, Cfg.reset⟩) } }
     s.upd.saving = some (some 9, 1, ⟨0, 0, Cfg.reset⟩)) ∧
    (let s : State := { up with upd := { up.upd with act := some (0, 0) } }
     s.upd.act = some (0, 0) ∧ s.upd.stopping = false ∧ 0 ≤ s.now) ∧
    (let s : State := at_ { up with upd := { up.upd with act := some (0, 3), stopping := true } } (255 * 1000000)
     s.upd.act = some (0, 3) ∧ s.upd.stopping = true ∧ s.drained 0 = true) ∧
    (let s : State := up [(Reg.UPD_STAT_STATE, 4), (Reg.UPD_TRIAL_START_MET, 1), (Reg.UPD_TRIAL_CFG_MET, 1),
       (Reg.UPD_TRIAL_HOST_MET, 1), (Reg.UPD_TRIAL_RUN_MET, 1)]
     let s : State := { s with upd := { s.upd with run := some fw } }
     s.rd Reg.UPD_STAT_STATE = 4 ∧ s.on Reg.UPD_TRIAL_START_MET = true ∧ s.on Reg.UPD_TRIAL_CFG_MET = true ∧
     s.on Reg.UPD_TRIAL_HOST_MET = true ∧ s.on Reg.UPD_TRIAL_RUN_MET = true ∧ s.upd.run = some fw) ∧
    (let s := at_ (up [(Reg.UPD_STAT_STATE, 4)]) (60 * nsPerS)
     s.rd Reg.UPD_STAT_STATE = 4 ∧ trialNs ≤ s.trialElapsed) := by decide +kernel

theorem test_witness_StartUpCompletes :
    State.reset.pwr.armed = false ∧ ({ up with pwr := { up.pwr with armed := true } } : State).pwr.armed = true ∧
    State.reset.rd Reg.PWR_STAT_PHASE ≤ 1 ∧
    (let s : State := { up [(Reg.PWR_STAT_PHASE, 2)] with upd := { up.upd with images := [(0, fw)] } }
     s.rd Reg.PWR_STAT_PHASE = 2 ∧ s.rd Reg.UPD_STAT_STATE ≠ 4 ∧ s.bootable (s.rd Reg.PWR_STAT_BOOT_SLOT) = some fw) ∧
    (let s : State := up [(Reg.PWR_STAT_PHASE, 2)]
     s.rd Reg.PWR_STAT_PHASE = 2 ∧ s.rd Reg.UPD_STAT_STATE ≠ 4 ∧ s.bootable (s.rd Reg.PWR_STAT_BOOT_SLOT) = none ∧
     s.bootable (1 - s.rd Reg.PWR_STAT_BOOT_SLOT) = none) ∧
    (up [(Reg.PWR_STAT_PHASE, 4)]).rd Reg.PWR_STAT_PHASE = 4 ∧ (0x8000000000000000 : BitVec 64) ≠ 0 ∧
    (let s : State := up [(Reg.PWR_STAT_PHASE, 5)]
     let u := s.wr Reg.SAFE_TEST_STAT_FAIL 0
     s.rd Reg.PWR_STAT_PHASE = 5 ∧ u.safe = false ∧ u.rd Reg.UPD_STAT_STATE ≠ 4 ∧
     (u.wr Reg.SAFE_STAT_SELFTEST_OK 1).on Reg.GLB_LCS_QUARANTINE = false ∧
     (u.wr Reg.SAFE_STAT_SELFTEST_OK 1).rd Reg.UPD_STAT_STATE ≠ 4) := by decide +kernel

def sleep0 (st : SleepStage) (wake : Option Instant) : Sleep := ⟨3, wake, 0, st, none, false⟩
def asleep (s : State) (st : SleepStage) (wake : Option Instant) : State :=
  { s with pwr := { s.pwr with sleep := some (sleep0 st wake) } }

theorem test_witness_BivouacEntryCompletes :
    (let s := cfg up [(Reg.PWR_WAKE_CFG_PIN_EN, 1)]
     s.Serving ∧ s.on Reg.PAIR_CTL_ENABLE = false ∧ s.sleepBusy = false ∧ s.wakeEnabled = true) ∧
    (let s := at_ up 1000
     s.Serving ∧ s.on Reg.PAIR_CTL_ENABLE = false ∧ s.sleepBusy = false ∧ instantOf 0 999 ≤ s.now + 2592000 * nsPerS ∧
     (s.scheduleAt (instantOf 0 999) 1).isSome = true ∧ ((s.scheduleAt (instantOf 0 999) 1).map (·.2)) = some true) ∧
    (let s : State := { up with pwr := { up.pwr with late := [(3, 0)] } }
     s.pwr.late = [(3, 0)] ∧ 0 ≤ s.now) ∧
    (let s := asleep up .entering none
     s.pwr.sleep = some (sleep0 .entering none) ∧ (sleep0 .entering none).boundary ≤ s.now) ∧
    (let s := at_ (asleep up .draining none) (255 * 1000000)
     s.pwr.sleep = some (sleep0 .draining none) ∧ s.drained 0 = true ∧ s.pub.items = [] ∧ s.hif.schedules = []) ∧
    (let s := at_ (up [(Reg.TB_STAT_STATE, 2)]) (10 * nsPerS)
     s.tbState = tbLOCKED ∧ s.pwr.calAt + 10 * nsPerS ≤ s.now ∧ s.dark = false) := by decide +kernel

theorem test_witness_WakeAndResumptionComplete :
    (let s := cfg up [(Reg.PWR_WAKE_CFG_PIN_EN, 1), (Reg.PWR_WAKE_CFG_PIN_EDGE, 0)]
     s.cfOn Reg.PWR_WAKE_CFG_PIN_EN = true ∧ s.cfOn Reg.PWR_WAKE_CFG_PIN_EDGE = !true) ∧
    up.cfOn Reg.PWR_WAKE_CFG_PIN_EN = false ∧
    (let s := cfg (asleep up .asleep none) [(Reg.PWR_WAKE_PORT_SEL, 0x80 + 47), (Reg.PORT_WAKE_EN 47 7, 1)]
     s.pwr.sleep = some (sleep0 .asleep none) ∧ (sleep0 .asleep none).event = none ∧ s.sleeping = true ∧ 47 ∈ s.wakePorts ∧ s.cfOn (Reg.PORT_WAKE_EN 47 7) = true) ∧
    (let x := sleep0 .asleep (some 0)
     let s := asleep up .asleep (some 0)
     s.pwr.sleep = some x ∧ x.wake = some 0 ∧ s.firstEdge x 0 0 = true) ∧
    (let x := sleep0 .asleep none
     let s := cfg (asleep up .asleep none) [(Reg.PWR_WAKE_CFG_ALM_EN, 8)]
     let s : State := { s with tb := { s.tb with almNext := [(3, (0, false))] } }
     s.pwr.sleep = some x ∧ s.almFrom 3 = some 0 ∧ x.stage = .asleep ∧ bitOf (s.cf Reg.PWR_WAKE_CFG_ALM_EN) 3 = true ∧ s.firstEdge x 0 0 = true) ∧
    (let x := sleep0 (.waking false) none
     let s := cfg (asleep up (.waking false) none) [(Reg.PWR_CFG_WAIT_LOCK, 0)]
     s.pwr.sleep = some x ∧ x.stage = .waking false ∧ (s.loadTime x 5).cfOn Reg.PWR_CFG_WAIT_LOCK = false) ∧
    (let s := (asleep up (.waking true) none).wr Reg.TB_STAT_STATE 2
     s.pwr.sleep = some (sleep0 (.waking true) none) ∧ s.tbState = tbLOCKED) := by decide +kernel

theorem test_witness_BlockRestartAndSafeForceComplete :
    (bitOf (0x80000002 : BitVec 32).toNat 31 = true ∧ up.on Reg.PWR_BLK_STAT_BUSY = false ∧
      restartUnit ((0x80000002 : BitVec 32).toNat % 256) = true) ∧
    (up [(Reg.PWR_BLK_STAT_BUSY, 1)]).on Reg.PWR_BLK_STAT_BUSY = true ∧
    (let s : State := { up with pwr := { up.pwr with unit := some 0x2F } }
     s.pwr.unit = some 0x2F ∧ (0x2F : Nat) < 0x30) ∧
    up.barOpen 0x1A001C = true ∧ up.safety.armed = false := by decide +kernel

/-! ### Witnesses: errors, safety, host interface, registers -/

def err0 : ErrRec := ⟨3, 0, 0, 0x26, 0, 0, 1, false⟩

theorem test_witness_CairnCommandsComplete :
    ((mapped up).Serving ∧ (16 : BitVec 32).toNat % 16 = 0 ∧ (16384 : BitVec 32).toNat ≤ 16384 ∧
      ((mapped up).cmdDma false 0 0 d0).1 = true ∧ [((0x1000 : BitVec 64), (4096 : BitVec 32), (0 : BitVec 32))].all bufferOk = true ∧
      [((0x1000 : BitVec 64), (4095 : BitVec 32), (0 : BitVec 32))].all bufferOk = false) ∧
    (let s : State := at_ { up with err := { up.err with fatal := some err0 } } 10000000
     s.err.fatal = some err0 ∧ (s.writeDump err0 []).on Reg.ERR_CTL_HALT = false ∧ err0.ts + 10000000 ≤ s.now) ∧
    (let s : State := { up [(Reg.ERR_CTL_HALT, 1)] with err := { up.err with fatal := some err0 } }
     s.err.fatal = some err0 ∧ (s.writeDump err0 []).on Reg.ERR_CTL_HALT = true) := by decide +kernel

theorem test_witness_ErrorsAndInjectionComplete :
    up.dark = false ∧ (2 : Fin 4).val < 3 ∧ up.on Reg.ERR_STAT_FATAL = false ∧ (4 : Fin 6).val ≠ 3 ∧ (4 : Fin 6).val ≠ 5 ∧
    up.barOpen 0x1E0040 = true ∧ (5 : Fin 8).val < 6 ∧ (5 : Fin 8).val ≠ 0 ∧ up.on Reg.GLB_LCS_DEBUG = false := by decide +kernel

theorem test_witness_SafetyReactionsComplete :
    (11500 < signed (11501 : BitVec 16).toNat 16 ∧ signed (up.rd Reg.SAFE_MON_TJ_MAX) 16 < signed (11501 : BitVec 16).toNat 16) ∧
    (signed (11000 : BitVec 16).toNat 16 ≤ 11000 ∧ signed (up.rd Reg.SAFE_MON_TJ_MAX) 16 < signed (11000 : BitVec 16).toNat 16) ∧
    ((1979999 : Nat) < 1980000 ∧ (2020000 : Nat) < 2020001) ∧
    (let s := at_ (up [(Reg.STCH_STAT_PRODUCING, 1)]) (255 * nsPerS)
     s.producing = true ∧ s.safety.ptestAt + nsPerS * s.cf Reg.SAFE_CTL_PTEST_S ≤ s.now ∧
     (0xFFFF : BitVec 16).toNat &&& periodicTests ≠ 0) := by decide +kernel

/-- A device with a link, on which ring `r` of a kind is enabled with 16 entries each way, and the host has posted `n` entries. -/
def ringK (r kind n : Nat) : State :=
  let s := put (linked up) [(Reg.HIF_RING_CFG_EN r, 1), (Reg.HIF_RING_CFG_KIND r, kind), (Reg.HIF_RING_CFG_SQ_LOG2 r, 4),
    (Reg.HIF_RING_CFG_CQ_LOG2 r, 4)]
  s.setRing r { Ring.init with sqTail := n }

theorem test_witness_NudgesRingsAndLinkComplete :
    up.barOpen 0x10024 = true ∧
    (let s := (linked up).wr Reg.HIF_NUDGE_CFG_POLL_EN 1
     let s := at_ s (500 * 65535)
     let t := State.bump { s with hif := { s.hif with nudgeAt := s.now } } .hif C.HIF_POLLS
     let u := (t.dma 64 3 false 0 0 (8 * t.rd Reg.HIF_NUDGE_ADDR_ADDR) d0).2
     s.on Reg.HIF_NUDGE_CFG_POLL_EN = true ∧ s.hif.nudgeAt + 500 * s.rd Reg.HIF_NUDGE_CFG_PERIOD ≤ s.now ∧ s.hostUp = true ∧
     s.chanFree 64 = true ∧ (t.dma 64 3 false 0 0 (8 * t.rd Reg.HIF_NUDGE_ADDR_ADDR) d0).1 = true ∧
     (1 : BitVec 64).toNat ≠ u.hif.nudgeLast) ∧
    (let s : State := { linked up with hif := { (linked up).hif with dbDue := [some 63] } }
     s.hostUp = true ∧ s.chanFree 64 = true ∧ s.hif.dbDue = [some 63] ∧
     (State.dma { s with hif := { s.hif with dbDue := [] } } 64 3 false 0 0 (256 * s.rd Reg.HIF_DB_BASE_ADDR + 4 * 63) d0).1 = true) ∧
    (let s : State := { linked up with hif := { (linked up).hif with dbDue := [none] } }
     s.hif.dbDue = [none] ∧
     (State.dma { s with hif := { s.hif with dbDue := [] } } 64 3 false 0 0 (256 * s.rd Reg.HIF_DB_BASE_ADDR + 4 * 0) d0).1 = true) ∧
    up.barOpen (0x11010 + 0x20 * 63) = true ∧ up.on (Reg.HIF_RING_STAT_ACTIVE 63) = false ∧
    (up [(Reg.HIF_RING_STAT_ACTIVE 0, 1)]).on (Reg.HIF_RING_STAT_ACTIVE 0) = true := by decide +kernel

theorem test_witness_DescriptorFetchCompletes :
    (let s := ringK 0 0 1
     s.hostUp = true ∧ s.on (Reg.HIF_RING_CFG_EN 0) = true ∧ (s.ring 0).stopped = false ∧ s.chanFree 0 = true ∧
     (s.ring 0).fetched.length < s.sqFill 0 ∧ s.rd (Reg.HIF_RING_STAT_BACKLOG 0) < 256 ∧ s.pwr.sleep = none ∧
     (s.dma 0 0 false 0 0 (64 * s.rd (Reg.HIF_RING_SQ_ADDR 0) + 32 * (0 % 2 ^ s.rd (Reg.HIF_RING_CFG_SQ_LOG2 0))) d0).1 = true ∧
     s.rd (Reg.HIF_RING_CFG_KIND 0) ≠ 5 ∧ mgmtWellFormed 0 = true ∧ mgmtWellFormed 0x0C = false) ∧
    (let s := ringK 63 1 1
     (s.ring 63).fetched.length < s.sqFill 63 ∧ s.rd (Reg.HIF_RING_CFG_KIND 63) = 1 ∧
     (s.dma 63 0 false 0 0 (64 * s.rd (Reg.HIF_RING_SQ_ADDR 63) + 32 * (0 % 2 ^ s.rd (Reg.HIF_RING_CFG_SQ_LOG2 63))) d0).1 = true) ∧
    (let s := ringK 63 2 1
     (s.ring 63).fetched.length < s.sqFill 63 ∧ s.rd (Reg.HIF_RING_CFG_KIND 63) = 2 ∧ bufWellFormed 0x10 = true ∧
     bufWellFormed 0x11 = false) := by decide +kernel

theorem test_witness_CompletionAndEventWritesComplete :
    (let s := (ringK 5 3 0).setRing 5 { Ring.init with held := [7], unsig := 1 }
     s.hostUp = true ∧ s.chanFree 5 = true ∧ 0 < min (s.ring 5).held.length (s.cqFree 5) ∧
     (s.dma 5 2 true 0 0 (64 * s.rd (Reg.HIF_RING_CQ_ADDR 5) + 16 * (0 % 2 ^ s.rd (Reg.HIF_RING_CFG_CQ_LOG2 5))) d0).1 = true ∧
     s.rd (Reg.HIF_RING_CFG_KIND 5) ≠ 4) ∧
    (let s := at_ (((ringK 5 3 0).wr (Reg.HIF_RING_IRQ_IRQ_EN 5) 1).setRing 5 { Ring.init with unsig := 1 }) (1000 * 65535)
     s.on (Reg.HIF_RING_IRQ_IRQ_EN 5) = true ∧ 0 < (s.ring 5).unsig ∧
     (s.ring 5).unsigAt + 1000 * s.rd (Reg.HIF_RING_IRQ_COAL_US 5) ≤ s.now) ∧
    (let s := put (ringK 5 5 0) [(Reg.HIF_EVQ_EN 3, 1), (Reg.HIF_EVQ_RING 3, 5), (Reg.HIF_EVT_ROUTE_EVQ 240, 3)]
     let s : State := { s with hif := { s.hif with evWait := [⟨240, 1, 0⟩] } }
     s.evqRing 3 = some 5 ∧ s.hif.evWait.find? (fun w => s.rd (Reg.HIF_EVT_ROUTE_EVQ w.src) == 3) = some ⟨240, 1, 0⟩ ∧
     s.hostUp = true ∧ s.chanFree 5 = true ∧ s.cqFree 5 ≠ 0 ∧
     (s.dma 5 2 true 0 0 (64 * s.rd (Reg.HIF_RING_CQ_ADDR 5) + 16 * (0 % 2 ^ s.rd (Reg.HIF_RING_CFG_CQ_LOG2 5))) d0).1 = true) ∧
    (let s := put (ringK 5 5 0) [(Reg.HIF_EVQ_EN 3, 1), (Reg.HIF_EVQ_RING 3, 5), (Reg.HIF_EVT_ROUTE_EVQ 240, 3)]
     let s : State := { s.setRing 5 { Ring.init with cqTail := 16 } with hif :=
       { (s.setRing 5 { Ring.init with cqTail := 16 }).hif with evWait := [⟨240, 1, 0⟩] } }
     s.evqRing 3 = some 5 ∧ s.hif.evWait.find? (fun w => s.rd (Reg.HIF_EVT_ROUTE_EVQ w.src) == 3) = some ⟨240, 1, 0⟩ ∧
     s.hostUp = true ∧ s.chanFree 5 = true ∧ s.cqFree 5 = 0) := by decide +kernel

def susp0 : Susp := ⟨1, 1, false, 0, 0, 1, 0, none⟩

theorem test_witness_TranslationCommandsComplete :
    (let s : State := { up with xlt := { up.xlt with invLow := 48, invs := [⟨none⟩] } }
     s.barOpen 0x2002C = true ∧ 12 ≤ s.xlt.invLow.toNat % 64 ∧ s.xlt.invLow.toNat % 64 ≤ 48 ∧ s.xlt.invs = [⟨none⟩] ∧
     s.barOpen 0x20018 = true) ∧
    (let s : State := { up with xlt := { up.xlt with susp := [(63, susp0)] } }
     s.Serving ∧ kvGet? s.xlt.susp 63 = some susp0 ∧ susp0.resume = none ∧ s.xlt.invs = [] ∧ susp0.stream = 1 ∧
     kvGet? s.xlt.susp 62 = none) ∧
    ((ringK 63 2 1).hostUp = true ∧ (ringK 63 2 1).chanFree 63 = true ∧ ((ringK 63 2 1).readInFlight 63).isSome = true) := by
  decide +kernel

theorem test_witness_RegisterAccessesComplete :
    (let s := up.breakSequence 0x11000
     s.mayWrite .host 0x11000 = true ∧ (s.ownRow .host 0x11000 1).isNone = true ∧ s.discarded .host 0x11000 = none) ∧
    ((0x11002 : BitVec 26).toNat % 4 ≠ 0) ∧
    (up.on Reg.GLB_SNAP_CTL_MODE = false ∧ up.barOpen (0x40010 : BitVec 26).toNat = true ∧ up.windowAt 0x40010 = none ∧
      ((findReg 0x40010).map (fun p => (p.1.isSnap, p.2))) = some (true, 0x40010)) ∧
    (let s := up
     (s.windows.head?.map (fun w => (s.windowAt w.base == some w) && s.barOpen w.base)) = some true) ∧
    bitOf (3 : BitVec 32).toNat 0 = true := by decide +kernel

/-! ### Witnesses: time base, ports, rings, ingest -/

/-- A record's value from its fields: byte offset and value. -/
def rv (l : List (Nat × Nat)) : Nat := (l.map (fun p => p.2 * 2 ^ (8 * p.1))).sum

theorem test_witness_TimeBaseCommandsComplete :
    (up.mayWrite .firmware 0x4000C = true ∧ up.ownsTb .firmware = true ∧ up.tbState ≠ tbHOLDOVER ∧
      incrLegal ((2 : BitVec 32).toNat % 256 * 2 ^ 32 + up.tb.incrLow.toNat) ∧
      ¬ incrLegal ((3 : BitVec 32).toNat % 256 * 2 ^ 32 + up.tb.incrLow.toNat)) ∧
    (up.mayWrite .host 0x4000C = true ∧ up.ownsTb .host = false) ∧
    (up.mayWrite .firmware 0x40024 = true ∧ up.producing = false) ∧
    (let s := up [(Reg.STCH_STAT_PRODUCING, 1)]
     s.producing = true ∧ s.stepDelta 0x80000000 < 0) ∧
    (up.barOpen (0x40068 + 0x10 * 3) = true ∧ bitOf (0x10000 : BitVec 32).toNat 17 = false ∧ bitOf (0x10000 : BitVec 32).toNat 16 = true) ∧
    ({ up with tb := { up.tb with almNext := [(3, (0, false))] } } : State).almDue 3 = true ∧
    (let s := up [(Reg.TB_STAT_STATE, 3)]
     s.tbState = tbHOLDOVER ∧ s.tb.holdNext ≤ s.now) ∧
    (let s := at_ (up [(Reg.TB_UTC_LEAP_PEND, 1), (Reg.TB_UTC_OFFSET, 0)]) (86401 * nsPerS)
     s.leapDue = true ∧ s.rd Reg.TB_UTC_LEAP_PEND = 1) ∧
    (let s := up [(Reg.TB_UTC_LSO, 1)]
     s.on Reg.TB_UTC_LSO = true ∧ s.tb.lsoUntil ≤ s.now) ∧
    (let s := cfg up [(Reg.TB_CTL_FREF, 1)]
     s.cfOn Reg.TB_CTL_FREF = true ∧ s.tb.ref10mPresent = true) := by decide +kernel

def irig0 : IrigFrame := ⟨0, true, 1, 7, 0, false, false, 0, 0⟩
def ptp0 (k : PtpKind) : PtpMsg := ⟨k, 0, true, 0, 0, 0, 0, 0, false, false, false, none, none⟩

theorem test_witness_ReferencesAndPulsesComplete :
    (let s := cfg (up [(Reg.TB_STAT_STATE, 3)]) [(Reg.TB_REF_PRI, 2)]
     let s : State := { s with tb := { s.tb with refs := { s.tb.refs with irigGood := 2, irigLast := some (0, 0) } } }
     (s.tbState = tbFREE ∨ s.tbState = tbHOLDOVER) ∧ s.bestRef ≠ 0) ∧
    (let s := up [(Reg.TB_STAT_ACTIVE_REF, 2)]
     s.rd Reg.TB_STAT_ACTIVE_REF ≠ 0 ∧ s.refLost (s.rd Reg.TB_STAT_ACTIVE_REF) = true) ∧
    (let s := cfg (up [(Reg.TB_STAT_ACTIVE_REF, 3)]) [(Reg.TB_REF_PRI, 2)]
     let s : State := { s with tb := { s.tb with refs := { s.tb.refs with irigGood := 2, irigLast := some (0, 0), ppsLast := some 0 } } }
     s.rd Reg.TB_STAT_ACTIVE_REF ≠ 0 ∧ s.refLost (s.rd Reg.TB_STAT_ACTIVE_REF) = false ∧ s.bestRef ≠ 0 ∧
     s.bestRef ≠ s.rd Reg.TB_STAT_ACTIVE_REF) ∧
    (let s := at_ (up [(Reg.TB_STAT_ACTIVE_REF, 3), (Reg.TB_STAT_STATE, 2)]) 1001000001
     let s : State := { s with tb := { s.tb with refs := { s.tb.refs with ppsLast := some 0 } } }
     s.tb.refs.ppsLast ≠ none ∧ s.refLost refPPS = true ∧ (s.hwLoss refPPS).tb.refs.irigLast = none) ∧
    (let s := up [(Reg.TB_STAT_STATE, 1)]
     let s : State := { s with tb := { s.tb with lockCount := 16 } }
     s.tbState = tbACQUIRING ∧ 16 ≤ s.tb.lockCount) ∧
    (up.dark = false ∧ up.tb.refs.ppsLast = none) ∧
    (let s := cfg { up with tb := { up.tb with ppsDue := true } } [(Reg.TB_CTL_PPS_OUT_MODE, 1)]
     s.tb.ppsDue = true ∧ s.dark = false ∧ s.cf Reg.TB_CTL_PPS_OUT_MODE = 1) ∧
    (let s := cfg { up with tb := { up.tb with ppsDue := true } } [(Reg.TB_CTL_PPS_OUT_MODE, 0)]
     s.tb.ppsDue = true ∧ s.cf Reg.TB_CTL_PPS_OUT_MODE = 0) ∧
    (let s : State := { up with tb := { up.tb with ppsOut := true } }
     s.tb.ppsOut = true ∧ s.tb.ppsOutEnd ≤ s.now) ∧
    ({ irig0 with parityOk := false } : IrigFrame).parityOk = false ∧ irig0.parityOk = true ∧
    (cfg up [(Reg.TB_IRIG_IEEE1344, 0)]).cfOn Reg.TB_IRIG_IEEE1344 = false ∧ up.tb.refs.irigLast = none := by decide +kernel

theorem test_witness_PtpCommandsComplete :
    (let s := cfg up [(Reg.TB_PTP_PORT_ROLE 47, 2), (Reg.TB_PTP_CFG_DOMAIN, 0)]
     s.dark = false ∧ s.cf (Reg.TB_PTP_PORT_ROLE 47) ≠ 0 ∧ (ptp0 .sync).supported = true ∧ (ptp0 .sync).domain = s.cf Reg.TB_PTP_CFG_DOMAIN ∧
     (ptp0 .sync).tags ≤ 1 ∧ s.cfOn Reg.ING_RING_UNM_EN = false ∧ s.slavePort = some 47 ∧
     kvGet? s.tb.ptpSent (16 * 47 + PtpKind.pdelayReq.num) = none ∧
     ({ ptp0 .sync with domain := 255 } : PtpMsg).domain ≠ s.cf Reg.TB_PTP_CFG_DOMAIN) ∧
    (let s := at_ (cfg up [(Reg.TB_PTP_PORT_ROLE 0, 2), (Reg.TB_PTP_PORT_ROLE 47, 2)]) (3 * nsPerS)
     filterBelow 48 (fun n => s.cf (Reg.TB_PTP_PORT_ROLE n) == 2) = [0, 47] ∧ s.tb.ptpPort = none ∧
     s.tb.refs.ptpLastAnnounce + 3 * nsPerS ≤ s.now) := by decide +kernel

/-- Port 47 configured with a MODE, its address 0. -/
def ported : State := cfg up [(Reg.PORT_CFG_MODE 47, 1), (Reg.PORT_CFG_MAX_FRAME 47, 2000)]
def tx0 : TxFrame := fwFrame .prpSupervision 64

theorem test_witness_PortCommandsComplete :
    (let z (f : Frame) : State := (ported.capFrame 47 f).countLine 47 f
     ported.cf (Reg.PORT_CFG_MODE 47) ≠ 0 ∧ ported.deaf = false ∧ okFrame.ethType ≠ 0x8808 ∧ (z okFrame).rejectCounter 47 okFrame = none ∧
      (((z okFrame).countAccepted 47 okFrame).prpStage 47 okFrame).1 = true ∧
      ((z { okFrame with len := 63 }).rejectCounter 47 { okFrame with len := 63 }).isSome = true ∧
      ((ported.capFrame 47 { okFrame with ethType := 0x8808 }).rejectCounter 47 { okFrame with ethType := 0x8808 }).isSome = true ∧
      ported.dark = false ∧ ported.linkOn 47 = false ∧ (ported.prt 47).idleUntil ≤ ported.now) ∧
    (let s := cfg ported [(Reg.PORT_CFG_HARN_KIND 47, 1), (Reg.PORT_CFG_HARN_ID 47, 24)]
     let s : State := { s with port := { s.port with dup := [(24, [⟨0, 9, false, 0⟩])] } }
     let f : Frame := { okFrame with prp := some ⟨9, true⟩ }
     let z := (s.capFrame 47 f).countLine 47 f
     z.rejectCounter 47 f = none ∧ ((z.countAccepted 47 f).prpStage 47 f).1 = false) ∧
    (cfg up [(Reg.PORT_CFG_MODE 47, 0)]).cf (Reg.PORT_CFG_MODE 47) = 0 ∧
    (let s := cfg up [(Reg.PORT_CFG_HARN_ID 46, 24), (Reg.PORT_CFG_HARN_ID 47, 24), (Reg.PORT_CFG_HARN_KIND 46, 1)]
     s.act.members 24 = [46, 47] ∧ s.cf (Reg.PORT_CFG_HARN_KIND 46) = 1 ∧ s.dark = false ∧ kvGet? s.port.prpSupLast 24 = none) ∧
    (let s := cfg (asleep ported .asleep none) [(Reg.PWR_WAKE_PORT_SEL, 0x80 + 47)]
     s.cf (Reg.PORT_CFG_MODE 47) ≠ 0 ∧ 47 ∈ s.wakePorts ∧ s.rd Reg.PWR_STAT_PHASE ≠ 0 ∧ s.linkOn 47 = false) ∧
    (ported.wr (Reg.PORT_STAT_LINK 47) 1).linkOn 47 = true ∧
    (let s := ported.setPrt 47 { Port.init with queues := List.replicate 7 [] ++ [[tx0]] }
     s.dark = false ∧ (s.prt 47).top = some (7, tx0) ∧ s.linkOn 47 = false ∧ (s.wr (Reg.PORT_STAT_LINK 47) 1).linkOn 47 = true ∧
     ((s.wr (Reg.PORT_STAT_LINK 47) 1).prt 47).top = some (7, tx0) ∧ tx0.harness = 0) := by decide +kernel

/-- A frame waits for ring 9. -/
def delivering (kind : Nat) (fetched : List (Option Nat)) : State :=
  let s := (ringK 9 kind 1).setRing 9 { Ring.init with sqTail := 1, fetched }
  let s := s.wr (Reg.HIF_RING_CFG_BUF_LOG2 9) 11
  { s with port := { s.port with rxq := [⟨9, 0, 47, 0, 1, okFrame⟩] } }

theorem test_witness_TransmitAndReceiveRingsComplete :
    (((ringK 9 1 1).setRing 9 { Ring.init with fetched := [some 0x20] }).txHead 9 [] none d0).isSome = true ∧
    (let d := 0x20 + 2 ^ 32 * 47 + 2 ^ 48 * 60
     let s := (cfg (ringK 9 1 1) [(Reg.PORT_TX_LIM_TX_LIMIT 47, 8), (Reg.PORT_CFG_MODE 47, 1), (Reg.PORT_CFG_MAX_FRAME 47, 2000)]).setRing 9 { Ring.init with sqTail := 1, fetched := [some d] }
     s.ringIs 9 1 = true ∧ s.hostUp = true ∧ s.chanFree 9 = true ∧ s.rd (Reg.HIF_RING_STAT_BACKLOG 9) < 256 ∧
     (s.ring 9).fetched = [some d] ∧ s.txCheck d none = none ∧ txType d = 0x20 ∧ s.txFits (txDest d) (txLen d + 4) = true ∧
     (s.dma 9 1 false (s.rd (Reg.HIF_RING_STAT_SQ_HEAD 9)) 0 (bits d 64 48) d0).1 = true) ∧
    (let s := delivering 1 []
     s.port.rxq.find? (fun i => i.ring = 9) = some ⟨9, 0, 47, 0, 1, okFrame⟩ ∧ s.ringIs 9 2 = false) ∧
    (let s := delivering 2 []
     s.ringIs 9 2 = true ∧ s.chanFree 9 = true ∧ s.buffers 9 = 0 ∧
     (s.setRing 9 { s.ring 9 with sqTail := 0 }).moreBuffers 9 = false ∧ (s.setRing 9 { s.ring 9 with sqTail := 0 }).buffers 9 = 0) ∧
    (let s := delivering 2 [some 0]
     let need := (okFrame.len - 4 + s.bufSize 9 - 1) / s.bufSize 9
     s.ringIs 9 2 = true ∧ s.chanFree 9 = true ∧ s.hostUp = true ∧ 0 < s.buffers 9 ∧ need ≤ s.buffers 9 ∧
     (s.dma 9 1 true (s.rd (Reg.HIF_RING_STAT_SQ_HEAD 9)) (min need (0 / s.bufSize 9 + 1)) (s.bufferAddr 9 (0 / s.bufSize 9))
       ⟨0 % s.bufSize 9, ⟨[]⟩⟩).1 = true) := by decide +kernel

def svBody : SvFrame := ⟨0, 1, [], 0, false, [⟨0, 0, []⟩]⟩
def svFrame0 : Frame := { okFrame with body := .sv svBody }
def c37a : C37 := ⟨.data, 2, 7, 0, 0, 0, true, 16, [⟨0, [], 0, 0, [], []⟩], 0, none, none, []⟩
def ipA (port : Nat) : IpHdr := ⟨false, 0, 0, true, false, false, false, 0, port, true, false⟩
def c37Frame (m : C37) (port : Nat) : Frame := { okFrame with body := .c37 m, ip := some (ipA port) }

/-- Entry 8191 reads sampled values of APPID 0 from any port; entry 7 data frames at 50 per second of one block. -/
def svEntry : Nat := rv [(0, 0x84), (2, 0xFF), (32, crc32 []), (45, 1)]
def c37Entry : Nat := rv [(0, 0x81), (2, 0xFF), (6, 7), (40, 50), (46, 1), (72, 16)]
def inQueue (s : State) (f : Frame) : State := { s with port := { s.port with inq := [⟨47, none, 0, 1, f⟩] } }
def parsing (s : State) (e : Nat) (f : Frame) : State := { s with ing := { s.ing with parsed := [⟨47, e, 0, 0, f, none, 1⟩] } }
def counted (s : State) : State := State.bump { s with port := { s.port with inq := [] } } .ing C.ING_FRAMES
def stripped (s : State) : State := { s with ing := { s.ing with parsed := [] } }

/-- Output 63 sends to port 47 with IDCODE 7 and is commanded at UDP port 4713. -/
def outRec (r : Nat) : State := tabs up [(16, 63, r)]

/-- Entry 8191 has a connection. -/
def open0 : State := up.setConn 8191 ⟨2, 5, 0, 0, [], 0, []⟩

theorem test_witness_IngestControlCompletes :
    (let f := { okFrame with vlanTags := 2 }
     (counted (inQueue up f)).transport 47 f = some C.ING_PARSE_ERR) ∧
    (let s := inQueue (tabs up [(1, 8191, svEntry)]) svFrame0
     (counted s).transport 47 svFrame0 = none ∧ (counted s).reader 0 svFrame0 = .ok (0, 8191) ∧
     ((counted s).cfgOf 0).portAdmits (((counted s).cfgOf 0).tab 1 8191) 47 = true) ∧
    ((counted (inQueue up okFrame)).transport 47 okFrame = none ∧ okFrame.body = .raw) ∧
    (let s := up.setConn 8191 ⟨1, 0, 0, 0, [], 0, []⟩
     let z := s.setConn 8191 { s.conn 8191 with st := 2, next := 5, retryAt := 0, wait := 0, unacked := [] }
     (s.conn 8191).st = 1 ∧ (z.act.tab 1 8191).bitAt 0 6 = false ∧
     ((tabs s [(1, 8191, rv [(0, 0xC2)])]).act.tab 1 8191).bitAt 0 6 = true) ∧
    ((open0.conn 8191).st = 2 ∧ (open0.conn 8191).wait = 0) ∧
    ((up.setConn 8191 ⟨3, 0, 0, 1, [], 0, []⟩).conn 8191).st = 3 ∧
    ((up.setConn 8191 ⟨3, 0, 0, 1, [], 0, []⟩).conn 8191).retryAt ≤ up.now ∧
    (let f : Frame := { okFrame with body := .tcp 5 10 [] [] }
     let w := stripped (parsing open0 8191 f)
     let k := (w.conn 8191).acked 10
     k.st = 2 ∧ (5 : BitVec 32).toNat = k.next ∧ (6 : BitVec 32).toNat ≠ k.next ∧
     tcpFrames (if (w.act.tab 1 8191).bitsAt 3 0 2 = 0 then 0 else 17) 0 [] = ([], [])) ∧
    (let m : C37 := { c37a with typ := .cfg2, cfg := some ⟨[], false, 0, 0, 0⟩ }
     let w := stripped (parsing (cfg (tabs up [(1, 8190, rv [(0, 0xC1)])]) [(Reg.ING_CTL_FW_STAGE, 1)]) 8190 (c37Frame m 0))
     m.typ = .cfg2 ∧ m.cfg.isSome = true ∧ m.chkOk = true ∧ w.cfOn Reg.ING_CTL_FW_STAGE = true ∧ 8190 < noEntry ∧
     (w.act.tab 1 8190).bitAt 0 6 = true) ∧
    (let m : C37 := { c37a with typ := .command, cmd := 2 }
     let r := rv [(0, 0x80), (1, 47), (4, 7), (34, 4713)]
     let w := stripped (parsing (outRec r) noEntry (c37Frame m 4713))
     (w.addressed 47 (c37Frame m 4713) m).isSome = true) := by decide +kernel

def goosePdu0 : GoosePdu := ⟨0, [], 0, false, false, 1, 1, 1000, some 0, []⟩
def spdu0 : Spdu := ⟨0xA0, 1, 0, 1, false, 0, 0, 0, .goose goosePdu0, []⟩

theorem test_witness_IngestDataCompletes :
    (let s := parsing (tabs up [(1, 7, c37Entry)]) 7 (c37Frame c37a 0)
     let u := stripped s
     let p : Parsed := ⟨47, 7, 0, 0, c37Frame c37a 0, none, 1⟩
     let c := u.parseCfg p
     let r := c.tab 1 7
     let raw := u.c37Instant (r.at 60 4) c37a
     let t := snap (r.at 40 2) raw
     let w := (u.fresh 7 (r.at 40 2) t (r.bitsAt 3 0 2 != 0)).2
     s.ing.parsed = [p] ∧ c37a.typ = .data ∧ c37a.sound = true ∧ c37a.framesize = r.at 72 2 ∧
     c37a.blocks.length = r.at 46 1 ∧ blocksFit c 7 c37a.blocks = true ∧ u.endAuth (r.bitsAt 3 0 2) none [] [] 0 = .ok (2 ^ 8) ∧
     (if t ≤ raw then raw - t else t - raw) ≤ c.fld Reg.ING_CTL_GRID_TOL_US * 1000 ∧ u.tooFar t = false ∧
     (u.fresh 7 (r.at 40 2) t (r.bitsAt 3 0 2 != 0)).1 = true ∧ w.tqFault (r.bitsAt 47 0 4) t c37a.tqFlags.toNat = false ∧
     c37a.blocks.any (fun b => bitOf b.stat.toNat 13) = false ∧ ({ c37a with chkOk := false } : C37).sound = false) ∧
    (let s := tabs up [(1, 8191, svEntry)]
     let r := s.act.tab 1 8191
     svBody.noAsdu = r.bitsAt 45 0 4 ∧ svBody.asdus.length = svBody.noAsdu ∧ (∀ a ∈ svBody.asdus, a.values.length = r.at 54 1) ∧
     r.at 32 4 = crc32 svBody.svId ∧ r.at 56 4 = svBody.confRev.toNat) ∧
    up.endAuth 0 none [] [] 0 = .ok (2 ^ 8) ∧ spdu0.nApdus = 1 ∧ spdu0.encrypted = false ∧
    spdu0.sigAlg = ((tabs up [(1, 8191, svEntry)]).act.tab 1 8191).bitsAt 3 0 2 ∧ spdu0.sessionId ≠ 0xA1 ∧
    ({ spdu0 with encrypted := true } : Spdu).encrypted = true ∧
    (let g : GooseLast := ⟨1, 1, some 0, ⟨8191, 0, 0, 0, 0, 0, [], [], []⟩⟩
     let s := up.setEnt 8191 { up.ent 8191 with goose := some g }
     (s.ent 8191).goose = some g ∧ 0 ≤ s.now) := by decide +kernel

/-! ### Witnesses: estimation, analyses, triggers, capture, publication -/

def rev0 : Revision :=
  { instant := 0, k := 0, rev := 0, epoch := 0, fs := 10, material := false, complete := true, deadline := false, step := false
    final := false, retiring := false, gap := false, team := false, expected := 0, length := 64, release := 0, recs := [] }
def rev1 : Revision := { rev0 with rev := 1, material := true }
def working (s : State) (who : Consumer) (v : Revision) : State := { s with stch := { s.stch with work := [⟨who, v⟩] } }

def slice0 (p : SlicePhase) : Slice :=
  { instant := 0, phase := p, home := none, final := false, placed := [], deadline := false, waited := false, step := false
    stalled := false, gap := false, latest := none, expected := [], gathered := [], arrivals := 0, gatherAt := 0, gatherDue := false }
def slicing (s : State) (x : Slice) : State := { s with stch := { s.stch with slices := [x] } }

def smp0 : PheSmp := ⟨1023, 0, 0, [], [], [], 0⟩
def meas0 : Meas := ⟨8191, 0, 0, 0, 0, 0, [], [], []⟩
def phe1 (x : PheChan) (s : State) : State := { s with phe := { s.phe with chans := [(1023, x)] } }

theorem test_witness_PhasorCommandsComplete :
    (let s := phe1 { PheChan.init with next := some 0 } { up with phe := { up.phe with inbox := [smp0] } }
     let u := State.bump { s with phe := { s.phe with inbox := [] } } .phe C.PHE_SAMPLES
     s.phe.inbox = [smp0] ∧ smp0.chan < 1024 ∧ (u.pheChan 1023).done = [] ∧ (u.pheChan 1023).next = some 0) ∧
    (let s := cfg (tabs (phe1 { PheChan.init with next := some 0 } up) [(3, 1023, 0x80 + 2 ^ 48 * 9), (1, 9, rv [(40, 4000)])])
       [(Reg.STCH_CTL_EN, 1), (Reg.PHE_CTL_WAIT_US, 0)]
     let s := at_ s (10 * nsPerS)
     let w := s.pheWindow 1023 0
     (s.pheChan 1023).next = some 0 ∧ s.pheActive 1023 0 = true ∧
     (2 * (w.2.2 + w.2.1 - 1).toNat * nsPerS + w.1) / (2 * w.1) + s.cf Reg.PHE_CTL_WAIT_US * 1000 ≤ s.now) ∧
    (let s := cfg (at_ (phe1 { PheChan.init with runs := [⟨0, 0, []⟩] } up) 20000) [(Reg.PHE_CTL_DUAL, 1)]
     (s.pheChan 1023).runs = [⟨0, 0, []⟩] ∧ (s.cfgAt 0).fld Reg.PHE_CTL_DUAL = 1 ∧ 0 + 20000 ≤ s.now) := by decide +kernel

theorem test_witness_StitcherCommandsComplete :
    (up [(Reg.STCH_STAT_PRODUCING, 1)]).openDue = true ∧
    ({ up with stch := { up.stch with inbox := [meas0] } } : State).stch.inbox = [meas0] ∧
    (let s := at_ (slicing (cfg (tabs up [(1, 0, rv [(0, 0x81), (40, 10)])]) [(Reg.STCH_CTL_EN, 1)]) (slice0 .opened)) (10 * nsPerS)
     let x := slice0 .opened
     s.openSlices = [x] ∧ x.deadline = false ∧ s.deadlineOf x ≤ s.now ∧ x.instant ≤ s.now ∧
     (s.expectedIn x).all (s.presentIn x) = false) ∧
    (let x := slice0 .gathering
     let s := at_ (slicing up x) (1000 * 65535)
     s.stch.slices = [x] ∧ x.phase = .gathering ∧ x.gatherDue = false ∧
     x.gatherAt + 1000 * (s.sliceCfg x).fld Reg.STCH_CTL2_REV_GATHER_US ≤ s.now) ∧
    (let x := { slice0 .gathering with gatherDue := true }
     (slicing up x).stch.slices = [x] ∧ x.stalled = false ∧ x.gatherDue = true) ∧
    (let x := slice0 .released
     let s := at_ (slicing up x) (65536 * 1000000)
     s.stch.slices = [x] ∧ x.phase = .released ∧ s.horizonOf x ≤ s.now) ∧
    (let x := { slice0 .opened with stalled := true }
     let s := slicing up x
     s.stch.slices = [x] ∧ x.stalled = true ∧ x.phase = .opened ∧
     (makeRoom s.revFrozen s.storeCap (s.sliceCfg x).sliceLength s.stch.store.length s.stch.store).isSome = true) ∧
    (let x := { slice0 .gathering with stalled := true }
     let s := slicing up x
     s.stch.slices = [x] ∧ x.stalled = true ∧ x.phase = .gathering ∧
     (makeRoom s.revFrozen s.storeCap (s.sliceCfg x).sliceLength s.stch.store.length s.stch.store).isSome = true) ∧
    (let x := slice0 .opened
     (slicing up x).openSlices = [x] ∧ (slicing up x).sliceReady x = true ∧
     (let y := { x with instant := 1 }
      (slicing up y).openSlices = [y] ∧ (slicing up y).sliceReady y = false)) := by decide +kernel

def factor0 (id cut : Nat) : Factor := ⟨id, Cfg.reset.lseModel, [], [], [], 0, cut⟩

theorem test_witness_EstimationCommandsComplete :
    (let s := cfg (tabs (working up .topo rev0) [(5, 0, rv [(12, 0x80)])]) [(Reg.LSE_CTL_EN, 0)]
     let s : State := { s with lse := { s.lse with newest := 1 } }
     let off : State := { s with stch := { s.stch with work := [] } }
     let z := off.setSwitches (s.cfgRev rev0) rev0
     s.stch.work = [⟨.topo, rev0⟩] ∧ (s.cfgRev rev0).fld Reg.LSE_CTL_EN = 0 ∧ (s.cfgRev rev0).nodes ≠ [] ∧
     rev0.instant < z.lse.newest ∧
     (let s : State := { s with lse := { s.lse with newest := 0 } }
      let off : State := { s with stch := { s.stch with work := [] } }
      (off.setSwitches (s.cfgRev rev0) rev0).lse.newest ≤ rev0.instant)) ∧
    (let s := working { up with lse := { up.lse with factors := [factor0 2 5], dropped := [(0, Cfg.reset.lseModel)] } } .lse rev1
     let off : State := { s with stch := { s.stch with work := [] } }
     s.stch.work = [⟨.lse, rev1⟩] ∧ rev1.rev ≠ 0 ∧ off.factorGone (s.cfgRev rev1) rev1.instant = true) ∧
    (let s := working { up with lse := { up.lse with factors := [factor0 1 0] } } .lse rev1
     let off : State := { s with stch := { s.stch with work := [] } }
     s.stch.work = [⟨.lse, rev1⟩] ∧ off.factorGone (s.cfgRev rev1) rev1.instant = false ∧
     off.factorFor (s.cfgRev rev1) rev1.instant = some (factor0 1 0)) ∧
    (let s := working { up with lse := { up.lse with factors := [factor0 1 0] } } .lse rev0
     let u := State.persist { s with stch := { s.stch with work := [] } } (s.cfgRev rev0) rev0
     s.stch.work = [⟨.lse, rev0⟩] ∧ rev0.rev = 0 ∧ u.1 = false ∧
     State.factorFor { u.2 with lse := { u.2.lse with lastEst := max u.2.lse.lastEst rev0.instant } } (s.cfgRev rev0) rev0.instant =
       some (factor0 1 0)) ∧
    (let r : Refactor := ⟨Cfg.reset.lseModel, [], [], 0, false⟩
     let s : State := { up with lse := { up.lse with running := some r } }
     s.lse.running = some r ∧ s.lse.held = false) := by decide +kernel

/-- Set 15 tracks the reference signal of record 2047, and its update is in progress. -/
def tracking (warm : Bool) : State :=
  let s := cfg (tabs up [(9, 2047, rv [(2, 15), (4, 0xC0)])]) [(Reg.OSC_SET_B_FO_WIN_S 15, 60)]
  { s with osc := { s.osc with sets := [(15, { OscSet.fresh 0 with warm, run := some ⟨0, 0, 0, 0, 0⟩ })] } }

/-- What the update of set 15 begins with. -/
def tracked (warm : Bool) : Bool × Bool × State :=
  let s := tracking warm
  ((s.setOsc 15 { s.oscSet 15 with run := none }).bump .osc C.OSC_UPDATES 15).oscWarm (s.cfgOf 0) 15 0

theorem test_witness_ModeTrackingCommandsComplete :
    (working up .osc rev0).stch.work = [⟨.osc, rev0⟩] ∧ rev0.rev = 0 ∧ (working up .osc rev1).stch.work = [⟨.osc, rev1⟩] ∧
    (((tracking true).oscSet 15).run = some ⟨0, 0, 0, 0, 0⟩ ∧ (tracked true).1 = true ∧ (tracked false).1 = false ∧
      (let g := (tracked true).2.2.oscSet 15
       let c := (tracking true).cfgOf 0
       (g.track c 15 (g.window (c.oscWindow 15) 0)).1 = [] ∧ (g.track c 15 (g.window (c.oscWindow 15) 0)).2.1 = [] ∧
       (let g := (tracked false).2.2.oscSet 15
        (g.track c 15 (g.window (c.oscWindow 15) 0)).1 = [] ∧ (g.track c 15 (g.window (c.oscWindow 15) 0)).2.1 = [] ∧
        (g.track c 15 (g.window (c.oscWindow 15) 0)).2.2.noRef c 15 = false))) := by decide +kernel

/-- Its last hypothesis: with no alarm record the alarms stay as they are. -/
theorem test_witness_ModeTrackingCommandsComplete_alarms (s : State) (modes : List OscMode) (fos : List OscFo) :
    s.oscAlarms ((tracking false).cfgOf 0) 15 modes fos = s := by
  have h : ((tracking false).cfgOf 0).listed 11 = [] := by decide +kernel
  simp [State.oscAlarms, h]

def goose0 : GooseState := ⟨0, 0, false, 0, 0, 0, 0, 0, 0, 0⟩

theorem test_witness_IslandingCommandsComplete :
    (working up .rules rev0).stch.work = [⟨.rules, rev0⟩] ∧
    (let s : State := { up with isl := { up.isl with cluDue := some 0 } }
     s.isl.cluDue = some 0 ∧ s.isl.reclust = none) ∧
    (let s : State := { up with isl := { up.isl with reclust := some 0 } }
     let c := s.cfgAt 0
     let n := c.fld Reg.ISL_COH_A_CLU_WIN
     s.isl.reclust = some 0 ∧
     cohComponents ((s.isl.coh.filter (fun x => decide (x.t ≤ 0))).take n) n (c.fld Reg.ISL_COH_B_DF_COH) = [] ∧
     (State.bump { s with isl := { s.isl with reclust := none, newGroups := some (s.now, []) } } .isl C.ISL_RECLUSTERS).isl.groups = []) ∧
    (let s := cfg { up with isl := { up.isl with reclust := some 0, coh := [⟨0, [(5, (0, 0, 0))]⟩] } } [(Reg.ISL_COH_A_CLU_WIN, 1)]
     let c := s.cfgAt 0
     let n := c.fld Reg.ISL_COH_A_CLU_WIN
     let new := cohComponents ((s.isl.coh.filter (fun x => decide (x.t ≤ 0))).take n) n (c.fld Reg.ISL_COH_B_DF_COH)
     s.isl.reclust = some 0 ∧ new.filter (fun g => !s.isl.groups.any (fun o => o.members == g.2)) = [(5, [5])]) ∧
    ({ up with isl := { up.isl with confDue := [65535] } } : State).isl.confDue = [65535] ∧
    (let s := tabs (up [(Reg.STCH_STAT_PRODUCING, 1)]) [(14, 7, 0x80)]
     let s : State := { s with isl := { s.isl with pubs := [(7, goose0)] } }
     kvGet? s.isl.pubs 7 = some goose0 ∧ s.gooseMode ≠ 0 ∧ s.pubOn 7 = true ∧ goose0.next ≤ s.now) ∧
    (let s : State := { up with isl := { up.isl with pubs := [(7, goose0)] } }
     kvGet? s.isl.pubs 7 = some goose0 ∧ s.gooseMode = 0) ∧
    (let a : AlmPin := ⟨true, false, 0⟩
     let s : State := at_ { up with pins := [(15, a)] } 166666
     kvGet? s.pins 15 = some a ∧ a.edge + a.half ≤ s.now) ∧
    (let x : Compare := .graph 63 0
     let s : State := { up with isl := { up.isl with compare := [x] } }
     let y : Compare := .rules 0 0 0 true [] none
     let z : State := { up with isl := { up.isl with compare := [y] } }
     s.isl.compare = [x] ∧ s.equal x = true ∧ z.isl.compare = [y] ∧ z.equal y = false ∧ z.overdue = none ∧ z.overdueRules = none ∧
     z.lateDecision = some y) ∧
    (let r : GRun := ⟨7, 63, ⟨1, 2 ^ 32 - 1⟩, [], none, false, 0, 0, 0, 10, false, (0, 0), [], 1, 1, true⟩
     let s : State := { up with sched := { up.sched with runs := [r] } }
     r.dir.dirSafety = true ∧ s.overdue = some r) := by decide +kernel

theorem test_witness_TriggerCommandsComplete :
    (let s := cfg (at_ up 100) [(Reg.CAP_TIN_EDGE 7, 2), (Reg.CAP_TIN_MIN_NS 7, 100)]
     s.dark = false ∧ s.cf (Reg.CAP_TIN_EDGE 7) = 2 ∧ s.cf (Reg.CAP_TIN_MIN_NS 7) ≤ 100) ∧
    (let s := cfg (at_ up 100) [(Reg.CAP_TIN_EDGE 7, 1), (Reg.CAP_TIN_MIN_NS 7, 100)]
     s.cf (Reg.CAP_TIN_EDGE 7) = 1 ∧ s.cf (Reg.CAP_TIN_MIN_NS 7) ≤ 100) ∧
    (cfg up [(Reg.CAP_TIN_EDGE 7, 0)]).cf (Reg.CAP_TIN_EDGE 7) = 0 ∧
    (up.dark = false ∧ up.cap.xfire = none) ∧
    (let s : State := { up with cap := { up.cap with xfire := some (1, true) } }
     s.cap.xfire = some (1, true) ∧ s.now < 1) ∧
    (let s : State := { at_ up 1 with cap := { up.cap with xfire := some (1, false), tout := [(3, 1)] } }
     s.cap.xfire = some (1, false) ∧ 1 ≤ s.now ∧ kvGet? s.cap.tout 3 = some 1) ∧
    (up.barOpen 0x1500D0 = true ∧ up.on Reg.CAP_CAL_BUSY = false) ∧
    (let s : State := { at_ up 160000 with cap := { up.cap with cal := some (0, []) } }
     s.cap.cal = some (0, []) ∧ 0 + 160000 ≤ s.now ∧ s.rd Reg.CAP_CAL_IN_MASK = 0) ∧
    (up.cfOn Reg.CAP_X_XARM_MASTER = false ∧ up.on Reg.CAP_X_XARM_IN ≠ true) := by decide +kernel

/-- Channel 7 records slices, and the store holds one. -/
def capTaking (v : Revision) : State :=
  let s := { capped with cap := { capped.cap with chans := [(7, { CapChan.init with phase := .recording, rcd := some rec0 })] } }
  { s with stch := { s.stch with store := [v] } }
/-- Channel 7 has a record to drain to ring 9. -/
def capDraining (kind : Nat) (fetched : List (Option Nat)) : State :=
  let s := ((ringK 9 kind 1).setRing 9 { Ring.init with sqTail := 1, fetched }).wr (Reg.HIF_RING_CFG_BUF_LOG2 9) 11
  { s with cap := { s.cap with chans := [(7, { CapChan.init with queue := [{ rec0 with cfg := ⟨1, 0x980⟩ }] })] } }
def item0 : PubItem := ⟨0, 0, 0, 0, false, 64, .revision rev0⟩
/-- An item waits for ring 9. -/
def publishing (kind : Nat) (fetched : List (Option Nat)) : State :=
  let s := ((ringK 9 kind 1).setRing 9 { Ring.init with sqTail := 1, fetched }).wr (Reg.HIF_RING_CFG_BUF_LOG2 9) 11
  cfg { s with pub := { s.pub with items := [item0] } } [(Reg.PUB_KIND_RING 0, 9)]

theorem test_witness_CaptureRecordCommandsComplete :
    (let s : State := { capped with cap := { capped.cap with chans := [(7, { CapChan.init with phase := .holdoff, satisfied := true })] } }
     (s.capChan 7).phase = .holdoff ∧ (s.capChan 7).satisfied = true ∧ (s.capCfg 7).capGuar = false ∧ (s.capCfg 7).capXarm = false ∧
     (let t := tabs s [(15, 7, 0x90)]
      (t.capCfg 7).capGuar = false ∧ (t.capCfg 7).capXarm = true ∧ t.on Reg.CAP_X_XARM_IN = false)) ∧
    (let s := capTaking rev0
     s.on Reg.ERR_STAT_FATAL = false ∧ (s.capChan 7).rcd = some rec0 ∧ rec0.cfg.capSource = 0 ∧ s.nextSliceItem 7 = some rev0 ∧
     rev0.instant + rec0.cfg.capSettle ≤ s.now ∧ s.slicesToCome rec0 rev0.instant = false) ∧
    (let r := { rec0 with cfg := ⟨1, 0x84⟩ }
     let s : State := at_ { capped with cap := { capped.cap with chans := [(7, { CapChan.init with phase := .recording, rcd := some r })] } } 1
     (s.capChan 7).rcd = some r ∧ r.cfg.capSource = 2 ∧ r.stop < s.now) ∧
    (let s := capDraining 2 []
     (s.capChan 7).queue = [{ rec0 with cfg := ⟨1, 0x980⟩ }] ∧ s.ringIs 9 4 = false) ∧
    (let s := capDraining 4 []
     s.ringIs 9 4 = true ∧ s.hostUp = true ∧ s.chanFree 9 = true ∧ s.drainer 9 = some 7 ∧ s.buffers 9 = 0) ∧
    (let s := capDraining 4 [some 0]
     let need := (rec0.len + s.bufSize 9 - 1) / s.bufSize 9
     s.drainer 9 = some 7 ∧ 0 < s.buffers 9 ∧ (s.capChan 7).drained = 0 ∧ need ≤ s.buffers 9 ∧
     (s.dma 9 1 true ((s.rd (Reg.HIF_RING_STAT_SQ_HEAD 9) + 65536) % 65536) (min need (0 / s.bufSize 9 + 1))
       (s.bufferAddr 9 (0 / s.bufSize 9)) ⟨0 % s.bufSize 9, ⟨[]⟩⟩).1 = true) := by decide +kernel

theorem test_witness_PublicationCommandsComplete :
    (let s := working (up [(Reg.STCH_STAT_PRODUCING, 1)]) .outputs rev0
     s.stch.work = [⟨.outputs, rev0⟩] ∧ (State.outputsRun { s with stch := { s.stch with work := [] } }) = true) ∧
    (State.outputsRun { working up .outputs rev0 with stch := { up.stch with work := [] } }) = false ∧
    (let s := publishing 2 []
     s.pub.items.find? (fun i => s.cf (Reg.PUB_KIND_RING i.kind) == 9) = some item0 ∧ s.ringIs 9 3 = false) ∧
    (let s := publishing 3 [some 0]
     let need := (item0.length + s.bufSize 9 - 1) / s.bufSize 9
     s.pub.items.find? (fun i => s.cf (Reg.PUB_KIND_RING i.kind) == 9) = some item0 ∧ s.ringIs 9 3 = true ∧ s.hostUp = true ∧
     s.chanFree 9 = true ∧ need ≤ s.buffers 9 ∧
     (s.dma 9 1 true (s.rd (Reg.HIF_RING_STAT_SQ_HEAD 9)) (min need (0 / s.bufSize 9 + 1)) (s.bufferAddr 9 (0 / s.bufSize 9))
       ⟨0 % s.bufSize 9, ⟨[]⟩⟩).1 = true) := by decide +kernel

/-! ### Witnesses: field sensor link -/

/-- Interface 1 with a key that it may use, able to send since instant 0. -/
def linkKey : BoundKey := ⟨2, 4, 0, 5, true, none⟩
def fslUp (f : FslIf := { FslIf.init with able := some 0 }) : State :=
  let s := cfg (up [(Reg.FSL_STAT_IF_UP 1, 1), (Reg.TB_STAT_STATE, 2)]) [(Reg.FSL_CTL_EN 1, 1)]
  { s with bound := [(0, linkKey)], fsl := { s.fsl with ifs := [(1, f)] } }

theorem canSecure_of {s : State} {i : Nat} {b : BoundKey} (hk : s.fslKey i = some b) (hc : (s.fslIf i).counter = 0) :
    s.fslCanSecure i = true := by
  simp [State.fslCanSecure, hk, State.fslSpent, hc]

theorem fslAble_of {s : State} {i : Nat} (hc : s.fslCanSecure i = true)
    (h : (s.cfOn (Reg.FSL_CTL_EN i) && s.on (Reg.FSL_STAT_IF_UP i) && s.rd Reg.TB_STAT_STATE != tbFREE
      && decide (6 ≤ s.rd Reg.PWR_STAT_PHASE) && s.rd Reg.PWR_STAT_PHASE != 8) = true) : s.fslAble i = true := by
  simp only [Bool.and_eq_true] at h
  simp only [State.fslAble, hc, Bool.and_true, Bool.and_eq_true]
  exact h

theorem fslCounter_of {s : State} {i : Nat} (h : (s.keyStart (s.cf (Reg.FSL_SEC_KEY_SLOT i)) 2 useFsl).1.usable = true) :
    ∃ n u, s.fslCounter i = (some n, u) := by
  simp [State.fslCounter, h]

/-- The watch of an interface that was able and is able. -/
theorem watch1_of {s t : State} {i : Nat} (hk : s.fslCanSecure i = true) (ht : t = s.wrB (Reg.FSL_STAT_NOKEY i) false)
    (ha : (t.fslIf i).able.isSome = true) (hb : t.fslAble i = true) : s.fslWatch1 i = t := by
  obtain ⟨a, h⟩ := Option.isSome_iff_exists.1 ha
  have e : s.fslNoKey i = t := by simp [State.fslNoKey, hk, ht]
  simp [State.fslWatch1, e, h, hb]

theorem fslSilent_of {s : State} {i : Nat} (h : decide (s.now < s.act.beaconAt i (s.fslIf i).next) = false) : s.fslSilent i = false := by
  simp [State.fslSilent, h]

def dl0 : Downlink := ⟨9, 3, 0xC1, 1023, [], 0⟩
def fslFrame0 : FslFrame := ⟨0, 0, true, false, 0, none, .inl 0, false, 0, true, 0, 0, 0, 0, [], [], []⟩
/-- A reading of sensor 1023 with a MIC of 4 bytes under the interface's key. -/
def secured0 : FslFrame :=
  { fslFrame0 with keyMode := 1, keyIdx := 1, level := 1, counter := 1, mic := ccmMic 5 (micSize 1) (fslNonce 0 1 1) ([] ++ []) [] }
/-- Sensor 1023 is in use, with level 1 as its lowest. -/
def hearing : State := (tabs fslUp [(17, 1023, rv [(12, 0x80), (13, 1)])]).setSensor 1023 ⟨2, 0, 0, true, 0⟩
def air0 (retries : Nat) : InAir := ⟨dl0, 0, 255, retries, 0⟩
def flying (retries : Nat) : State :=
  let s := fslUp { FslIf.init with air := some (air0 retries) }
  at_ { s with fsl := { s.fsl with dls := [dl0] } } 864000
def polled : State :=
  let s := fslUp { FslIf.init with polled := [1023] }
  { s with fsl := { s.fsl with dls := [dl0] } }

theorem test_witness_SensorCommandsComplete :
    (let s := cfg up [(Reg.FSL_CTL_EN 1, 1)]
     s.cfOn (Reg.FSL_CTL_EN 1) = true ∧ s.act.beaconAt 1 (s.fslIf 1).next ≤ s.now ∧ (s.fslWatch1 1).fslAble 1 = false) ∧
    (let s := fslUp
     let f := s.fslIf 1
     s.cfOn (Reg.FSL_CTL_EN 1) = true ∧ s.act.beaconAt 1 f.next ≤ s.now ∧ (s.fslWatch1 1).fslAble 1 = true ∧
     s.now < s.act.beaconAt 1 f.next + (s.fslWatch1 1).act.fslBi 1 ∧ ((s.fslWatch1 1).fslIf 1).missed < 2 ∧ (s.fslWatch1 1).now = s.now) ∧
    (let s := fslUp
     s.cfOn (Reg.FSL_CTL_EN 1) = true ∧ s.on (Reg.FSL_STAT_IF_UP 1) = true ∧ s.deaf = false ∧
     ({ fslFrame0 with supported := false } : FslFrame).supported = false ∧ fslFrame0.supported = true ∧
     (let c := s.cfgAt (s.now - fslFrame0.age - s.cf (Reg.FSL_LAT_RX_LAT_NS 1))
      fslFrame0.dstPan.toNat = c.fld (Reg.FSL_ADDR_PAN_ID 1) ∧ fslFrame0.dst = none ∧ c.senMatch 1 fslFrame0.src = none)) ∧
    (let s := (tabs up [(17, 1023, rv [(17, 1)])]).setSensor 1023 ⟨2, 0, 0, true, 1⟩
     (s.sensor 1023).st = 2 ∧ (s.act.tab 17 1023).at 17 1 ≠ 0 ∧
     (s.act.tab 17 1023).at 17 1 * 2 ^ (s.act.tab 17 1023).senCycle ≤ (s.sensor 1023).beacons) ∧
    ((polled.fslIf 1).polled = [1023] ∧ polled.queuedFor 1023 = [dl0] ∧ (polled.fslIf 1).air = none ∧ polled.fslRate 1 = true ∧
      polled.fslCanSecure 1 = true ∧ polled.on (Reg.FSL_STAT_IF_UP 1) = true ∧ polled.fslSilent 1 = false ∧ ∃ n u, polled.fslCounter 1 = (some n, u)) ∧
    (let s := flying 3
     let f := s.fslIf 1
     f.air = some (air0 3) ∧ (air0 3).dsn = (255 : BitVec 8).toNat ∧ (s.setFslIf 1 { f with air := none }).fsl.dls.contains dl0 = true ∧
     (air0 3).sent + s.act.ackWait 1 ≤ s.now ∧ s.fslSilent 1 = false ∧ 3 ≤ (air0 3).retries) ∧
    (let s := flying 2
     (s.fslIf 1).air = some (air0 2) ∧ (air0 2).sent + s.act.ackWait 1 ≤ s.now ∧ s.fslSilent 1 = false ∧ (air0 2).retries < 3 ∧ s.fsl.dls.contains dl0 = true) ∧
    (let s := at_ polled (30 * nsPerS)
     s.fsl.dls = [dl0] ∧ senIf dl0.sensor = 1 ∧ dl0.queued + 30 * nsPerS ≤ s.now) ∧
    fslUp.cfOn (Reg.FSL_CTL_EN 1) = true := by
  have c0 : fslUp.fslCanSecure 1 = true := canSecure_of (b := linkKey) (by decide +kernel) (by decide +kernel)
  have c1 : (fslUp.wrB (Reg.FSL_STAT_NOKEY 1) false).fslCanSecure 1 = true :=
    canSecure_of (b := linkKey) (by decide +kernel) (by decide +kernel)
  have a1 : (fslUp.wrB (Reg.FSL_STAT_NOKEY 1) false).fslAble 1 = true := fslAble_of c1 (by decide +kernel)
  have w : fslUp.fslWatch1 1 = fslUp.wrB (Reg.FSL_STAT_NOKEY 1) false := watch1_of c0 rfl (by decide +kernel) a1
  have k : polled.fslCanSecure 1 = true := canSecure_of (b := linkKey) (by decide +kernel) (by decide +kernel)
  have q3 : (flying 3).fslSilent 1 = false := fslSilent_of (by decide +kernel)
  have q2 : (flying 2).fslSilent 1 = false := fslSilent_of (by decide +kernel)
  refine ⟨by decide +kernel, ?_, by decide +kernel, by decide +kernel,
    ⟨by decide +kernel, by decide +kernel, by decide +kernel, by decide +kernel, k, by decide +kernel, fslSilent_of (by decide +kernel),
      fslCounter_of (by decide +kernel)⟩,
    ⟨by decide +kernel, by decide +kernel, by decide +kernel, by decide +kernel, q3, by decide +kernel⟩,
    ⟨by decide +kernel, by decide +kernel, q2, by decide +kernel⟩, by decide +kernel, by decide +kernel⟩
  dsimp only
  rw [w]
  exact ⟨by decide +kernel, by decide +kernel, a1, by decide +kernel, by decide +kernel, by decide +kernel⟩

/-- The accepted reading: what the frame must be, and its key and MIC. -/
theorem test_witness_SensorCommandsComplete_reading :
    (let c := hearing.cfgAt (hearing.now - secured0.age - hearing.cf (Reg.FSL_LAT_RX_LAT_NS 1))
     let r := c.tab 17 1023
     let z := hearing.bump .fsl C.FSL_RX_FRAMES 1
     let v := (z.keyBegan (c.fld (Reg.FSL_SEC_KEY_SLOT 1)) 2 useFsl (z.now - secured0.began)).2.2
     hearing.cfOn (Reg.FSL_CTL_EN 1) = true ∧ hearing.on (Reg.FSL_STAT_IF_UP 1) = true ∧ hearing.deaf = false ∧ secured0.supported = true ∧
     secured0.dstPan.toNat = c.fld (Reg.FSL_ADDR_PAN_ID 1) ∧ secured0.dst = none ∧ c.senMatch 1 secured0.src = some (1023, r) ∧
     secured0.ackRequest = false ∧ secured0.secured = true ∧ r.at 13 1 ≤ secured0.level.toNat ∧ secured0.keyMode = 1 ∧
     secured0.keyIdx.toNat = c.fld (Reg.FSL_SEC_KEY_IDX 1) ∧ secured0.level.toNat < 4 ∧ r.senExt = 0 ∧
     (z.keyBegan (c.fld (Reg.FSL_SEC_KEY_SLOT 1)) 2 useFsl (z.now - secured0.began)).1 = ⟨0, 5, true⟩ ∧
     ctrRule (r.at 20 4) (v.sensor 1023) secured0.counter.toNat secured0.dsn.toNat = .accepted ∧ (v.sensor 1023).st = 2 ∧
     secured0.request = false) ∧
    ccmMic 5 (micSize secured0.level.toNat) (fslNonce 0 secured0.counter.toNat secured0.level.toNat) (secured0.header ++ secured0.body) []
      = secured0.mic := ⟨by decide +kernel, rfl⟩

/-! ### Witnesses: scheduler -/

def op0 : SchedOp := ⟨.graph 0, 0, 0, 3, 0, false⟩
def run0 (nodes : List Rec) : GRun := ⟨0, 63, zeroRec 18, nodes, none, false, 0, 0, 0, 10, false, (15, 15), [], 0, 2, false⟩
/-- Engine 63 runs an operation. -/
def engaged (runs : List GRun) : State :=
  let s := up.setEngine 63 { Engine.init with op := some op0 }
  { s with sched := { s.sched with runs } }
/-- A node of one constant. -/
def node0 : Rec := ⟨1, rv [(0, 2), (2, 0xFFFFFF), (5, 0xFFFFFF), (8, 1)]⟩

theorem test_witness_SchedulerCommandsComplete :
    (let s := up.setCluster 15 { Cluster.init with ready := [op0] }
     s.engineRuns 63 = true ∧ s.engine 63 = Engine.init ∧ s.pickOp 63 false = some op0 ∧ s.affinity op0 = none ∧ s.builtinReady 15 = []) ∧
    (let s := engaged []
     let z := ([] : List QueueAct).foldl State.queueAct (s.setEngine 63 Engine.init)
     let y := z.free.2.wr (Reg.SCHED_CLU_LOAD_LOAD_PM 15) (z.free.1 % 1001)
     s.engine 63 = { Engine.init with op := some op0 } ∧ op0.src = .graph 0 ∧ y.graphRun 0 = none) ∧
    (let s : State := { up with lse := { up.lse with running := some ⟨[], [], [], 7, false⟩ } }
     let s := s.setEngine 63 { Engine.init with op := some { op0 with src := .refactor 7 } }
     let z := ([] : List QueueAct).foldl State.queueAct (s.setEngine 63 Engine.init)
     let y := z.free.2.wr (Reg.SCHED_CLU_LOAD_LOAD_PM 15) (z.free.1 % 1001)
     (s.engine 63).op = some { op0 with src := .refactor 7 } ∧ y.builtins.any (fun b => b.1 == .refactor 7) = true) ∧
    (let s := engaged [run0 [node0]]
     let z := ([] : List QueueAct).foldl State.queueAct (s.setEngine 63 Engine.init)
     let y := z.free.2.wr (Reg.SCHED_CLU_LOAD_LOAD_PM 15) (z.free.1 % 1001)
     let r := (y.runNode (run0 [node0]) 0 0).1
     y.runOf op0 = some (run0 [node0]) ∧
     (List.range r.nodes.length).all (fun k => (kvGet? r.vals (512 * op0.inst + k)).isSome) = true) ∧
    (let s := engaged [run0 [node0, node0]]
     let z := ([] : List QueueAct).foldl State.queueAct (s.setEngine 63 Engine.init)
     let y := z.free.2.wr (Reg.SCHED_CLU_LOAD_LOAD_PM 15) (z.free.1 % 1001)
     let r := (y.runNode (run0 [node0, node0]) 0 0).1
     y.runOf op0 = some (run0 [node0, node0]) ∧
     (List.range r.nodes.length).all (fun k => (kvGet? r.vals (512 * op0.inst + k)).isSome) = false) := by decide +kernel

theorem test_witness_SchedulerCommandsComplete_graphs :
    (let s := up.setEngine 63 { Engine.init with hold := some (0, 0) }
     let s : State := { s with sched := { s.sched with runs := [run0 []] } }
     ((List.range 4).map (fun i => 4 * 15 + i)).filterMap (fun e => (s.engine e).spill.map (fun p => (e, true, p))) = [] ∧
     ((List.range 4).map (fun i => 4 * 15 + i)).filterMap (fun e => (s.engine e).hold.map (fun p => (e, false, p)))
        = [(63, false, 0, 0)] ∧ s.graphRun 0 = some (run0 []) ∧ (s.takePlace 15 (run0 []) 0).isSome = true) ∧
    (let s := at_ (up.setCluster 15 { Cluster.init with delay := [(20000, 0, 0)] }) 19999
     (10000 : Nat) = s.now / 10000 * 10000 ∧ (s.cluster 15).delay.filter (fun e => decide (e.1 ≤ 10000)) = []) ∧
    (let s := working (cfg up [(Reg.SCHED_CTL_EN, 1)]) .graphs rev0
     let z : State := { s with stch := { s.stch with work := [] } }
     s.stch.work = [⟨.graphs, rev0⟩] ∧ (s.cfgRev rev0).fld Reg.SCHED_CTL_EN ≠ 0 ∧ rev0.epoch = z.rd Reg.GLB_EPOCH_EPOCH) ∧
    (let s := tabs (cfg up [(Reg.SCHED_CTL_EN, 1)]) [(18, 63, rv [(0, 0xA0), (16, 1)])]
     let s : State := { s with stch := { s.stch with gap := true } }
     let d := s.act.tab 18 63
     s.act.fld Reg.SCHED_CTL_EN ≠ 0 ∧ d.dirOn = true ∧ d.dirTimed = true ∧ d.dirPeriod ≠ 0 ∧ kvGetD s.sched.timedNext 63 0 ≤ s.now ∧
     s.stch.gap = true) ∧
    (let s := at_ (tabs (cfg up [(Reg.SCHED_CTL_EN, 1)]) [(18, 63, rv [(0, 0xA0), (16, 1)])]) 5
     let s : State := { s with
       stch := { s.stch with store := [rev0], gap := false }, sched := { s.sched with timedNext := [(63, 5)], place := [(63, (15, 15))] } }
     let d := s.act.tab 18 63
     let n := kvGetD s.sched.timedNext 63 0
     let z : State := { s with sched := { s.sched with timedNext := kvSet s.sched.timedNext 63 (n + d.dirPeriod) } }
     s.act.fld Reg.SCHED_CTL_EN ≠ 0 ∧ d.dirOn = true ∧ d.dirTimed = true ∧ d.dirPeriod ≠ 0 ∧ n ≤ s.now ∧ s.stch.gap = false ∧
     z.acted = [rev0] ∧ rev0.rev = 0 ∧ rev0.release ≤ n ∧ kvGet? z.sched.place 63 = some (15, 15) ∧ z.graphFull 63 = false ∧
     (if d.dirSafety then [15, 15] else [15]).any (fun c => decide (1024 ≤ (z.cluster c).delay.length)) = false) ∧
    ((up.wardenPair 1).running = none ∧ takeTop ((up.wardenPair 1).ready ++ [⟨3, 7⟩, ⟨1, 8⟩]) = some (⟨1, 8⟩, [⟨3, 7⟩])) ∧
    ((if (0 : Fin 2) = 0 then 20 else 100) < 21 ∧ (if (1 : Fin 2) = 0 then 20 else 100) < 101) := by decide +kernel

/-! ### Witnesses: pairs, the witness, Hjel links and teams -/

/-- A pair's unit 1 in a state, with nothing heard. -/
def unit1 (st : Nat) (l : List (Fld × Nat) := []) : State :=
  put up ([(Reg.PAIR_CTL_ENABLE, 1), (Reg.PAIR_CTL_MODE, 1), (Reg.PAIR_CTL_UNIT_ID, 1), (Reg.PAIR_STAT_STATE, st)] ++ l)
def pairWord : BitVec 32 := 0x91000000
def hbr : Heartbeat := { hb 2 3 with claim := 2 }
def dm0 : DigestMsg := ⟨7, true, true, 0, 0, 0⟩

theorem test_witness_PairCommandsComplete :
    (let s := up [(Reg.PAIR_CTL_ENABLE, 1)]
     let z := (s.pairCtl pairWord.toNat).wr Reg.PAIR_CTL_ENABLE 1
     s.barOpen 0x190000 = true ∧ s.rd Reg.PAIR_STAT_STATE = 0 ∧ s.on Reg.PAIR_CTL_ENABLE = true ∧ z.rd Reg.PAIR_CTL_MODE = 1 ∧
     z.quarantine = false) ∧
    ((unit1 1).barOpen 0x190000 = true ∧ (unit1 1).rd Reg.PAIR_STAT_STATE ≠ 0) ∧
    (let s := unit1 7
     let w := (BitVec.ofNat 32 s.pairCtlWord).toNat
     s.barOpen 0x190000 = true ∧ s.rd Reg.PAIR_STAT_STATE = 7 ∧ w % 2 ^ 31 - 2 ^ 16 * bits w 16 3 = s.pairCtlWord) ∧
    ((unit1 1).rd Reg.PAIR_STAT_STATE = 1 ∧
      (let s := at_ (unit1 1) (1000000 * 65535)
       s.pair.startAt + 1000000 * s.rd Reg.PAIR_CTL_START_WAIT_MS ≤ s.now)) ∧
    (let s := at_ (unit1 7 [(Reg.PAIR_WIT_HOLD_MAX_MS, 1)]) 1000000
     s.rd Reg.PAIR_STAT_STATE = 7 ∧ s.rd Reg.PAIR_WIT_HOLD_MAX_MS ≠ 0 ∧
     s.pair.holdAt + 1000000 * s.rd Reg.PAIR_WIT_HOLD_MAX_MS ≤ s.now) ∧
    (let s := at_ (unit1 4) 250000
     s.pairing = true ∧ s.safe = false ∧ s.pair.sentAt + 250000 ≤ s.now) ∧
    (let s := unit1 4 [(Reg.PAIR_STAT_PARTNER, 2)]
     let z := (State.bump { s with pair := { s.pair with
        heard := kvSet s.pair.heard hbr.unit (hbr, s.now), lost := setDel s.pair.lost hbr.unit } } .pair C.PAIR_HB_RECV).readDecision hbr
     s.pairing = true ∧ s.expectedHb hbr = true ∧ hbr.unit ∉ s.pair.lost ∧ z.rd Reg.PAIR_CTL_MODE = 1) ∧
    (let s := at_ (unit1 4) 1000000
     let s : State := { s with pair := { s.pair with heard := [(15, (hb 15 3, 0))] } }
     let z := (State.bump { s with pair := { s.pair with lost := setAdd s.pair.lost 15 } } .pair C.PAIR_HB_MISSED).pairEvent 0
     s.pairing = true ∧ kvGet? s.pair.heard 15 = some (hb 15 3, 0) ∧ 0 + 1000000 ≤ s.now ∧ 15 ∉ s.pair.lost ∧
     z.rd Reg.PAIR_CTL_MODE = 1 ∧ ((z.wr Reg.PAIR_STAT_PARTNER_OK 0).forwardsLost).rd Reg.PAIR_STAT_STATE = 4) ∧
    (let s : State := { unit1 3 with pair := { (unit1 3).pair with own := [dm0] } }
     s.pairMode = true ∧ s.pair.own = [dm0] ∧ (unit1 3).pair.own = []) ∧
    (let s := at_ (unit1 3) (10 * nsPerS)
     s.pairMode = true ∧ s.pair.cmpAt + 10 * nsPerS ≤ s.now) := by decide +kernel

theorem crc16Byte_lt {c b : Nat} (hc : c < 2 ^ 16) (hb : b < 2 ^ 8) : crc16Byte c b < 2 ^ 16 := by
  have step (l : List Nat) : ∀ c < 2 ^ 16,
      l.foldl (fun c _ => if 0x8000 ≤ c then (c * 2 % 0x10000) ^^^ 0x1021 else c * 2) c < 2 ^ 16 := by
    induction l with
    | nil => exact fun _ h => h
    | cons _ l ih =>
      intro c h
      refine ih _ ?_
      dsimp only
      split
      · have h1 : c * 2 % 65536 < 2 ^ 16 := by omega
        have h2 : 4129 < 2 ^ 16 := by norm_num
        exact Nat.xor_lt_two_pow h1 h2
      · omega
  have h3 : b * 256 < 2 ^ 16 := by omega
  have h4 : c ^^^ (b * 256) < 2 ^ 16 := Nat.xor_lt_two_pow hc h3
  unfold crc16Byte
  exact step (List.range 8) (c ^^^ (b * 256)) h4

theorem crc16_lt (bs : List Byte) : crc16 bs < 2 ^ 16 := by
  have h (l : List Byte) : ∀ c, c < 2 ^ 16 → l.foldl (fun c b => crc16Byte c b.toNat) c < 2 ^ 16 := by
    induction l with
    | nil => exact fun c h => h
    | cons b l ih => intro c h; rw [List.foldl_cons]; exact ih _ (crc16Byte_lt h b.isLt)
  unfold crc16
  apply h
  norm_num

/-- The frame that the line carries for a type, unit, claim and SEQ under a key. -/
def lineFrame (typ : Nat) (unit : Fin 16) (claim seq : BitVec 16) (key : Nat) : WitFrame :=
  let tag := BitVec.ofNat 32 (hmacSha256 key ((witHead typ unit claim.toNat seq.toNat).drop 1))
  ⟨unit, claim, seq, tag, BitVec.ofNat 16 (crc16 (witHead typ unit claim.toNat seq.toNat ++ leBytes 4 tag.toNat))⟩

theorem witGood_of {s t : State} {typ : Nat} {unit : Fin 16} {claim seq : BitVec 16} {k : KeyUse}
    (h : s.keyStart (s.rd Reg.PAIR_WIT_KEY_SLOT) 1 useWitness = (k, t)) (hk : k.usable = true) :
    s.witGood typ (lineFrame typ unit claim seq k.key) = (true, t) := by
  simp [State.witGood, lineFrame, State.witTag, h, hk]
  exact (Nat.mod_eq_of_lt (crc16_lt _)).symm

/-- A unit after a witness frame that it accepts. -/
def heardWit (t : State) (seq : Nat) : State :=
  let s := State.bump { t with pair := { t.pair with witSeq := some seq, witAt := t.now } } .pair C.PAIR_WIT_FRAMES
  let s := if s.on Reg.PAIR_STAT_WIT_OK then s else (s.wr Reg.PAIR_STAT_WIT_OK 1).pairEvent 4
  if s.rd Reg.PAIR_STAT_STATE = 7 then s.enterQuery else s

theorem witAccept_of {s t : State} {typ : Nat} {f : WitFrame} (h : s.witGood typ f = (true, t)) (hs : s.rd Reg.PAIR_STAT_STATE ≠ 0)
    (hf : s.on Reg.ERR_STAT_FATAL = false) (hu : f.unit.val = s.unitId) (ht : t.pair.witSeq = none) :
    s.witAccept typ f = (true, heardWit t f.seq.toNat) := by
  simp [State.witAccept, heardWit, h, hs, hf, hu, ht]

def witKey : BoundKey := ⟨1, 8, 0, 5, true, none⟩
/-- A unit in a state, and the witness of units 1 and 2, each with the witness key. -/
def lined (st : Nat) (was : Bool) : State :=
  { unit1 st with bound := [(0, witKey)], pair := { (unit1 st).pair with wasActive := was } }
def witnessing (w : Witness := Witness.reset) : State :=
  let s := at_ (put up [(Reg.PAIR_CTL_ENABLE, 1), (Reg.PAIR_CTL_MODE, 3), (Reg.PAIR_WIT_WUNIT_A, 1), (Reg.PAIR_WIT_WUNIT_B, 15)]) 2000000
  { s with bound := [(0, witKey)], pair := { s.pair with wit := w } }
/-- The frame to unit 1 with SEQ 9. -/
def to1 (typ : Nat) : WitFrame := lineFrame typ 1 0x21 9 5

/-- The unit's state once the key of the witness is in use. -/
def lineKey (s : State) : State := (s.keyStart (s.rd Reg.PAIR_WIT_KEY_SLOT) 1 useWitness).2

theorem lined_accepts {s : State} (typ : Nat)
    (hk : (s.keyStart (s.rd Reg.PAIR_WIT_KEY_SLOT) 1 useWitness).1 = ⟨0, 5, true⟩) (hs : s.rd Reg.PAIR_STAT_STATE ≠ 0)
    (hf : s.on Reg.ERR_STAT_FATAL = false) (hu : 1 = s.unitId) (ht : (lineKey s).pair.witSeq = none) :
    s.witAccept typ (to1 typ) = (true, heardWit (lineKey s) (to1 typ).seq.toNat) :=
  witAccept_of (witGood_of (k := ⟨0, 5, true⟩) (pair_fst _ hk) rfl) hs hf hu ht

theorem test_witness_WitnessCommandsComplete :
    (∃ u, (lined 4 true).witAccept 1 (to1 1) = (true, u)) ∧
    (∃ u, (lined 5 true).witAccept 2 (to1 2) = (true, u) ∧ u.rd Reg.PAIR_STAT_STATE = 5 ∧ u.pair.wasActive = true) ∧
    (∃ u, (lined 6 false).witAccept 2 (to1 2) = (true, u) ∧ u.rd Reg.PAIR_STAT_STATE = 6 ∧ u.pair.wasActive = false) ∧
    (∃ u, (lined 5 true).witAccept 3 (to1 3) = (true, u) ∧ u.rd Reg.PAIR_STAT_STATE = 5) ∧
    (let s := at_ (unit1 5) 2000000
     s.rd Reg.PAIR_STAT_STATE = 5 ∧ s.rd Reg.PAIR_CTL_MODE = 1 ∧ s.on Reg.ERR_STAT_FATAL = false ∧ s.on Reg.PAIR_STAT_WIT_OK = false ∧
     max s.pair.witAt s.pair.queryAt + 2000000 ≤ s.now) ∧
    (let s := witnessing { Witness.reset with second := true }
     s.isWitness = true ∧ s.pair.wit.slotAt + 250000 ≤ s.now ∧ (s.witUnit 15).reply = none) ∧
    (let s := witnessing
     let f : WitFrame := ⟨15, 0, 0, 0, 0⟩
     s.isWitness = true ∧ 15 ∈ s.witServes ∧ (s.witGood 9 f).1 = false ∧ (s.witGood 8 f).1 = false) ∧
    (let s := witnessing { Witness.reset with units := [(1, ⟨0, 0, true, none⟩), (15, ⟨0, 2, false, none⟩)], seq := 9 }
     ∃ u, s.witGood 9 (lineFrame 9 1 0 9 5) = (true, u) ∧ s.isWitness = true ∧ 1 ∈ s.witServes ∧
      (let x := u.witUnit 1
       let z := (u.setWit 1 { x with claim := (0 : BitVec 16).toNat, missed := 0, awaiting := false }).bump .pair C.PAIR_WIT_FRAMES
       x.awaiting = true ∧ (9 : BitVec 16).toNat = u.pair.wit.seq ∧ claimAbove (0 : BitVec 16).toNat z.pair.wit.highest = false ∧
       2 ≤ (z.witUnit (z.witOther 1)).missed)) ∧
    (let s := witnessing { Witness.reset with window := some (0, []) }
     s.pair.wit.window = some (0, []) ∧ s.isWitness = true ∧ 0 + 2000000 ≤ s.now) := by
  refine ⟨⟨_, lined_accepts 1 (by decide +kernel) (by decide +kernel) (by decide +kernel) (by decide +kernel) (by decide +kernel)⟩,
    ⟨_, lined_accepts 2 (by decide +kernel) (by decide +kernel) (by decide +kernel) (by decide +kernel) (by decide +kernel),
      by decide +kernel, by decide +kernel⟩,
    ⟨_, lined_accepts 2 (by decide +kernel) (by decide +kernel) (by decide +kernel) (by decide +kernel) (by decide +kernel),
      by decide +kernel, by decide +kernel⟩,
    ⟨_, lined_accepts 3 (by decide +kernel) (by decide +kernel) (by decide +kernel) (by decide +kernel) (by decide +kernel),
      by decide +kernel⟩,
    by decide +kernel, by decide +kernel, by decide +kernel, ⟨_, witGood_of (k := ⟨0, 5, true⟩) (pair_fst _ (by decide +kernel)) rfl, ?_⟩,
    by decide +kernel⟩
  exact ⟨by decide +kernel, by decide +kernel, by decide +kernel⟩

def imageR (c : Cfg) (b : Instant) : ResyncImage := ⟨c, c, 0, 2, 0, b⟩

theorem test_witness_ResynchronisationAndTimeComplete :
    (active.rd Reg.PAIR_STAT_STATE = 4 ∧ active.peer = 2 ∧ active.on Reg.ERR_STAT_FATAL = false) ∧
    ((keyed (unit1 2)).rd Reg.PAIR_STAT_STATE = 2 ∧
      firstInc ((keyed (unit1 2)).inconsistencies Cfg.reset (Cfg.reset.look [])) = none ∧
      (let c := Cfg.reset.setFld Reg.TB_REF_PRI 15
       firstInc ((keyed (unit1 2)).inconsistencies c (c.look [])) ≠ none)) ∧
    (let s : State := { unit1 2 with pair := { (unit1 2).pair with retryAt := some 0 } }
     s.pair.retryAt = some 0 ∧ s.rd Reg.PAIR_STAT_STATE = 2 ∧ 0 ≤ s.now) ∧
    (let r := imageR Cfg.reset 0
     let s : State := { unit1 2 with pair := { (unit1 2).pair with resync := some r } }
     s.pair.resync = some r ∧ s.rd Reg.PAIR_STAT_STATE = 2 ∧ r.boundary ≤ s.now) ∧
    belay.belay = true ∧
    (let s := at_ active 1000000
     s.timeMaster = true ∧ s.pairing = true ∧ s.pair.timeAt + 1000000 ≤ s.now) ∧
    (let s : State := { unit1 3 [(Reg.PAIR_STAT_PARTNER, 15)] with pair := { (unit1 3).pair with heard := [(15, (hb 15 4, 0))] } }
     s.pairing = true ∧ s.timeMaster = false ∧ (15 : Nat) ≠ 0 ∧ s.timeMasterUnit = 15 ∧ s.now ≤ s.tb.refs.hjelLast + 1100000 ∧
     (let t := at_ s 1100001
      t.pairing = true ∧ t.timeMaster = false ∧ t.timeMasterUnit = 15 ∧ t.tb.refs.hjelLast + 1100000 < t.now)) := by decide +kernel

/-- A team's time master, unit 1, with a route to unit 15 over link 3, which is up. -/
def teamed : State :=
  put up [(Reg.PAIR_CTL_ENABLE, 1), (Reg.PAIR_CTL_MODE, 2), (Reg.PAIR_CTL_UNIT_ID, 1), (Reg.PAIR_CTL_MASTER, 1), (Reg.PAIR_CTL_TSLICE, 1),
    (Reg.PAIR_ROUTE_ROUTE, 2 ^ 56 * 11), (Reg.PAIR_LINK_LSTATE 3, 2)]
def flit0 : Flit :=
  let f : Flit := ⟨15, 3, 0, [], 0⟩
  { f with crc := BitVec.ofNat 32 (crc32 (leBytes 1 (f.vc.val + 16 * f.typ.val) ++ leBytes 1 f.seq.toNat ++ f.payload)) }

theorem test_witness_HjelAndTeamCommandsComplete :
    (let s := at_ teamed 125000000
     s.linkUp 3 = true ∧ (s.hjelLink 3).delayAt + 125000000 ≤ s.now) ∧
    (let f := { flit0 with crc := flit0.crc + 1 }
     teamed.linkUp 3 = true ∧
     crc32 (leBytes 1 (f.vc.val + 16 * f.typ.val) ++ leBytes 1 f.seq.toNat ++ f.payload) ≠ f.crc.toNat) ∧
    (crc32 (leBytes 1 (flit0.vc.val + 16 * flit0.typ.val) ++ leBytes 1 flit0.seq.toNat ++ flit0.payload) = flit0.crc.toNat ∧
      flit0.typ.val = 3 ∧ flit0.seq.toNat = (teamed.hjelLink 3).expect) ∧
    (let s := teamed.wr (Reg.PAIR_LINK_EN 0) 1
     s.on (Reg.PAIR_LINK_EN 0) = true ∧ s.linkUp 0 = false ∧ s.dark = false) ∧
    (let s := teamed.setLink 3 ⟨0, 8, [], 0, 0⟩
     s.linkUp 3 = true ∧ 8 ≤ (s.hjelLink 3).replays) ∧
    (teamed.teamMaster = true ∧ 15 ∈ teamed.partners ∧ teamed.stch.store.any (fun r => r.team && r.instant == rev0.instant) = false ∧
      rev0.rev = 0 ∧ rev0.epoch = teamed.epochAt rev0.instant ∧ (teamed.teamSlice rev0.instant).own = none) ∧
    (let e : Nat × TeamSlice := (0, ⟨some rev0, 0, []⟩)
     let s := at_ teamed (1000 * 65535)
     let s : State := { s with pair := { s.pair with team := [e] } }
     s.pair.team = [e] ∧ e.2.own.isSome = true ∧ e.2.ownAt + 1000 * s.rd Reg.PAIR_TEAM_TEAM_WAIT_US ≤ s.now ∧ s.teamMaster = true) := by
  decide +kernel

/-! ### Effects: expected values from the rules and worked examples of spec/ -/

/-- R45 and spec/03's example: an increment of 1.999 976 000 288 ns is 0x1_FFFE_6D5A. -/
theorem test_incr_example :
    (after (.tbIncrWrite .firmware 1) { up with tb := { up.tb with incrLow := 0xFFFE6D5A } }).tb.incrNext = some 0x1FFFE6D5A := by
  decide +kernel

/-- R50 and the leap second table of spec/03: OFFSET is 38 from S = 1,909,094,438, and LSO clears at S = 1,909,180,838. -/
theorem test_leap_example :
    let s := up [(Reg.TB_UTC_OFFSET, 37), (Reg.TB_UTC_LEAP_PEND, 1)]
    let t := after .leapApply (at_ s (1909094438 * nsPerS))
    (after .leapApply (at_ s (1909094437 * nsPerS))).rd Reg.TB_UTC_OFFSET = 37 ∧ t.rd Reg.TB_UTC_OFFSET = 38 ∧
    t.on Reg.TB_UTC_LSO = true ∧ (after .lsoExpiry (at_ t (1909180837 * nsPerS))).on Reg.TB_UTC_LSO = true ∧
    (after .lsoExpiry (at_ t (1909180838 * nsPerS))).on Reg.TB_UTC_LSO = false := by decide +kernel

/-- R32 and spec/02's example: the first slice instant of 50 per second at least 1 ms after validation. -/
theorem test_boundary_example :
    gridFrom 50 (1893456099 * nsPerS + 991400000 + 1000000) = 1893456100 * nsPerS := by decide +kernel

/-- R481 and spec/24's example: EN of TB_ALM2 is bit 16 of the word at 0x0004_0088. -/
theorem test_alarm_arm_address :
    bits ((after (.tbAlmArm 2 0x10000) up).readWord 0x40088) 16 1 = 1 ∧ bits (up.readWord 0x40088) 16 1 = 0 := by decide +kernel

/-- R73 and R83: a frame of 63 bytes is UNDERSIZE, counted in its port's counter. -/
theorem test_undersize_counted :
    (after (.frameReceive 30 { okFrame with len := 63 }) (cfg up [(Reg.PORT_CFG_MODE 30, 1)])).readWord
      (0x80000 + 0x1000 * 30 + 0x100 + 4 * 10) = 1 := by decide +kernel

/-- R128 and spec/06's example: L 160 at 4,800 samples/s, 60 Hz, class P; the run of the slice at sample 60 starts at −20. -/
theorem test_window_example :
    (tabs (cfg up [(Reg.STCH_CTL_EN, 1)]) [(3, 7, 0x80 + 2 ^ 48 * 9), (1, 9, rv [(0, 0x90), (40, 4800)])]).pheWindow 7 12500000
      = (4800, 160, -20) := by decide +kernel

/-- R289 and spec/14's example: the engine time of each node, in half nanoseconds. -/
theorem test_node_times :
    [(0x01, 2), (0x16, 2), (0x15, 2), (0x18, 2), (0x31, 1), (0xF0, 1)].map (fun p => nodeTime p.1 p.2) = [80, 42, 44, 54, 61, 81] := by
  decide

/-- R290: (1 + 2j)(3 + 4j) = −5 + 10j. -/
theorem test_cmul :
    nodeElems ⟨1, 0x15⟩ rev0 false 50 [[(0x3F800000, true), (0x40000000, true)], [(0x40400000, true), (0x40800000, true)]] none
      = [(0xC0A00000, true), (0x41200000, true)] := by decide +kernel

/-- R369 and spec/17's example: of the claims 0x02A1 and 0x02B2 the higher one is granted as 0x02C2, the other denied. -/
theorem test_witness_window_example :
    let w : Witness := { Witness.reset with highest := 0x2B2, window := some (0, [(1, (0x2A1, true)), (15, (0x2B2, true))]) }
    let t := after .witnessWindowExpiry (witnessing w)
    t.pair.wit.highest = 0x2CF ∧ (t.witUnit 15).reply = some (true, 0x2CF) ∧ (t.witUnit 1).reply = some (false, 0x2B2) ∧
    ((witnessing w).witGrant 2).pair.wit.highest = 0x2C2 := by decide +kernel

/-- R356: epochs compare modulo 4,096, and within an epoch the higher UNIT_ID wins. -/
theorem test_claims :
    claimAbove 0x0002 0xFFF1 = true ∧ claimAbove 0xFFF1 0x0002 = false ∧ claimAbove 0x02B2 0x02A1 = true ∧ claimAbove 0x02B2 0x02B1 = true := by
  decide +kernel

/-- R276 and spec/13's example: counter 0x1A2C after 0x1A2B is accepted, its repetition with the same DSN is a repeat, a lower one
a replay. -/
theorem test_counter_example :
    ctrRule 0 ⟨2, 0x1A2B, 0x90, true, 0⟩ 0x1A2C 0x91 = .accepted ∧ ctrRule 0 ⟨2, 0x1A2C, 0x91, true, 0⟩ 0x1A2C 0x91 = .repeated ∧
    ctrRule 0 ⟨2, 0x1A2D, 0x92, true, 0⟩ 0x1A2C 0x91 = .replay ∧ ctrRule 0 ⟨2, 0x1A2C, 0x91, true, 0⟩ 0x1A2C 0x92 = .replay := by decide

/-- R268 and spec/13's example: macAckWaitDuration is 864 us at 16 us a symbol, and a sensor silent for its cycles is SILENT. -/
theorem test_sensor_effects :
    up.act.ackWait 0 = 864000 ∧
    ((after (.sensorSilent 1023) ((tabs up [(17, 1023, rv [(17, 1)])]).setSensor 1023 ⟨2, 0, 0, true, 1⟩)).sensor 1023).st = 3 := by
  decide +kernel

/-- R362 and spec/17's example: the Active that loses its partner enters QUERY, 1,000 us after the last heartbeat and not before. -/
theorem test_partner_lost :
    let s : State := { unit1 4 with pair := { (unit1 4).pair with heard := [(2, (hb 2 3, 0))] } }
    (after (.partnerLost 2) (at_ s 1000000)).rd Reg.PAIR_STAT_STATE = 5 ∧ (after (.partnerLost 2) (at_ s 999999)).rd Reg.PAIR_STAT_STATE = 4 := by
  decide +kernel

/-- R360: a flit with a wrong CRC is counted and replayed; R372: digests of COMPLETE slices are compared, others skipped. -/
theorem test_link_and_digest_counters :
    let t := after (.hjelFlit 3 { flit0 with crc := flit0.crc + 1 } 0) teamed
    (t.hjelLink 3).replays = 1 ∧ t.rd (Blk.pair.cnt C.PAIR_LINK_RETRY) = 1 ∧
    (let s : State := { unit1 3 with pair := { (unit1 3).pair with own := [dm0] } }
     (after (.digest dm0) s).rd (Blk.pair.cnt C.PAIR_DIGEST_CMP) = 1 ∧
     (after (.digest { dm0 with complete := false }) s).rd (Blk.pair.cnt C.PAIR_DIGEST_SKIPPED) = 1) := by decide +kernel

/-- R297 and R311: engine 63 takes the waiting operation, and its BUSY bit is set; the read of WRD_STAT clears MAX_ITEM_US. -/
theorem test_dispatch_and_read :
    (after (.engineDispatch 63) (up.setCluster 15 { Cluster.init with ready := [op0] })).rd Reg.SCHED_ENG_BUSY_BUSY = 2 ^ 63 ∧
    (after .wrdStatRead (up [(Reg.SCHED_WRD_STAT_MAX_ITEM_US, 9)])).rd Reg.SCHED_WRD_STAT_MAX_ITEM_US = 0 := by decide +kernel

/-- R85 and R88: the check values of the two CRCs over the bytes of "123456789". -/
theorem test_crcs :
    crc32 [0x31, 0x32, 0x33, 0x34, 0x35, 0x36, 0x37, 0x38, 0x39] = 0xCBF43926 ∧
    crc16 [0x31, 0x32, 0x33, 0x34, 0x35, 0x36, 0x37, 0x38, 0x39] = 0x29B1 := by decide +kernel

/-- R289: 1.5 + 2.25 = 3.75, and 1 / 3 rounds to 0x3EAAAAAB. -/
theorem test_float : fpAdd 0x3FC00000 0x40100000 = 0x40700000 ∧ fpDiv 0x3F800000 0x40400000 = 0x3EAAAAAB := by decide +kernel

end Sys2Proof.Tests
end

/-! # Proofs of spec/02: storage and reset, table loads, CINCH, capture arming and SCHEDULE, register words -/
namespace Sys2Proof.Machine
open Sys2Proof

/-! ## Sparse maps: what `kvSet` and `kvDel` do on a map whose keys rise -/

section maps
variable {α : Type}

theorem kvGet?_mem {m : KV α} {k : Nat} {v : α} (h : kvGet? m k = some v) : (k, v) ∈ m := by
  induction m with
  | nil => cases h
  | cons e m ih =>
    obtain ⟨a, w⟩ := e
    by_cases hk : a = k
    · subst hk
      obtain rfl : w = v := by simpa [kvGet?] using h
      exact List.mem_cons_self
    · exact List.mem_cons_of_mem _ (ih (by simpa [kvGet?, hk] using h))

/-- Setting a key to the value that it has changes nothing, where the keys rise. -/
theorem kvSet_eq_self {m : KV α} {k : Nat} {v : α} (hm : m.Pairwise (fun a b => a.1 < b.1)) (h : kvGet? m k = some v) :
    kvSet m k v = m := by
  induction m with
  | nil => cases h
  | cons e m ih =>
    obtain ⟨a, w⟩ := e
    obtain ⟨ha, hm⟩ := List.pairwise_cons.mp hm
    by_cases hk : a = k
    · subst hk
      obtain rfl : w = v := by simpa [kvGet?] using h
      simp [kvSet]
    · have ht : kvGet? m k = some v := by simpa [kvGet?, hk] using h
      have hlt : a < k := ha _ (kvGet?_mem ht)
      simp [kvSet, hk, Nat.not_lt.mpr (Nat.le_of_lt hlt), ih hm ht]

/-- Deleting a key that is not listed changes nothing. -/
theorem kvDel_eq_self {m : KV α} {k : Nat} (h : kvGet? m k = none) : kvDel m k = m := by
  induction m with
  | nil => rfl
  | cons e m ih =>
    obtain ⟨a, w⟩ := e
    by_cases hk : a = k
    · simp [kvGet?, hk] at h
    · simpa [kvDel, hk] using ih (by simpa [kvGet?, hk] using h)

theorem kvSet_kvSet_same (m : KV α) (k : Nat) (v w : α) : kvSet (kvSet m k v) k w = kvSet m k w := by
  induction m with
  | nil => simp [kvSet]
  | cons e m ih =>
    obtain ⟨a, x⟩ := e
    by_cases hlt : k < a
    · simp [kvSet, hlt]
    · by_cases hk : a = k
      · simp [kvSet, hk]
      · simp [kvSet, hlt, hk, ih]

theorem kvDel_kvSet_same (m : KV α) (k : Nat) (v : α) : kvDel (kvSet m k v) k = kvDel m k := by
  induction m with
  | nil => simp [kvSet, kvDel]
  | cons e m ih =>
    obtain ⟨a, x⟩ := e
    by_cases hlt : k < a
    · simp [kvSet, kvDel, hlt]
    · by_cases hk : a = k
      · simp [kvSet, kvDel, hk]
      · simpa [kvSet, kvDel, hlt, hk] using ih

theorem kvDel_kvDel_same (m : KV α) (k : Nat) : kvDel (kvDel m k) k = kvDel m k := by
  simp [kvDel]

/-- A key below every listed one is listed first. -/
theorem kvSet_of_lt {m : KV α} {k : Nat} (h : ∀ e ∈ m, k < e.1) (v : α) : kvSet m k v = (k, v) :: m := by
  cases m with
  | nil => rfl
  | cons e m => simp [kvSet, h e List.mem_cons_self]

theorem kvGet?_eq_none_of_lt {m : KV α} {k : Nat} (h : ∀ e ∈ m, k < e.1) : kvGet? m k = none := by
  cases hg : kvGet? m k with
  | none => rfl
  | some v => exact absurd (h _ (kvGet?_mem hg)) (Nat.lt_irrefl k)

theorem kvSet_kvDel_same {m : KV α} (hm : m.Pairwise (fun a b => a.1 < b.1)) (k : Nat) (v : α) :
    kvSet (kvDel m k) k v = kvSet m k v := by
  induction m with
  | nil => rfl
  | cons e m ih =>
    obtain ⟨a, x⟩ := e
    obtain ⟨ha, hm⟩ := List.pairwise_cons.mp hm
    rcases Nat.lt_trichotomy k a with hlt | rfl | hgt
    · have hall : ∀ e ∈ (a, x) :: m, k < e.1 :=
        List.forall_mem_cons.mpr ⟨hlt, fun e he => Nat.lt_trans hlt (ha e he)⟩
      rw [kvDel_eq_self (kvGet?_eq_none_of_lt hall)]
    · have hhead : kvDel ((k, x) :: m) k = kvDel m k := by simp [kvDel]
      rw [hhead, kvDel_eq_self (kvGet?_eq_none_of_lt ha), kvSet_of_lt ha]
      simp [kvSet]
    · have hhead : kvDel ((a, x) :: m) k = (a, x) :: kvDel m k := by simp [kvDel, Nat.ne_of_lt hgt]
      rw [hhead]
      simp [kvSet, Nat.lt_asymm hgt, Nat.ne_of_lt hgt, ih hm]

/-! ## What `kvPut` does -/

variable [DecidableEq α]

theorem kvPut_rising {m : KV α} (hm : m.Pairwise (fun a b => a.1 < b.1)) (k : Nat) (v d : α) :
    (kvPut m k v d).Pairwise (fun a b => a.1 < b.1) := by
  unfold kvPut
  split
  · exact kvDel_rising m k hm
  · exact kvSet_rising m k v hm

theorem kvPut_canonical {m : KV α} {d : Nat → α} (hm : Canonical m d) (k : Nat) (v : α) : Canonical (kvPut m k v (d k)) d where
  rising := kvPut_rising hm.rising k v (d k)
  nothing_default := by
    intro e he
    unfold kvPut at he
    split at he
    · exact hm.nothing_default e (List.mem_of_mem_filter he)
    · rename_i hv
      rcases kvSet_keys m k v e he with rfl | he
      · exact hv
      · exact hm.nothing_default e he

theorem kvPut_getD_self {m : KV α} {d : Nat → α} (hm : Canonical m d) (k : Nat) :
    kvPut m k (kvGetD m k (d k)) (d k) = m := by
  cases hg : kvGet? m k with
  | none => simp [kvPut, kvGetD, hg, kvDel_eq_self hg]
  | some v =>
    have hv : v ≠ d k := hm.nothing_default _ (kvGet?_mem hg)
    simp [kvPut, kvGetD, hg, hv, kvSet_eq_self hm.rising hg]

theorem kvPut_kvPut_same {m : KV α} (hm : m.Pairwise (fun a b => a.1 < b.1)) (k : Nat) (v w d : α) :
    kvPut (kvPut m k v d) k w d = kvPut m k w d := by
  unfold kvPut
  by_cases hv : v = d
  · simp only [if_pos hv, kvDel_kvDel_same, kvSet_kvDel_same hm]
  · simp only [if_neg hv, kvDel_kvSet_same, kvSet_kvSet_same]

end maps

/-! ## Register fields, staged fields and table records -/

theorem State.rd_wr_same (s : State) (f : Fld) (v : Nat) : (s.wr f v).rd f = v % 2 ^ f.width := by
  simp [State.rd, State.wr]

theorem State.rd_wr_other (s : State) {f g : Fld} (v : Nat) (h : g.key ≠ f.key) : (s.wr f v).rd g = s.rd g :=
  kvGetD_kvPut_other s.dev _ _ _ h

theorem Cfg.fld_setFld_same (c : Cfg) (f : Fld) (v : Nat) : (c.setFld f v).fld f = v % 2 ^ f.width := by
  simp [Cfg.fld, Cfg.setFld]

theorem Cfg.fld_setFld_other (c : Cfg) {f g : Fld} (v : Nat) (h : g.key ≠ f.key) : (c.setFld f v).fld g = c.fld g :=
  kvGetD_kvPut_other c.regs _ _ _ h

/-- R24: of two staged writes of a field the last one counts. -/
theorem Cfg.setFld_setFld_same {c : Cfg} (h : c.regs.Pairwise (fun a b => a.1 < b.1)) (f : Fld) (v w : Nat) :
    (c.setFld f v).setFld f w = c.setFld f w := by
  simp [Cfg.setFld, kvPut_kvPut_same h]

theorem Cfg.tab_setTab_same (c : Cfg) (code i : Nat) (r : Rec) : (c.setTab code i r).tab code i = r := by
  simp [Cfg.tab, Cfg.setTab]

/-- Two records of tables, at indices below 2^20, share a key only where they are the same record. -/
theorem recKey_inj {code i code' j : Nat} (hi : i < 2 ^ 20) (hj : j < 2 ^ 20) (h : recKey code' j = recKey code i) :
    (code', j) = (code, i) := by
  unfold recKey at h
  have hcode : code' = code := by omega
  have hindex : j = i := by omega
  rw [hcode, hindex]

theorem Cfg.tab_setTab_other (c : Cfg) {code i code' j : Nat} (r : Rec) (hi : i < 2 ^ 20) (hj : j < 2 ^ 20)
    (h : (code', j) ≠ (code, i)) : (c.setTab code i r).tab code' j = c.tab code' j :=
  kvGetD_kvPut_other c.tabs _ _ _ (fun hk => h (recKey_inj hi hj hk))

/-- Settles O13, from the laws of `kvPut`: registers, staged fields and tables are all kept by it. -/
theorem storageHoldsWhatWasWritten : Obligations.StorageHoldsWhatWasWritten := by
  unfold Obligations.StorageHoldsWhatWasWritten
  refine ⟨?maps, ?registers, ?staged, ?tables⟩
  case maps =>
    intro α _ m d k j v hm
    exact ⟨kvPut_canonical hm k v, kvGetD_kvPut_same m k v (d k), kvGetD_kvPut_other m v (d k) (d j), kvPut_getD_self hm k⟩
  case registers =>
    intro s f g v hs
    exact ⟨s.rd_wr_same f v, s.rd_wr_other v, kvPut_rising hs _ _ _, rfl⟩
  case staged =>
    intro c f g v w hc
    exact ⟨c.fld_setFld_same f v, c.fld_setFld_other v, c.setFld_tabs f v, Cfg.setFld_setFld_same hc f v w⟩
  case tables =>
    intro c code i code' j r _ hi hj
    exact ⟨c.tab_setTab_same code i r, c.tab_setTab_other r hi hj, c.setTab_regs code i r⟩

/-! ## The state after reset -/

theorem State.rd_reset (f : Fld) : State.reset.rd f = f.rst := rfl

/-- Settles O12: every register reads its reset value, and what the blocks keep beside them is empty. -/
theorem resetLeaves : Obligations.ResetLeaves :=
  ⟨rfl, rfl, rfl, rfl, rfl, rfl, State.rd_reset Reg.PWR_STAT_PHASE, State.rd_reset Reg.GLB_EPOCH_EPOCH,
    State.rd_reset Reg.SAFE_STAT_CAUSE, State.rd_reset Reg.TB_STAT_STATE⟩

/-! ## Commands of the management ring that start at once -/

/-- R329: with the ring served and no CINCH held, a command that would wait behind one takes its effect. -/
theorem State.served_queued {s : State} (h : s.Starting) (op : Opcode) (tag : BitVec 16) (i : Instr) (t : State) :
    s.served op tag (s.queued i t) = .next t := by
  obtain ⟨⟨hsleep, hquar⟩, hheld⟩ := h
  rw [State.served_serving hsleep hquar, State.queued_free hheld]

/-- Outside SLEEP and QUARANTINE a command takes its effect. -/
theorem State.served_of_serving {s : State} (h : s.Serving) (op : Opcode) (tag : BitVec 16) (t : Result) :
    s.served op tag t = t :=
  State.served_serving h.1 h.2 op tag t

/-! ## Table images and what an Active forwards (R24, R25, R38) -/

/-- Whether an Active forwards what is staged does not rest on the shadow. -/
theorem State.forwards_shd (s : State) (c : Cfg) : State.forwards { s with shd := c } = s.forwards := rfl

/-- R25, R38: what TABLE_LOAD does with an image that passes its checks. -/
theorem State.tableLoad_accepted {s u : State} {len : BitVec 32} {image : TableImage} {addr : BitVec 48} {dma : Dma}
    {d : TableDesc} (tag : BitVec 16) (hbelay : s.belay = false) (hsealed : s.glb.sealed = false) (hmin : 64 ≤ len.toNat)
    (hmax : len.toNat ≤ 16 * 2 ^ 20) (hdma : s.cmdDma false 0 addr.toNat dma = (true, u))
    (htable : image.table? len.toNat = some d) :
    s.tableLoad tag len image addr dma =
      if u.forwards then
        (State.mgmtStart { u with
            shd := u.shd.load d.code image
            glb := { u.glb with forwards := u.glb.forwards ++ [(tag.toNat, image.magic.toNat, image.count.toNat)] } }
          .tableLoad tag.toNat).toPeer 3 (.tableForward (some tag) image)
      else { u with shd := u.shd.load d.code image }.mgmtDone .tableLoad tag.toNat .ok
        (image.magic.toNat + 2 ^ 32 * image.count.toNat) := by
  have hlow : ¬ len.toNat < 64 := Nat.not_lt.mpr hmin
  have hhigh : ¬ 16777216 < len.toNat := Nat.not_lt.mpr hmax
  cases hf : u.forwards <;>
    simp [State.tableLoad, State.loadDone, hbelay, hsealed, hlow, hhigh, hdma, htable, State.forwards_shd, hf]

theorem execTableLoad_starts {s : State} (h : s.Starting) (tag : BitVec 16) (len : BitVec 32) (image : TableImage)
    (addr : BitVec 48) (dma : Dma) : execTableLoad tag len image addr dma s = .next (s.tableLoad tag len image addr dma) :=
  State.served_queued h _ tag _ _

theorem execTableForward_belay {s : State} {image : TableImage} {d : TableDesc} (tag : Option (BitVec 16))
    (hbelay : s.belay = true) (htable : tableOf image.magic.toNat = some d) :
    execTableForward tag image s = .next ({ s with shd := s.shd.load d.code image }.toPeer 3 (.tableAck tag)) := by
  simp [execTableForward, hbelay, htable]

theorem execTableForwardAck_found {s : State} {tag : BitVec 16} {f : Nat × Nat × Nat}
    (hf : s.glb.forwards.find? (fun f => f.1 == tag.toNat) = some f) :
    execTableForwardAck (some tag) s = .next (s.forwardDone f) := by
  simp [execTableForwardAck, hf]

theorem execStagedWriteForward_belay {s : State} (hbelay : s.belay = true) (addr : BitVec 26) (value : BitVec 32) :
    execStagedWriteForward addr value s = .next (s.stageWord addr.toNat value.toNat) := by
  simp [execStagedWriteForward, hbelay]

/-- Settles O17: TABLE_LOAD by `State.tableLoad_accepted`, the Belay's side and its acknowledgement by their guards. -/
theorem tableLoadsAndForwardsComplete : Obligations.TableLoadsAndForwardsComplete := by
  unfold Obligations.TableLoadsAndForwardsComplete
  intro tag len image addr dma d s u
  refine ⟨?alone, ?forwarded, ?belay, ?acknowledged, ?word⟩
  case alone =>
    intro hstart hbelay hsealed hmin hmax hdma htable hf
    refine (execTableLoad_starts hstart tag len image addr dma).trans ?_
    rw [State.tableLoad_accepted tag hbelay hsealed hmin hmax hdma htable, if_neg (by simp [hf])]
  case forwarded =>
    intro hstart hbelay hsealed hmin hmax hdma htable hf
    refine (execTableLoad_starts hstart tag len image addr dma).trans ?_
    rw [State.tableLoad_accepted tag hbelay hsealed hmin hmax hdma htable, if_pos hf]
  case belay => exact fun t hbelay htable => execTableForward_belay t hbelay htable
  case acknowledged => exact fun f hf => execTableForwardAck_found hf
  case word => exact fun a v hbelay => execStagedWriteForward_belay hbelay a v

/-! ## A CINCH that its coordinator decides (R31, R32, R41) -/

/-- A CINCH just validated is decided for the boundary that R32 gives now, unless a scheduled activation is too near. -/
theorem State.decideCinch_validating {s : State} {c : Cinch} (hphase : c.phase = .validating)
    (hfar : s.meetsActivation (s.chooseBoundary c).1 = false) :
    s.decideCinch c = (s.setCinch (some { c with
      phase := .ready, boundary := (s.chooseBoundary c).1, late := (s.chooseBoundary c).2 })).toUnits c.units 0
        (.commit (s.chooseBoundary c).1) := by
  simp [State.decideCinch, hphase, hfar]

/-- R41: in pair mode with no partner that follows, the CINCH goes on alone. -/
theorem execCinchValidated_pair_alone {s : State} {c : Cinch} (hc : s.glb.cinch = some c) (hphase : c.phase = .validating)
    (hvalid : s.firstRefusal (s.shd.look []) (!s.teamLook) = none) (hpair : s.pairMode = true) (hnone : s.forwards = false) :
    execCinchValidated s = .next (s.decideCinch { c with alone := true }) := by
  simp [execCinchValidated, hc, hphase, hvalid, hpair, hnone]

/-- A CINCH for epoch 1 that Warden firmware validates. -/
def validatingCinch : Cinch :=
  { tag := 0, target := 1, eff := none, grace := 0, accepted := 0, phase := .validating, boundary := 0, late := false, waiting := [],
    bitmaps := [], alone := false, sentAt := 0 }

/-- A package with ENABLE 0 that is in pair mode all the same: MODE 1, and STATE is not OFF; slot 0 holds the witness key that R411
asks of MODE 1. -/
def pairModeNotEnabled : State :=
  { (State.reset.wr Reg.PAIR_CTL_MODE 1).wr Reg.PAIR_STAT_STATE 1 with
    slots := [(0, ⟨1, 1, 8, 0xFF, 0, 0, none, false, 1, 0, 5⟩)]
    glb := { GlbState.reset with cinch := some validatingCinch, sealed := true } }

theorem pairModeNotEnabled_valid :
    pairModeNotEnabled.firstRefusal (pairModeNotEnabled.shd.look []) (!pairModeNotEnabled.teamLook) = none := by
  decide +kernel

theorem pairModeNotEnabled_pairMode : pairModeNotEnabled.pairMode = true := by decide +kernel

theorem pairModeNotEnabled_forwards : pairModeNotEnabled.forwards = false := by decide +kernel

theorem pairModeNotEnabled_state : pairModeNotEnabled.rd Reg.PAIR_STAT_STATE ≠ 4 := by decide +kernel

theorem pairModeNotEnabled_enable : pairModeNotEnabled.on Reg.PAIR_CTL_ENABLE = false := by decide +kernel

theorem pairModeNotEnabled_meetsActivation (b : Instant) : pairModeNotEnabled.meetsActivation b = false := rfl

/-- Refutes O18: with PAIR_CTL.ENABLE 0 but MODE 1 and STATE neither OFF nor ACTIVE the package counts as one of a pair, so that the
CINCH decided is marked as applying alone, where the statement leaves `alone` false. -/
theorem not_cinchAcceptanceAndValidationComplete : ¬ Obligations.CinchAcceptanceAndValidationComplete := by
  unfold Obligations.CinchAcceptanceAndValidationComplete
  intro h
  obtain ⟨-, -, -, -, hdecided⟩ := h 0 0 false 0 0 0 [] validatingCinch pairModeNotEnabled
  have hstated := hdecided rfl rfl pairModeNotEnabled_valid pairModeNotEnabled_state pairModeNotEnabled_enable
    (pairModeNotEnabled_meetsActivation _)
  have hactual := execCinchValidated_pair_alone (s := pairModeNotEnabled) rfl rfl pairModeNotEnabled_valid
    pairModeNotEnabled_pairMode pairModeNotEnabled_forwards
  rw [State.decideCinch_validating rfl (pairModeNotEnabled_meetsActivation _)] at hactual
  have halone := congrArg (fun t : State => t.glb.cinch.map Cinch.alone) (Host.Outcome.next.inj (hstated.symm.trans hactual))
  exact absurd halone (by simp [Cinch.units, validatingCinch, State.toUnits, State.setCinch])

/-! ## The members of a team or pair in a CINCH (R39, R40) -/

/-- Which unit coordinates a member does not rest on what GLB keeps. -/
theorem State.coordinatorUnit_glb (s : State) (g : GlbState) : State.coordinatorUnit { s with glb := g } = s.coordinatorUnit := rfl

/-- R39: a member whose shadow is consistent and whose epoch is the one before the target seals it and answers ready. -/
theorem execCinchPrepare_ready {s : State} {target : BitVec 32} (b : Nat) (hmember : s.cinchMember = true)
    (hidle : s.glb.member = none) (hepoch : target.toNat = epochNext (s.rd Reg.GLB_EPOCH_EPOCH))
    (hvalid : s.firstRefusal (s.shd.look []) true = none) :
    execCinchPrepare target b none s =
      .next ((({ s with glb := { s.glb with sealed := true, member := some ⟨target.toNat, b, none, false⟩ } }.showPending
        (some target.toNat)).lseAccept).sendHjel s.coordinatorUnit 0 (.ready true s.shd.bitmap s.shd.shapes)) := by
  simp [execCinchPrepare, hmember, hidle, hepoch, hvalid, State.setMember, State.coordinatorUnit_glb]

/-- R39: a Belay whose shadow has another digest than the Active's answers with class 0x09. -/
theorem execCinchPrepare_differs {s : State} {target : BitVec 32} {d : Nat} (b : Nat) (hmember : s.cinchMember = true)
    (hidle : s.glb.member = none) (hdigest : d ≠ s.shd.digest) :
    execCinchPrepare target b (some d) s =
      .next ((s.recordInc 9 0 0 0 0).sendHjel s.coordinatorUnit 0 (.ready false 0 [])) := by
  simp [execCinchPrepare, hmember, hidle, hdigest]

/-- R39: a prepare for the target that is prepared already only moves the boundary. -/
theorem execCinchPrepare_again {s : State} {target : BitVec 32} {m : MemberCinch} (b : Nat) (hmember : s.cinchMember = true)
    (hm : s.glb.member = some m) (htarget : m.target = target.toNat) (hdiverged : m.diverged = false) (d : Option Nat) :
    execCinchPrepare target b d s = .next (s.setMember (some { m with boundary := b })) := by
  simp [execCinchPrepare, hmember, hm, htarget, hdiverged]

theorem execCinchReadyAnswer_refusal {s : State} {c : Cinch} {u : Fin 16} (hc : s.glb.cinch = some c)
    (hphase : c.phase = .preparing) (hu : u.val ∈ c.waiting) (bitmap : Nat) (shapes : List (Nat × Nat × Nat × Nat)) :
    execCinchReadyAnswer u false bitmap shapes s =
      .next (((s.recordInc 0x0A 0 0 0 u).abortTeam c).refuse c .refusedInconsistent) := by
  simp [execCinchReadyAnswer, hc, hphase, hu]

/-- R39: in a pair the CINCH is decided with the partner's ready answer, the only one. -/
theorem execCinchReadyAnswer_pair {s : State} {c : Cinch} {u : Fin 16} (hc : s.glb.cinch = some c)
    (hphase : c.phase = .preparing) (hu : c.waiting = [u.val]) (hpair : s.pairMode = true) (hteam : s.teamLook = false)
    (bitmap : Nat) (shapes : List (Nat × Nat × Nat × Nat)) :
    execCinchReadyAnswer u true bitmap shapes s =
      .next (s.decideCinch { c with waiting := [], bitmaps := c.bitmaps ++ [(u.val, bitmap)] }) := by
  simp [execCinchReadyAnswer, hc, hphase, hu, hpair, hteam]

theorem execCinchPrepareTimeout_due {s : State} {c : Cinch} (hc : s.glb.cinch = some c) (hphase : c.phase = .preparing)
    (hdue : c.sentAt + 20000000 ≤ s.now) :
    execCinchPrepareTimeout s = .next ((s.abortTeam c).refuse c .degraded) := by
  simp [execCinchPrepareTimeout, hc, hphase, hdue]

theorem State.memberCommit_ahead {s : State} {m : MemberCinch} {b : Nat} (hm : s.glb.member = some m)
    (hopen : m.decision = none) (hdiverged : m.diverged = false) (hahead : s.now < b) :
    s.memberCommit b = s.setMember (some { m with decision := some true, boundary := b }) := by
  simp [State.memberCommit, hm, hopen, hdiverged, Nat.not_le.mpr hahead]

theorem State.memberAbort_member {s : State} {m : MemberCinch} (hm : s.glb.member = some m) :
    s.memberAbort = ((s.setMember none).release).wr Reg.GLB_CINCH_STAT_DIVERGED 0 := by
  simp [State.memberAbort, hm]

/-- Settles O19, one lemma for each answer of a member and each of the coordinator's reactions. -/
theorem cinchTeamPhasesComplete : Obligations.CinchTeamPhasesComplete := by
  unfold Obligations.CinchTeamPhasesComplete
  intro target b c m u bitmap shapes s
  refine ⟨?ready, ?differs, ?again, ?refusal, ?lastReady, ?timeout, ?commit, ?abort⟩
  case ready => exact fun hmember hidle hepoch hvalid => execCinchPrepare_ready b hmember hidle hepoch hvalid
  case differs => exact fun d hmember hidle hdigest => execCinchPrepare_differs b hmember hidle hdigest
  case again => exact fun hmember hm htarget hdiverged d => execCinchPrepare_again b hmember hm htarget hdiverged d
  case refusal => exact fun hc hphase hu => execCinchReadyAnswer_refusal hc hphase hu bitmap shapes
  case lastReady => exact fun hc hphase hu hpair hteam => execCinchReadyAnswer_pair hc hphase hu hpair hteam bitmap shapes
  case timeout => exact fun hc hphase hdue => execCinchPrepareTimeout_due hc hphase hdue
  case commit => exact fun hm hopen hdiverged hahead => congrArg _ (State.memberCommit_ahead hm hopen hdiverged hahead)
  case abort => exact fun hm => congrArg _ (State.memberAbort_member hm)

/-! ## A CINCH at its boundary (R33 to R35, R40, R41) -/

/-- R33: the coordinator applies the shadow, and completes at once or waits for the confirmations of those that were ready. -/
theorem execCinchApply_coordinator {s : State} {c : Cinch} (hc : s.glb.cinch = some c) (hphase : c.phase = .ready)
    (hdue : c.boundary ≤ s.now) :
    execCinchApply s = .next (if c.bitmaps = [] then
        ((s.applyCinch c.boundary).setCinch none).cinchDone c.tag
          (if c.alone then .degraded else if c.late then .late else .ok) (some c.boundary)
      else (s.applyCinch c.boundary).setCinch (some { c with phase := .confirming, waiting := c.bitmaps.map (·.1) })) := by
  by_cases hnone : c.bitmaps = [] <;>
    simp [execCinchApply, hc, hphase, Nat.not_lt.mpr hdue, hnone]

/-- R33, R40: a member that holds a decision applies the shadow and confirms. -/
theorem execCinchApply_decided {s : State} {m : MemberCinch} {x : Bool} (hc : s.glb.cinch = none) (hm : s.glb.member = some m)
    (hx : m.decision = some x) (hdue : m.boundary ≤ s.now) :
    execCinchApply s = .next (((((s.setMember none).applyCinch m.boundary).wr Reg.GLB_CINCH_STAT_DIVERGED 0).sendHjel
      ((s.setMember none).applyCinch m.boundary).coordinatorUnit 0 .confirm)) := by
  simp [execCinchApply, hc, hm, hx, Nat.not_lt.mpr hdue]

/-- R40: a member without a decision at the boundary is diverged. -/
theorem execCinchApply_undecided {s : State} {m : MemberCinch} (hc : s.glb.cinch = none) (hm : s.glb.member = some m)
    (hopen : m.decision = none) (hdiverged : m.diverged = false) (hdue : m.boundary ≤ s.now) :
    execCinchApply s =
      .next (((s.setMember (some { m with diverged := true })).wr Reg.GLB_CINCH_STAT_DIVERGED 1).pairEvent 8) := by
  simp [execCinchApply, hc, hm, hopen, hdiverged, Nat.not_lt.mpr hdue]

theorem execCinchConfirm_last {s : State} {c : Cinch} {u : Fin 16} (hc : s.glb.cinch = some c) (hphase : c.phase = .confirming)
    (hlast : c.waiting.filter (fun x => x != u.val) = []) :
    execCinchConfirm u s = .next ((s.setCinch none).cinchDone c.tag (if c.late then .late else .ok) (some c.boundary)) := by
  simp [execCinchConfirm, hc, hphase, hlast]

theorem execCinchConfirmTimeout_due {s : State} {c : Cinch} (hc : s.glb.cinch = some c) (hphase : c.phase = .confirming)
    (hdue : c.boundary + 5000000 ≤ s.now) :
    execCinchConfirmTimeout s = .next ((s.setCinch none).cinchDone c.tag .degraded (some c.boundary)) := by
  simp [execCinchConfirmTimeout, hc, hphase, hdue]

theorem execRetiringCopyExpiry_due {s : State} {r : Retiring} (hr : s.ret = some r) (hdue : r.expiry ≤ s.now) :
    execRetiringCopyExpiry s = .next s.retire := by
  simp [execRetiringCopyExpiry, hr, hdue]

/-- Settles O20, by what the coordinator and a member do at the boundary and after it. -/
theorem cinchApplicationCompletes : Obligations.CinchApplicationCompletes := by
  unfold Obligations.CinchApplicationCompletes
  intro c m r u s
  refine ⟨?atOnce, ?confirming, ?decided, ?undecided, ?confirmed, ?timeout, ?expiry⟩
  case atOnce =>
    intro hc hphase hdue hnone
    exact (execCinchApply_coordinator hc hphase hdue).trans (by rw [if_pos hnone])
  case confirming =>
    intro hc hphase hdue hsome
    exact (execCinchApply_coordinator hc hphase hdue).trans (by rw [if_neg hsome])
  case decided => exact fun x hc hm hx hdue => execCinchApply_decided hc hm hx hdue
  case undecided => exact fun hc hm hopen hdiverged hdue => execCinchApply_undecided hc hm hopen hdiverged hdue
  case confirmed => exact fun hc hphase hlast => execCinchConfirm_last hc hphase hlast
  case timeout => exact fun hc hphase hdue => execCinchConfirmTimeout_due hc hphase hdue
  case expiry => exact fun hr hdue => execRetiringCopyExpiry_due hr hdue

/-! ## CAPTURE_ARM and SCHEDULE (R36, R230, R247, R331, R333) -/

theorem execCaptureArmFire_enabled {s : State} {ch : Fin 8} (hs : s.Serving) (hon : (s.capCfg ch).capOn = true)
    (tag : BitVec 16) :
    let f := s.capTrigger ch [⟨s.now, 9, 0, false⟩] (s.trigPoint s.now)
    execCaptureArmFire tag ch s =
      .next (f.2.capDone tag ch (if f.1 = Fired.fired ∨ f.1 = Fired.merged then .ok else .degraded)) := by
  simp [execCaptureArmFire, State.served_of_serving hs, hon]

theorem execCaptureArmAbort_recording {s : State} {ch : Fin 8} (hs : s.Serving) (hon : (s.capCfg ch).capOn = true)
    (hrec : (s.capChan ch).phase = .recording) (tag : BitVec 16) :
    execCaptureArmAbort tag ch s = .next ((s.capComplete ch false true).capDone tag ch .ok) := by
  simp [execCaptureArmAbort, State.served_of_serving hs, hon, hrec]

/-- R331, R333: a SCHEDULE of ACTION ARM that is due arms its channel and completes with that status. -/
theorem execScheduleDue_arm {s : State} {x : Sched} (hx : s.hif.schedules.find? (fun x => decide (x.due ≤ s.now)) = some x)
    (harm : x.action = 1) :
    let u : State := { s with hif := { s.hif with schedules := s.hif.schedules.erase x } }
    execScheduleDue s = .next ((u.capArm x.chan).2.mgmtDone .schedule x.tag ((u.capArm x.chan).1.orLate x.late)
      (x.due % nsPerS + 2 ^ 32 * (x.due / nsPerS % 2 ^ 32))) := by
  simp [execScheduleDue, hx, harm]

/-- Settles O21: served commands have their own effect, which for ARM and DISARM and for a SCHEDULE is their whole meaning. -/
theorem captureArmAndScheduleComplete : Obligations.CaptureArmAndScheduleComplete := by
  unfold Obligations.CaptureArmAndScheduleComplete
  intro tag ch at_ grace x s
  refine ⟨?arm, ?disarm, ?fire, ?abort, ?scheduleFire, ?scheduleArm, ?scheduleDisarm, ?due⟩
  case arm => exact fun hs => State.served_of_serving hs _ tag _
  case disarm => exact fun hs => State.served_of_serving hs _ tag _
  case fire => exact fun hs hon => execCaptureArmFire_enabled hs hon tag
  case abort => exact fun hs hon hrec => execCaptureArmAbort_recording hs hon hrec tag
  case scheduleFire => exact fun hs => State.served_of_serving hs _ tag _
  case scheduleArm => exact fun hs => State.served_of_serving hs _ tag _
  case scheduleDisarm => exact fun hs => State.served_of_serving hs _ tag _
  case due => exact fun hx harm => execScheduleDue_arm hx harm

/-! ## Register words (R24, R42, R43, R481, R482) -/

/-- R481, R482: an aligned write that BAR0 serves, of a word with no row of its own that nothing discards, acts by the access codes. -/
theorem execRegisterWrite_fields {s : State} {who : Requester} {addr : BitVec 26} {value : BitVec 32}
    (haligned : addr.toNat % 4 = 0) (hmay : (s.breakSequence addr.toNat).mayWrite who addr.toNat = true)
    (hrow : (s.breakSequence addr.toNat).ownRow who addr.toNat value = none)
    (hkept : (s.breakSequence addr.toNat).discarded who addr.toNat = none) :
    execRegisterWrite who addr value s = .next ((s.breakSequence addr.toNat).follow
      ((s.breakSequence addr.toNat).writeFields addr.toNat value.toNat) addr.toNat value.toNat) := by
  simp [execRegisterWrite, State.writePlain, haligned, hmay, hrow, hkept]

/-- R482: an unaligned write does nothing but break a two-write sequence. -/
theorem execRegisterWrite_unaligned {addr : BitVec 26} (hodd : addr.toNat % 4 ≠ 0) (s : State) (who : Requester)
    (value : BitVec 32) : execRegisterWrite who addr value s = .next (s.breakSequence addr.toNat) := by
  simp [execRegisterWrite, hodd]

theorem execSnapLatchRead_window {s : State} {addr : BitVec 26} {w : Window} (hlocal : s.on Reg.GLB_SNAP_CTL_MODE = false)
    (hopen : s.barOpen addr.toNat = true) (hw : s.windowAt addr.toNat = some w) (hbase : addr.toNat = w.base) :
    execSnapLatchRead addr s = .next (s.latchWindow w) := by
  rw [hbase] at hopen hw
  simp [execSnapLatchRead, hlocal, hbase, hopen, hw]

theorem execSnapLatchRead_group {s : State} {addr : BitVec 26} {d : RegD} {b : Nat} (hlocal : s.on Reg.GLB_SNAP_CTL_MODE = false)
    (hopen : s.barOpen addr.toNat = true) (hw : s.windowAt addr.toNat = none) (hd : findReg addr.toNat = some (d, b))
    (hsnap : d.isSnap = true) (hbase : addr.toNat = b) :
    execSnapLatchRead addr s = .next (s.latchGroup d b) := by
  subst hbase
  simp [execSnapLatchRead, hlocal, hopen, hw, hd, hsnap]

theorem execSnapTake_take {value : BitVec 32} (htake : bitOf value.toNat 0 = true) (s : State) :
    execSnapTake value s = .next (s.wr Reg.GLB_SNAP_CTL_MODE (bits value.toNat 1 1)).latchAll := by
  simp [execSnapTake, htake]

/-- Settles O39: writes and latching reads by their guards; the other accesses are unconditional. -/
theorem registerAccessesComplete : Obligations.RegisterAccessesComplete := by
  unfold Obligations.RegisterAccessesComplete
  intro who addr value d w entry b s
  refine ⟨?fields, ?unaligned, ?window, ?group, ?take, rfl, rfl, rfl, rfl, rfl⟩
  case fields => exact fun haligned hmay hrow hkept => execRegisterWrite_fields haligned hmay hrow hkept
  case unaligned => exact fun hodd => execRegisterWrite_unaligned hodd s who value
  case window => exact fun hlocal hopen hw hbase => execSnapLatchRead_window hlocal hopen hw hbase
  case group => exact fun hlocal hopen hw hd hsnap hbase => execSnapLatchRead_group hlocal hopen hw hd hsnap hbase
  case take => exact fun htake => execSnapTake_take htake s

end Sys2Proof.Machine

namespace Sys2Proof.Machine
open Sys2Proof

/-! ## The count of the time base (R44, R45) -/

theorem State.reset_timeBaseLegal : State.reset.TimeBaseLegal where
  instant := by decide
  fraction := by decide
  increment := by decide
  waiting := fun v hv => by cases hv

/-- Settles O7: reset leaves 0 s, no fraction, 2 ns and no waiting increment. -/
theorem timeBaseLegalAtReset : Obligations.TimeBaseLegalAtReset := State.reset_timeBaseLegal

/-- The increment that a tick adds is in range. -/
theorem State.TimeBaseLegal.incr_taken {s : State} (h : s.TimeBaseLegal) : incrLegal (s.tb.incrNext.getD s.tb.incr) := by
  cases hn : s.tb.incrNext with
  | none => exact h.increment
  | some v => exact h.waiting v hn

theorem instantModulus_pos : 0 < instantModulus := by decide

/-- R44, R47: a tick, with or without a step of the time base, leaves it in range. -/
theorem State.tickWith_timeBaseLegal {s : State} (h : s.TimeBaseLegal) (delta : Int) : (s.tickWith delta).TimeBaseLegal where
  instant := by
    have hpos : (0 : Int) < instantModulus := Int.natCast_pos.mpr instantModulus_pos
    exact (Int.toNat_lt (Int.emod_nonneg _ hpos.ne')).mpr (Int.emod_lt_of_pos _ hpos)
  fraction := Nat.mod_lt _ (by decide)
  increment := h.incr_taken
  waiting := fun v hv => by cases hv

theorem State.tick_timeBaseLegal {s : State} (h : s.TimeBaseLegal) : s.tick.TimeBaseLegal := State.tickWith_timeBaseLegal h 0

/-- Adding two fixed-point numbers part by part, with the carry of their fractions, adds them as one number. -/
theorem fixedPoint_add (n f v : Nat) :
    n + v / 2 ^ 32 + (f + v % 2 ^ 32) / 2 ^ 32 = (2 ^ 32 * n + f + v) / 2 ^ 32 ∧
      (f + v % 2 ^ 32) % 2 ^ 32 = (2 ^ 32 * n + f + v) % 2 ^ 32 := by
  omega

/-- R44: as one number of 2^-32 ns the time base grows by the increment taken, and wraps with the seconds. -/
theorem State.tick_count (s : State) :
    2 ^ 32 * s.tick.tb.ns + s.tick.tb.frac =
      (2 ^ 32 * s.tb.ns + s.tb.frac + s.tb.incrNext.getD s.tb.incr) % (2 ^ 32 * instantModulus) := by
  obtain ⟨hcarry, hfraction⟩ := fixedPoint_add s.tb.ns s.tb.frac (s.tb.incrNext.getD s.tb.incr)
  have hns : s.tick.tb.ns =
      (2 ^ 32 * s.tb.ns + s.tb.frac + s.tb.incrNext.getD s.tb.incr) / 2 ^ 32 % instantModulus := by
    simp only [State.tick, State.tickWith, Int.add_zero, ← Int.natCast_emod, Int.toNat_natCast, hcarry]
  have hfrac : s.tick.tb.frac = (2 ^ 32 * s.tb.ns + s.tb.frac + s.tb.incrNext.getD s.tb.incr) % 2 ^ 32 := hfraction
  rw [hns, hfrac, Nat.mod_mul, Nat.add_comm]

/-- A time base 2 ns before the end of a second: the next tick is the first one of the second. -/
def secondEnding : State := { State.reset with tb := { TbState.reset with ns := 999999998 } }

theorem secondEnding_timeBaseLegal : secondEnding.TimeBaseLegal where
  instant := by decide
  fraction := by decide
  increment := by decide
  waiting := fun v hv => by cases hv

/-- Refutes O8: at the first tick of a second a PPS_OUT pulse falls due (R63), so that a tick changes more of the time base than its
count and fraction. -/
theorem not_tickAddsIncrement : ¬ Obligations.TickAddsIncrement := by
  unfold Obligations.TickAddsIncrement
  rintro ⟨htick, -⟩
  obtain ⟨-, -, -, -, -, -, honly⟩ := htick secondEnding secondEnding_timeBaseLegal rfl
  have hdue : secondEnding.tick.tb.ppsDue = true := by decide
  have hkept : secondEnding.tick.tb.ppsDue = secondEnding.tb.ppsDue := congrArg (·.tb.ppsDue) honly
  exact absurd (hdue.symm.trans hkept) (by decide)

/-! ## TB_INCR (R45, R46) -/

/-- What TB_INCR_WRITE makes of its high word: the 40-bit increment. -/
def State.incrWritten (s : State) (high : BitVec 32) : Nat := high.toNat % 256 * 2 ^ 32 + s.tb.incrLow.toNat

/-- R45: outside HOLDOVER the owner's increment waits for the next tick where it is in range, and is discarded where it is not. -/
theorem execTbIncrWrite_owner {s : State} {who : Requester} (hmay : s.mayWrite who 0x4000C = true) (howns : s.ownsTb who = true)
    (hstate : s.tbState ≠ tbHOLDOVER) (high : BitVec 32) :
    execTbIncrWrite who high s =
      if s.incrWritten high < 0x01FD70A3D7 ∨ 0x02028F5C29 < s.incrWritten high then .next (s.wr Reg.TB_STAT_INCR_RANGE 1)
      else .next { s with tb := { s.tb with incrNext := some (s.incrWritten high), holdWrite := false } } :=
  (if_neg (by simp [hmay])).trans ((if_neg (by simp [howns])).trans (if_neg (by simp [hstate])))

theorem execTbIncrWrite_legal {s : State} {who : Requester} {high : BitVec 32} (hmay : s.mayWrite who 0x4000C = true)
    (howns : s.ownsTb who = true) (hstate : s.tbState ≠ tbHOLDOVER) (hlegal : incrLegal (s.incrWritten high)) :
    execTbIncrWrite who high s =
      .next { s with tb := { s.tb with incrNext := some (s.incrWritten high), holdWrite := false } } :=
  (execTbIncrWrite_owner hmay howns hstate high).trans (if_neg (by omega))

theorem execTbIncrWrite_illegal {s : State} {who : Requester} {high : BitVec 32} (hmay : s.mayWrite who 0x4000C = true)
    (howns : s.ownsTb who = true) (hstate : s.tbState ≠ tbHOLDOVER) (hillegal : ¬ incrLegal (s.incrWritten high)) :
    execTbIncrWrite who high s = .next (s.wr Reg.TB_STAT_INCR_RANGE 1) :=
  (execTbIncrWrite_owner hmay howns hstate high).trans (if_pos (by omega))

theorem execTbIncrWrite_notOwner {s : State} {who : Requester} (hmay : s.mayWrite who 0x4000C = true)
    (howns : s.ownsTb who = false) (high : BitVec 32) : execTbIncrWrite who high s = .next (s.wr Reg.TB_STAT_OWNER_WR 1) := by
  simp [execTbIncrWrite, hmay, howns]

/-- Settles O9, by the two answers of TB_INCR_WRITE to the owner and by what a tick adds. -/
theorem incrementTakenAtNextTick : Obligations.IncrementTakenAtNextTick := by
  unfold Obligations.IncrementTakenAtNextTick
  intro s t who high _ hstate howns hmay hexec
  refine ⟨fun hlegal => ?_, fun hillegal => ?_⟩
  · obtain rfl := Host.Outcome.next.inj ((execTbIncrWrite_legal hmay howns hstate hlegal).symm.trans hexec)
    exact ⟨rfl, rfl, rfl, rfl, State.tick_count _⟩
  · exact (Host.Outcome.next.inj ((execTbIncrWrite_illegal hmay howns hstate hillegal).symm.trans hexec)).symm

/-! ## A step with no command waiting (R44) -/

/-- Settles O2, by the two cases of `State.idle`. -/
theorem idleStepIsOneTick : Obligations.IdleStepIsOneTick := by
  unfold Obligations.IdleStepIsOneTick
  intro s hs
  have hstep : step s = .next s.idle := by simp [step, hs]
  refine ⟨fun hdark => ?_, fun hlit => ?_⟩
  · rw [hstep, State.idle, if_pos hdark]
  · rw [hstep, State.idle, if_neg (Bool.eq_false_iff.mp hlit)]

/-! ## Diagnostics (R383, R388, R393) -/

theorem execTemperatureFault_hot {s : State} {tj : BitVec 16} (hhot : 11500 < signed tj.toNat 16)
    (hmax : signed (s.rd Reg.SAFE_MON_TJ_MAX) 16 < signed tj.toNat 16) :
    execTemperatureFault tj s = .next (((s.wr Reg.SAFE_MON_TJ_MAX tj.toNat).raise 211).react 0x06) := by
  have hwarm : 11000 < signed tj.toNat 16 := by omega
  simp [execTemperatureFault, hmax, hhot, hwarm]

theorem execTemperatureFault_recorded {s : State} {tj : BitVec 16} (hcool : signed tj.toNat 16 ≤ 11000)
    (hmax : signed (s.rd Reg.SAFE_MON_TJ_MAX) 16 < signed tj.toNat 16) :
    execTemperatureFault tj s = .next (s.wr Reg.SAFE_MON_TJ_MAX tj.toNat) := by
  have hwarm : ¬ 11000 < signed tj.toNat 16 := by omega
  have hhot : ¬ 11500 < signed tj.toNat 16 := by omega
  simp [execTemperatureFault, hmax, hhot, hwarm]

theorem execTbPlausCheck_out {adv : Nat} (hout : adv < 1980000 ∨ 2020000 < adv) (s : State) :
    execTbPlausCheck adv s = .next (((s.wr Reg.TB_STAT_PLAUS 1).raise 56).react 0x0D) := by
  simp [execTbPlausCheck, when, hout]

theorem execPeriodicSelftest_failed {s : State} {fail : BitVec 16} (hproducing : s.producing = true)
    (hdue : s.safety.ptestAt + nsPerS * s.cf Reg.SAFE_CTL_PTEST_S ≤ s.now) (hfail : fail.toNat &&& periodicTests ≠ 0) :
    let u := State.bump { s with safety := { s.safety with ptestAt := s.now } } .safe C.SAFE_PTESTS_RUN
    execPeriodicSelftest fail s = .next (((u.wr Reg.SAFE_TEST_STAT_FAIL
      ((u.rd Reg.SAFE_TEST_STAT_FAIL &&& (2 ^ 16 - 1 - periodicTests)) ||| (fail.toNat &&& periodicTests))).raise 210).react 0x10) := by
  simp [execPeriodicSelftest, when, hproducing, hdue, hfail]

/-- Settles O34: the diagnostics with a condition by their own lemmas, the others are unconditional. -/
theorem safetyReactionsComplete : Obligations.SafetyReactionsComplete := by
  unfold Obligations.SafetyReactionsComplete
  intro pair rail tj adv pin fail s
  refine ⟨rfl, rfl, rfl, rfl, ?hot, ?recorded, ?plausible, rfl, ?selftest⟩
  case hot => exact fun hhot hmax => execTemperatureFault_hot hhot hmax
  case recorded => exact fun hcool hmax => execTemperatureFault_recorded hcool hmax
  case plausible => exact fun hout => execTbPlausCheck_out hout s
  case selftest => exact fun hproducing hdue hfail => execPeriodicSelftest_failed hproducing hdue hfail

end Sys2Proof.Machine

namespace Sys2Proof.Machine
open Sys2Proof

/-! ## Commands of the time base (R45 to R50, R52 to R54, R64 to R66) -/

theorem execTbStepWrite_taken {s : State} {who : Requester} (hmay : s.mayWrite who 0x40024 = true) (howns : s.ownsTb who = true)
    (hstate : s.tbState ≠ tbHOLDOVER) (hidle : s.producing = false) (high : BitVec 32) :
    execTbStepWrite who high s = .next (s.stepped (s.stepDelta high)) := by
  simp [execTbStepWrite, hmay, howns, hstate, hidle]

/-- R48: while slices are produced, time does not go back. -/
theorem execTbStepWrite_refused {s : State} {who : Requester} {high : BitVec 32} (hmay : s.mayWrite who 0x40024 = true)
    (howns : s.ownsTb who = true) (hstate : s.tbState ≠ tbHOLDOVER) (hproducing : s.producing = true)
    (hback : s.stepDelta high < 0) :
    execTbStepWrite who high s = .next ((s.wr Reg.TB_STAT_STEP_REF 1).raise 52) := by
  simp [execTbStepWrite, hmay, howns, hstate, hproducing, hback]

/-- R65: a word with EN 1 that leaves LATE arms the alarm with the instant that its registers then hold. -/
theorem execTbAlmArm_armed {s : State} {k : Fin 4} {word : BitVec 32} (hopen : s.barOpen (0x40068 + 0x10 * k) = true)
    (hlate : bitOf word.toNat 17 = false) (hen : bitOf word.toNat 16 = true) :
    let u := (s.wr (Reg.TB_ALM_S k) (setBits (s.rd (Reg.TB_ALM_S k)) 32 16 (word.toNat % 2 ^ 16))).wr (Reg.TB_ALM_EN k) 1
    execTbAlmArm k word s = .next { u with tb := { u.tb with
      almNext := kvSet u.tb.almNext k (u.almInstant k, decide (u.almInstant k < u.now)) } } := by
  simp only [execTbAlmArm, hopen, hlate, hen]
  rfl

theorem execTbAlmFire_due {s : State} {k : Fin 4} (hdue : s.almDue k = true) : execTbAlmFire k s = .next (s.almFire k false) := by
  simp [execTbAlmFire, hdue]

theorem execHoldoverSecond_due {s : State} (hstate : s.tbState = tbHOLDOVER) (hdue : s.tb.holdNext ≤ s.now) :
    let u := s.wr Reg.TB_ERR_ERR_NS (min 0xFFFFFFFF (s.rd Reg.TB_ERR_ERR_NS + s.cf Reg.TB_REF_HOLD_PPB))
    execHoldoverSecond s = .next (State.setTq { u with tb := { u.tb with holdNext := u.tb.holdNext + nsPerS } }) := by
  simp [execHoldoverSecond, hstate, hdue]

/-- R50: an inserted second adds one to OFFSET. -/
theorem execLeapApply_inserted {s : State} (hdue : s.leapDue = true) (hpend : s.rd Reg.TB_UTC_LEAP_PEND = 1) :
    let u := ((s.wr Reg.TB_UTC_OFFSET (s.rd Reg.TB_UTC_OFFSET + 1)).wr Reg.TB_UTC_LEAP_PEND 0).wr Reg.TB_UTC_LSO 1
    execLeapApply s = .next (State.raise
      { u with tb := { u.tb with lsoUntil := (u.now / nsPerS + 86400) * nsPerS, leapDeleted := false } } 54) := by
  simp [execLeapApply, hdue, hpend]

theorem execLsoExpiry_due {s : State} (hlso : s.on Reg.TB_UTC_LSO = true) (hdue : s.tb.lsoUntil ≤ s.now) :
    execLsoExpiry s = .next (s.wr Reg.TB_UTC_LSO 0) := by
  simp [execLsoExpiry, hlso, hdue]

theorem execRef10mLoss_used {s : State} (hfref : s.cfOn Reg.TB_CTL_FREF = true) (hpresent : s.tb.ref10mPresent = true) :
    execRef10mLoss s = .next ((State.wr { s with tb := { s.tb with pllRef10m := false, ref10mPresent := false } }
      Reg.TB_STAT_FREF_LOST 1).raise 59) := by
  simp [execRef10mLoss, hfref, hpresent]

/-- Settles O40, one lemma for each command under the conditions of its clause. -/
theorem timeBaseCommandsComplete : Obligations.TimeBaseCommandsComplete := by
  unfold Obligations.TimeBaseCommandsComplete
  intro who high word k s
  refine ⟨?incr, ?incrRange, ?incrOwner, ?step, ?stepBack, ?arm, ?fire, ?holdover, ?leap, ?lso, ?ref10m, rfl⟩
  case incr => exact fun hmay howns hstate hlegal => execTbIncrWrite_legal hmay howns hstate hlegal
  case incrRange => exact fun hmay howns hstate hillegal => execTbIncrWrite_illegal hmay howns hstate hillegal
  case incrOwner => exact fun hmay howns => execTbIncrWrite_notOwner hmay howns high
  case step => exact fun hmay howns hstate hidle => execTbStepWrite_taken hmay howns hstate hidle high
  case stepBack => exact fun hmay howns hstate hproducing hback => execTbStepWrite_refused hmay howns hstate hproducing hback
  case arm => exact fun hopen hlate hen => execTbAlmArm_armed hopen hlate hen
  case fire => exact fun hdue => execTbAlmFire_due hdue
  case holdover => exact fun hstate hdue => execHoldoverSecond_due hstate hdue
  case leap => exact fun hdue hpend => execLeapApply_inserted hdue hpend
  case lso => exact fun hlso hdue => execLsoExpiry_due hlso hdue
  case ref10m => exact fun hfref hpresent => execRef10mLoss_used hfref hpresent

/-! ## References, 1PPS and IRIG-B (R51, R53, R55, R62, R63) -/

theorem execRefQualify_acquires {s : State} (hstate : s.tbState = tbFREE ∨ s.tbState = tbHOLDOVER) (hbest : s.bestRef ≠ 0) :
    execRefQualify s = .next ((s.wr Reg.TB_STAT_ACTIVE_REF s.bestRef).setTbState tbACQUIRING) := by
  simp [execRefQualify, when, hstate, hbest]

theorem execRefLoss_lost {s : State} (hactive : s.rd Reg.TB_STAT_ACTIVE_REF ≠ 0)
    (hlost : s.refLost (s.rd Reg.TB_STAT_ACTIVE_REF) = true) :
    execRefLoss s = .next ((s.missing (s.rd Reg.TB_STAT_ACTIVE_REF)).loseRef false) := by
  simp [execRefLoss, when, hactive, hlost]

/-- R55: a qualified primary takes over from the secondary, which is not lost. -/
theorem execRefLoss_replaced {s : State} (hactive : s.rd Reg.TB_STAT_ACTIVE_REF ≠ 0)
    (hkept : s.refLost (s.rd Reg.TB_STAT_ACTIVE_REF) = false) (hbest : s.bestRef ≠ 0)
    (hother : s.bestRef ≠ s.rd Reg.TB_STAT_ACTIVE_REF) : execRefLoss s = .next (s.loseRef false) := by
  simp [execRefLoss, when, hactive, hkept, hbest, hother]

/-- R51: the detector finds 1PPS lost, and there is no IRIG-B. -/
theorem execHwLossDetect_pps {s : State} (hedges : s.tb.refs.ppsLast ≠ none) (hlost : s.refLost refPPS = true)
    (hirig : (s.hwLoss refPPS).tb.refs.irigLast = none) : execHwLossDetect s = .next (s.hwLoss refPPS) := by
  simp [execHwLossDetect, Option.isSome_iff_ne_none.mpr hedges, hlost, hirig]

theorem execTbLock_locks {s : State} (hstate : s.tbState = tbACQUIRING) (hcount : 16 ≤ s.tb.lockCount) :
    execTbLock s = .next (s.setTbState tbLOCKED) := by
  simp [execTbLock, hstate, hcount]

/-- R63: the first edge on PPS_IN is time-stamped, counts as one, and is measured against the time base. -/
theorem execPpsInEdge_first {s : State} (hlit : s.dark = false) (hfirst : s.tb.refs.ppsLast = none) :
    let u := s.wrInstant Reg.TB_PPS_TS_S Reg.TB_PPS_TS_NS s.now
    let v : State := { u with tb := { u.tb with refs := { s.tb.refs with ppsEdges := 1, ppsLast := some s.now } } }
    execPpsInEdge s = .next (v.measured refPPS v.ppsOffset) := by
  simp [execPpsInEdge, hlit, hfirst, State.wrInstant]

theorem execPpsOutPulse_rises {s : State} (hdue : s.tb.ppsDue = true) (hlit : s.dark = false)
    (hmode : s.cf Reg.TB_CTL_PPS_OUT_MODE = 1) :
    execPpsOutPulse s = .next (State.emit { s with tb := { s.tb with
      ppsDue := false, ppsOut := true, ppsOutEnd := s.now + 1000 * s.cf Reg.TB_PPS_OUT_WIDTH_US } } (.ppsOut s.now)) := by
  simp only [execPpsOutPulse, hdue, hlit, hmode]
  rfl

theorem execPpsOutPulse_off {s : State} (hdue : s.tb.ppsDue = true) (hmode : s.cf Reg.TB_CTL_PPS_OUT_MODE = 0) :
    execPpsOutPulse s = .next { s with tb := { s.tb with ppsDue := false } } := by
  simp [execPpsOutPulse, hdue, hmode]

theorem execPpsOutEnd_due {s : State} (hhigh : s.tb.ppsOut = true) (hdue : s.tb.ppsOutEnd ≤ s.now) :
    execPpsOutEnd s = .next { s with tb := { s.tb with ppsOut := false } } := by
  simp [execPpsOutEnd, hhigh, hdue]

theorem execIrigbFrame_parity {s : State} {frame : IrigFrame} (hlit : s.dark = false) (hparity : frame.parityOk = false) :
    execIrigbFrame frame s = .next (State.raise { s with tb := { s.tb with refs := { s.tb.refs with
      irigGood := 0, irigBad := s.tb.refs.irigBad + 1 } } } 58) := by
  simp [execIrigbFrame, hlit, hparity]

/-- R62: the first good frame counts as one and is measured; without IEEE 1344 it brings no leap bits. -/
theorem execIrigbFrame_first {s : State} {frame : IrigFrame} (hlit : s.dark = false) (hparity : frame.parityOk = true)
    (hplain : s.cfOn Reg.TB_IRIG_IEEE1344 = false) (hfirst : s.tb.refs.irigLast = none) :
    let mark := s.now - frame.age
    let tai := s.irigTai frame mark
    execIrigbFrame frame s = .next (State.measured { s with tb := { s.tb with refs := { s.tb.refs with
      irigGood := 1, irigLast := some (tai, mark), irigBad := 0 } } } refIRIG (((mark : Nat) : Int) - nsPerS * tai)) := by
  simp [execIrigbFrame, hlit, hparity, hplain, hfirst]

/-- Settles O41, one lemma for each command under the conditions of its clause. -/
theorem referencesAndPulsesComplete : Obligations.ReferencesAndPulsesComplete := by
  unfold Obligations.ReferencesAndPulsesComplete
  intro frame s
  refine ⟨?qualify, ?lost, ?replaced, ?hardware, ?lock, ?edge, ?rises, ?off, ?ends, ?parity, ?good⟩
  case qualify => exact fun hstate hbest => execRefQualify_acquires hstate hbest
  case lost => exact fun hactive hlost => execRefLoss_lost hactive hlost
  case replaced => exact fun hactive hkept hbest hother => execRefLoss_replaced hactive hkept hbest hother
  case hardware => exact fun hedges hlost hirig => execHwLossDetect_pps hedges hlost hirig
  case lock => exact fun hstate hcount => execTbLock_locks hstate hcount
  case edge => exact fun hlit hfirst => execPpsInEdge_first hlit hfirst
  case rises => exact fun hdue hlit hmode => execPpsOutPulse_rises hdue hlit hmode
  case off => exact fun hdue hmode => execPpsOutPulse_off hdue hmode
  case ends => exact fun hhigh hdue => execPpsOutEnd_due hhigh hdue
  case parity => exact fun hlit hparity => execIrigbFrame_parity hlit hparity
  case good => exact fun hlit hparity hplain hfirst => execIrigbFrame_first hlit hparity hplain hfirst

end Sys2Proof.Machine

namespace Sys2Proof.Machine
open Sys2Proof

/-! ## The clock of the time base (R44, R45)

The invariant of R44 and R45 speaks of four fields of the time base, here the clock: the count, its fraction, the increment
in force and the one that waits. Ticks, steps of the time base, writes of the increment and resets change it, and every
other operation leaves it as it was: one lemma `…_clock` says so per operation, and the lemmas of the operations that call
it use that. -/

structure TbClock where
  ns : Instant
  frac : Nat
  incr : Nat
  incrNext : Option Nat

/-- The range of R44 and R45, of a clock. -/
structure TbClock.Legal (c : TbClock) : Prop where
  instant : c.ns < instantModulus
  fraction : c.frac < 2 ^ 32
  increment : incrLegal c.incr
  waiting : ∀ v, c.incrNext = some v → incrLegal v

def TbState.clock (t : TbState) : TbClock := ⟨t.ns, t.frac, t.incr, t.incrNext⟩

def State.clock (s : State) : TbClock := s.tb.clock

theorem State.timeBaseLegal_iff (s : State) : s.TimeBaseLegal ↔ s.clock.Legal :=
  ⟨fun ⟨hns, hfrac, hincr, hwait⟩ => ⟨hns, hfrac, hincr, hwait⟩, fun ⟨hns, hfrac, hincr, hwait⟩ => ⟨hns, hfrac, hincr, hwait⟩⟩

/-- The clock that a step leaves; a step that is not modelled leaves none. -/
def resultClock : Result → Option TbClock
  | .next t => some t.clock
  | _ => none

/-! The proofs `(rfl)` below are in parentheses so that `simp` keeps them as rewriting steps: as definitional equalities
they would make the kernel compare whole states. -/

@[simp] theorem State.tb_clock (s : State) : s.tb.clock = s.clock := (rfl)

@[simp] theorem State.clock_eta (s : State) :
    (⟨s.tb.ns, s.tb.frac, s.tb.incr, s.tb.incrNext⟩ : TbClock) = s.clock := (rfl)

@[simp] theorem TbState.clock_mk (ns frac incr : Nat) (a) (n : Option Nat) (b c d e f g h i j k l m o p q r s t u v w x) :
    (TbState.mk ns frac incr a n b c d e f g h i j k l m o p q r s t u v w x).clock = ⟨ns, frac, incr, n⟩ := (rfl)

@[simp] theorem State.clock_mk (pending dev act shd ret glb tb port pair safety key pwr upd err sched fsl ing slots bound
    phe rawSv stch pins lse osc isl cap pub hif xlt freeCtr out) :
    (State.mk pending dev act shd ret glb tb port pair safety key pwr upd err sched fsl ing slots bound
      phe rawSv stch pins lse osc isl cap pub hif xlt freeCtr out).clock = tb.clock := (rfl)

@[simp] theorem State.clock_ite (c : Prop) [Decidable c] (s t : State) :
    (if c then s else t).clock = if c then s.clock else t.clock :=
  apply_ite _ _ _ _

theorem State.clock_of_snd_eq {α : Type} {s t : State} {p : α × State} {a : α} (hp : p.2.clock = s.clock)
    (h : p = (a, t)) : t.clock = s.clock := by
  rw [h] at hp
  exact hp

@[simp] theorem resultClock_next (t : State) : resultClock (.next t) = some t.clock := (rfl)

@[simp] theorem resultClock_ite (c : Prop) [Decidable c] (r q : Result) :
    resultClock (if c then r else q) = if c then resultClock r else resultClock q :=
  apply_ite _ _ _ _

@[simp] theorem resultClock_when (g : Bool) (s t : State) :
    resultClock (when g s t) = some (if g then t.clock else s.clock) := by
  cases g <;> rfl

@[simp] theorem State.dequeued_clock (s : State) (t : Result) :
    resultClock (s.dequeued t) = if s.pwr.sleep.isSome then some s.clock else resultClock t := by
  simp [State.dequeued]

/-! ### Folds over the state -/

@[simp] theorem State.foldl_clock {α : Type} {f : State → α → State} (h : ∀ s a, (f s a).clock = s.clock) (l : List α)
    (s : State) : (l.foldl f s).clock = s.clock := by
  induction l generalizing s with
  | nil => rfl
  | cons a l ih => rw [List.foldl_cons, ih, h]

@[simp] theorem State.foldl_snd_clock {α β : Type} {f : β × State → α → β × State}
    (h : ∀ x a, (f x a).2.clock = x.2.clock) (l : List α) (x : β × State) : (l.foldl f x).2.clock = x.2.clock := by
  induction l generalizing x with
  | nil => rfl
  | cons a l ih => rw [List.foldl_cons, ih, h]

@[simp] theorem State.foldl_fst_clock {α β : Type} {f : State × β → α → State × β}
    (h : ∀ x a, (f x a).1.clock = x.1.clock) (l : List α) (x : State × β) : (l.foldl f x).1.clock = x.1.clock := by
  induction l generalizing x with
  | nil => rfl
  | cons a l ih => rw [List.foldl_cons, ih, h]

/-! ### The state's own writes (Machine/State.lean) -/

@[simp] theorem State.wr_clock (s : State) (f v) : (s.wr f v).clock = s.clock := (rfl)

@[simp] theorem State.wrB_clock (s : State) (f v) : (s.wrB f v).clock = s.clock := (rfl)

@[simp] theorem State.orBit_clock (s : State) (f v) : (s.orBit f v).clock = s.clock := (rfl)

@[simp] theorem State.wrInstant_clock (s : State) (f v t) : (s.wrInstant f v t).clock = s.clock := (rfl)

@[simp] theorem State.free_clock (s : State) : s.free.2.clock = s.clock := (rfl)

@[simp] theorem State.emit_clock (s : State) (o) : (s.emit o).clock = s.clock := (rfl)

@[simp] theorem State.setRing_clock (s : State) (f v) : (s.setRing f v).clock = s.clock := (rfl)

@[simp] theorem State.backlog_clock (s : State) (f) : (s.backlog f).clock = s.clock := (rfl)

@[simp] theorem State.mgmtStart_clock (s : State) (f v) : (s.mgmtStart f v).clock = s.clock := (rfl)

end Sys2Proof.Machine

namespace Sys2Proof.Machine
open Sys2Proof

/-! ### Counters, events and records (Machine/Ops.lean) -/

@[simp] theorem State.routeF_clock (fuel : Nat) (s : State) (src : Nat) :
    (State.routeF fuel s src).clock = s.clock := by
  induction fuel generalizing s src with
  | zero => rfl
  | succ fuel ih =>
    simp only [State.routeF]
    (repeat' split) <;> simp [ih]

@[simp] theorem State.route_clock (s : State) (src : Nat) : (State.route s src).clock = s.clock := by
  simp [State.route]

@[simp] theorem State.raise_clock (s : State) (src : Nat) (idx : List (Fld × Nat)) :
    (State.raise s src idx).clock = s.clock := by
  rcases hc : causeOf src with _ | ⟨f, k⟩ <;> simp [State.raise, hc]

@[simp] theorem State.portCause_clock (s : State) (n k : Nat) : (State.portCause s n k).clock = s.clock := by
  simp [State.portCause]

@[simp] theorem State.bumpBy_clock (s : State) (b : Blk) (i d : Nat) (x : Nat) :
    (State.bumpBy s b i d x).clock = s.clock := by
  simp [State.bumpBy]

@[simp] theorem State.bump_clock (s : State) (b : Blk) (i : Nat) (x : Nat) :
    (State.bump s b i x).clock = s.clock := by
  simp [State.bump]

@[simp] theorem State.portCount_clock (s : State) (n i : Nat) (d : Nat) :
    (State.portCount s n i d).clock = s.clock := by
  simp [State.portCount]

@[simp] theorem State.complete_clock (s : State) (r c : Nat) : (State.complete s r c).clock = s.clock := by
  simp [State.complete]

@[simp] theorem State.mgmtDone_clock (s : State) (op : Opcode) (tag : Nat) (st : Status) (result : Nat) :
    (State.mgmtDone s op tag st result).clock = s.clock := by
  simp [State.mgmtDone]

@[simp] theorem State.faultRecord_clock (s : State) (cls access chan item level flags dva entry : Nat) :
    (State.faultRecord s cls access chan item level flags dva entry).clock = s.clock := by
  simp [State.faultRecord]

@[simp] theorem State.chShow_clock (s : State) : (State.chShow s).clock = s.clock := by
  unfold State.chShow
  split <;> simp

@[simp] theorem State.suspMark_clock (s : State) (chan : Nat) (u : Susp) :
    (State.suspMark s chan u).clock = s.clock := by
  simp [State.suspMark]

@[simp] theorem State.suspend_clock (s : State) (chan stream : Nat) (write : Bool)
    (item taken dva cls level entry : Nat) :
    (State.suspend s chan stream write item taken dva cls level entry).clock = s.clock := by
  unfold State.suspend
  split <;> simp

@[simp] theorem State.translate_clock (s : State) (dva : Nat) (write : Bool) (w : Walk) :
    (State.translate s dva write w).2.clock = s.clock := by
  simp only [State.translate]
  (repeat' split) <;> simp

@[simp] theorem State.dma_clock (s : State) (chan stream : Nat) (write : Bool) (item taken dva : Nat) (d : Dma) :
    
    (s.dma chan stream write item taken dva d).2.clock = s.clock := by
  unfold State.dma
  split
  · next h => exact State.clock_of_snd_eq (State.translate_clock _ _ _ _) h
  · next h => simpa using State.clock_of_snd_eq (State.translate_clock _ _ _ _) h

@[simp] theorem State.cmdDma_clock (s : State) (write : Bool) (item dva : Nat) (d : Dma) :
    (s.cmdDma write item dva d).2.clock = s.clock := by
  unfold State.cmdDma
  split
  · next h => exact State.clock_of_snd_eq (State.translate_clock _ _ _ _) h
  · next h => simpa using State.clock_of_snd_eq (State.translate_clock _ _ _ _) h

@[simp] theorem State.msi_clock (s : State) (v : Nat) : (State.msi s v).clock = s.clock := by
  simp [State.msi]

@[simp] theorem State.served_clock (s : State) (op : Opcode) (tag : BitVec 16) (t : Result) :
    resultClock (s.served op tag t) =
    if s.pwr.sleep.isSome then some s.clock else if s.quarantine then some s.clock else resultClock t := by
  simp [State.served]

@[simp] theorem State.pairEvent_clock (s : State) (k : Nat) : (State.pairEvent s k).clock = s.clock := by
  simp [State.pairEvent]

@[simp] theorem State.routeDiscard_clock (s : State) : (State.routeDiscard s).clock = s.clock := by
  simp [State.routeDiscard]

@[simp] theorem State.emitHjel_clock (s : State) (unit vc : Nat) (m : Hjel) :
    (State.emitHjel s unit vc m).clock = s.clock := by
  simp [State.emitHjel]

@[simp] theorem State.sendHjel_clock (s : State) (unit vc : Nat) (m : Hjel) :
    (State.sendHjel s unit vc m).clock = s.clock := by
  unfold State.sendHjel
  split <;> simp

@[simp] theorem State.toPeer_clock (s : State) (vc : Nat) (m : Hjel) : (State.toPeer s vc m).clock = s.clock := by
  simp [State.toPeer]

@[simp] theorem State.toUnits_clock (s : State) (us : List Nat) (vc : Nat) (m : Hjel) :
    (State.toUnits s us vc m).clock = s.clock := by
  simp [State.toUnits]

/-! ### Delivery (Machine/Deliver.lean) -/

@[simp] theorem State.dropItem_clock (s : State) (i : PubItem) : (State.dropItem s i).clock = s.clock := by
  simp [State.dropItem]

@[simp] theorem State.dropOldest_clock (s : State) (kind : Nat) : (State.dropOldest s kind).clock = s.clock := by
  unfold State.dropOldest
  split <;> simp

@[simp] theorem State.produce_clock (s : State) (i : PubItem) : (State.produce s i).clock = s.clock := by
  simp [State.produce]

@[simp] theorem State.revisionGone_clock (s : State) (r : Revision) : (State.revisionGone s r).clock = s.clock := by
  unfold State.revisionGone
  split <;> simp

/-! ### Diagnosis (Machine/Diag.lean) -/

@[simp] theorem State.enterSafe_clock (s : State) (cause : Nat) : (State.enterSafe s cause).clock = s.clock := by
  simp [State.enterSafe]

@[simp] theorem State.report_clock (s : State) (cause : Nat) : (State.report s cause).clock = s.clock := by
  simp [State.report]

@[simp] theorem State.reportFree_clock (s : State) : (State.reportFree s).clock = s.clock := by
  simp [State.reportFree]

@[simp] theorem State.logShow_clock (s : State) : (State.logShow s).clock = s.clock := by
  simp [State.logShow]

@[simp] theorem State.logError_clock (s : State) (cls mem unit code addr : Nat) :
    (State.logError s cls mem unit code addr).clock = s.clock := by
  unfold State.logError
  split <;> simp

@[simp] theorem State.correctable_clock (s : State) (mem unit code addr : Nat) :
    (State.correctable s mem unit code addr).clock = s.clock := by
  simp [State.correctable]

@[simp] theorem State.recoverable_clock (s : State) (mem unit code addr : Nat) :
    (State.recoverable s mem unit code addr).clock = s.clock := by
  simp [State.recoverable]

@[simp] theorem State.keyStart_clock (s : State) (i alg use : Nat) :
    (State.keyStart s i alg use).2.clock = s.clock := by
  simp only [State.keyStart]
  (repeat' split) <;> simp

@[simp] theorem State.keyBegan_clock (s : State) (i alg use : Nat) (t : Instant) :
    (State.keyBegan s i alg use t).2.2.clock = s.clock := by
  simp only [State.keyBegan]
  (repeat' split) <;> simp

/-! ### Triggers and outputs (Machine/Trigger.lean) -/

@[simp] theorem State.setCapChan_clock (s : State) (c : Nat) (x : CapChan) :
    (State.setCapChan s c x).clock = s.clock := by
  simp [State.setCapChan]

@[simp] theorem State.capEvent_clock (s : State) (k c : Nat) : (State.capEvent s k c).clock = s.clock := by
  simp [State.capEvent]

@[simp] theorem State.capComplete_clock (s : State) (c : Nat) (overflow aborted : Bool) :
    (State.capComplete s c overflow aborted).clock = s.clock := by
  simp only [State.capComplete]
  (repeat' split) <;> simp

@[simp] theorem State.capTake_clock (s : State) (c : Nat) (key : Nat) (i : CapItem) :
    (State.capTake s c key i).clock = s.clock := by
  simp only [State.capTake]
  (repeat' split) <;> simp

@[simp] theorem State.sliceOverwritten_clock (s : State) (t : Instant) :
    (State.sliceOverwritten s t).clock = s.clock := by
  simp [State.sliceOverwritten]

@[simp] theorem State.pruneRaw_clock (s : State) : (State.pruneRaw s).clock = s.clock := by
  simp [State.pruneRaw]

@[simp] theorem State.trigOut_clock (s : State) (k : Nat) : (State.trigOut s k).clock = s.clock := by
  simp [State.trigOut]

@[simp] theorem State.almPulse_clock (s : State) (k : Nat) : (State.almPulse s k).clock = s.clock := by
  simp [State.almPulse]

@[simp] theorem State.driveXfire_clock (s : State) : (State.driveXfire s).clock = s.clock := by
  simp [State.driveXfire]

@[simp] theorem State.capFire_clock (s : State) (c : Nat) (causes : List CapCause) (tp : Instant) :
    (State.capFire s c causes tp).clock = s.clock := by
  unfold State.capFire
  split <;> simp

@[simp] theorem State.capMiss_clock (s : State) (c : Nat) : (State.capMiss s c).clock = s.clock := by
  simp [State.capMiss]

@[simp] theorem State.capTrigger_clock (s : State) (c : Nat) (causes : List CapCause) (tp : Instant) :
    (State.capTrigger s c causes tp).2.clock = s.clock := by
  simp only [State.capTrigger]
  (repeat' split) <;> simp

@[simp] theorem State.trigger_clock (s : State) (causes : List CapCause) (tp : Instant) :
    (State.trigger s causes tp).clock = s.clock := by
  simp [State.trigger]

@[simp] theorem State.capFrame_clock (s : State) (n : Nat) (f : Frame) : (s.capFrame n f).clock = s.clock := by
  simp only [State.capFrame]
  refine State.foldl_clock (fun s e => ?_) _ _
  (repeat' split) <;> simp

@[simp] theorem State.captureWritten_clock (s : State) (cs : List Nat) (written : Bool) :
    (State.captureWritten s cs written).clock = s.clock := by
  simp [State.captureWritten]

@[simp] theorem State.capArmed_clock (s : State) (c : Nat) : (State.capArmed s c).clock = s.clock := by
  simp [State.capArmed]

@[simp] theorem State.xarmChange_clock (s : State) (level : Bool) : (State.xarmChange s level).clock = s.clock := by
  simp [State.xarmChange]

@[simp] theorem State.capIdle_clock (s : State) (c : Nat) (abort : Bool) :
    (State.capIdle s c abort).clock = s.clock := by
  simp [State.capIdle]

@[simp] theorem State.capApply_clock (s : State) (old : Cfg) : (State.capApply s old).clock = s.clock := by
  simp [State.capApply]

@[simp] theorem State.capBivouac_clock (s : State) : (State.capBivouac s).clock = s.clock := by
  simp [State.capBivouac]

/-! ### References, pulses and holdover (Machine/TimeBase.lean) -/

@[simp] theorem State.setTq_clock (s : State) : (State.setTq s).clock = s.clock := by
  simp [State.setTq]

@[simp] theorem State.setTbState_clock (s : State) (st : Nat) : (State.setTbState s st).clock = s.clock := by
  simp [State.setTbState]

@[simp] theorem execTbAlmArm_clock (k : Fin 4) (word : BitVec 32) (s : State) :
    resultClock (execTbAlmArm k word s) = some s.clock := by
  simp [execTbAlmArm]

@[simp] theorem State.almFire_clock (s : State) (k : Nat) (late : Bool) :
    (State.almFire s k late).clock = s.clock := by
  unfold State.almFire
  split <;> simp

@[simp] theorem execTbAlmFire_clock (k : Fin 4) (s : State) : resultClock (execTbAlmFire k s) = some s.clock := by
  simp [execTbAlmFire]

@[simp] theorem State.missing_clock (s : State) (r : Nat) : (State.missing s r).clock = s.clock := by
  simp [State.missing]

@[simp] theorem State.voidRef_clock (s : State) (r : Nat) : (State.voidRef s r).clock = s.clock := by
  simp [State.voidRef]

@[simp] theorem State.loseRef_clock (s : State) (hw : Bool) : (State.loseRef s hw).clock = s.clock := by
  simp [State.loseRef]

@[simp] theorem execRefQualify_clock (s : State) : resultClock (execRefQualify s) = some s.clock := by
  simp [execRefQualify]

@[simp] theorem execRefLoss_clock (s : State) : resultClock (execRefLoss s) = some s.clock := by
  simp [execRefLoss]

@[simp] theorem State.hwLoss_clock (s : State) (r : Nat) : (State.hwLoss s r).clock = s.clock := by
  simp [State.hwLoss]

@[simp] theorem execHwLossDetect_clock (s : State) : resultClock (execHwLossDetect s) = some s.clock := by
  simp [execHwLossDetect]

@[simp] theorem State.measured_clock (s : State) (r : Nat) (off : Int) :
    (State.measured s r off).clock = s.clock := by
  simp [State.measured]

@[simp] theorem execTbLock_clock (s : State) : resultClock (execTbLock s) = some s.clock := by
  simp [execTbLock]

@[simp] theorem execHoldoverSecond_clock (s : State) : resultClock (execHoldoverSecond s) = some s.clock := by
  simp [execHoldoverSecond]

@[simp] theorem execLeapApply_clock (s : State) : resultClock (execLeapApply s) = some s.clock := by
  simp [execLeapApply]

@[simp] theorem execLsoExpiry_clock (s : State) : resultClock (execLsoExpiry s) = some s.clock := by
  simp [execLsoExpiry]

@[simp] theorem State.setLeapPend_clock (s : State) (v : Nat) : (State.setLeapPend s v).clock = s.clock := by
  simp [State.setLeapPend]

@[simp] theorem State.ptpAfresh_clock (s : State) : (State.ptpAfresh s).clock = s.clock := by
  simp [State.ptpAfresh]

@[simp] theorem State.announce_clock (s : State) (m : PtpMsg) : (State.announce s m).clock = s.clock := by
  simp [State.announce]

@[simp] theorem State.sync_clock (s : State) (n : Nat) (m : PtpMsg) : (State.sync s n m).clock = s.clock := by
  simp [State.sync]

@[simp] theorem State.toRing_clock (s : State) (src ring port : Nat) (ts : Instant) (cells : Nat) (f : Frame) :
    (State.toRing s src ring port ts cells f).clock = s.clock := by
  simp [State.toRing]

@[simp] theorem execPtpMessage_clock (port : Fin 48) (msg : PtpMsg) (bytes : List Byte) (s : State) :
    resultClock (execPtpMessage port msg bytes s) = some s.clock := by
  unfold execPtpMessage
  split <;> simp

@[simp] theorem execAnnounceReceiptTimeout_clock (s : State) :
    resultClock (execAnnounceReceiptTimeout s) = some s.clock := by
  unfold execAnnounceReceiptTimeout
  split <;> simp

@[simp] theorem execIrigbFrame_clock (frame : IrigFrame) (s : State) :
    resultClock (execIrigbFrame frame s) = some s.clock := by
  simp [execIrigbFrame]

@[simp] theorem execPpsInEdge_clock (s : State) : resultClock (execPpsInEdge s) = some s.clock := by
  simp [execPpsInEdge]

@[simp] theorem execPpsOutPulse_clock (s : State) : resultClock (execPpsOutPulse s) = some s.clock := by
  simp [execPpsOutPulse]

@[simp] theorem execPpsOutEnd_clock (s : State) : resultClock (execPpsOutEnd s) = some s.clock := by
  simp [execPpsOutEnd]

@[simp] theorem execRef10mLoss_clock (s : State) : resultClock (execRef10mLoss s) = some s.clock := by
  simp [execRef10mLoss]

@[simp] theorem execRef10mReturn_clock (s : State) : resultClock (execRef10mReturn s) = some s.clock := by
  simp [execRef10mReturn]

/-! ### Ports and frames (Machine/Ports.lean) -/

@[simp] theorem State.setPrt_clock (s : State) (n : Nat) (p : Port) : (State.setPrt s n p).clock = s.clock := by
  simp [State.setPrt]

@[simp] theorem State.prpStage_clock (s : State) (n : Nat) (f : Frame) :
    (State.prpStage s n f).2.clock = s.clock := by
  simp only [State.prpStage]
  (repeat' split) <;> simp

@[simp] theorem State.countAccepted_clock (s : State) (n : Nat) (f : Frame) :
    (State.countAccepted s n f).clock = s.clock := by
  simp [State.countAccepted]

@[simp] theorem State.police_clock (s : State) (n : Nat) (entry : Option Nat) :
    (State.police s n entry).2.clock = s.clock := by
  unfold State.police
  split <;> simp

@[simp] theorem State.stages_clock (s : State) (n : Nat) (f : Frame) : (State.stages s n f).clock = s.clock := by
  simp [State.stages]

@[simp] theorem State.countLine_clock (s : State) (n : Nat) (f : Frame) :
    (State.countLine s n f).clock = s.clock := by
  simp [State.countLine]

@[simp] theorem execFrameReceive_clock (port : Fin 48) (frame : Frame) (s : State) :
    resultClock (execFrameReceive port frame s) = some s.clock := by
  simp only [execFrameReceive]
  (repeat' split) <;> simp

@[simp] theorem execPrpEntryAge_clock (harness : Fin 25) (s : State) :
    resultClock (execPrpEntryAge harness s) = some s.clock := by
  simp [execPrpEntryAge]

@[simp] theorem State.dropTx_clock (s : State) (n : Nat) (f : TxFrame) : (State.dropTx s n f).clock = s.clock := by
  unfold State.dropTx
  split <;> simp

@[simp] theorem State.enqueue1_clock (s : State) (n q : Nat) (f : TxFrame) :
    (State.enqueue1 s n q f).clock = s.clock := by
  simp [State.enqueue1]

@[simp] theorem State.send_clock (s : State) (dest q : Nat) (f : TxFrame) :
    (State.send s dest q f).clock = s.clock := by
  simp [State.send]

@[simp] theorem State.twoStep_clock (s : State) (n : Nat) (ts : Instant) (f : TxFrame) (tag : Nat) :
    (State.twoStep s n ts f tag).2.clock = s.clock := by
  simp only [State.twoStep]
  (repeat' split) <;> simp

@[simp] theorem State.txDone_clock (s : State) (f : TxFrame) (st : Status) (record : Option Nat) :
    (State.txDone s f st record).clock = s.clock := by
  simp only [State.txDone]
  (repeat' split) <;> simp

@[simp] theorem State.discardTx_clock (s : State) (n q : Nat) (f : TxFrame) :
    (State.discardTx s n q f).clock = s.clock := by
  simp [State.discardTx]

@[simp] theorem State.discardQueued_clock (s : State) (n : Nat) : (State.discardQueued s n).clock = s.clock := by
  simp [State.discardQueued]

@[simp] theorem State.leave_clock (s : State) (n q : Nat) (f : TxFrame) (prp : Option (List Byte)) (first : Bool) :
    (State.leave s n q f prp first).clock = s.clock := by
  simp only [State.leave]
  (repeat' split) <;> simp

@[simp] theorem State.copiesDone_clock (s : State) (f : TxFrame) : (State.copiesDone s f).clock = s.clock := by
  simp [State.copiesDone]

@[simp] theorem execFrameTransmit_clock (port : Fin 48) (s : State) :
    resultClock (execFrameTransmit port s) = some s.clock := by
  simp only [execFrameTransmit]
  (repeat' split) <;> simp

@[simp] theorem execPrpSupervision_clock (harness : Fin 25) (s : State) :
    resultClock (execPrpSupervision harness s) = some s.clock := by
  simp [execPrpSupervision]

@[simp] theorem execLinkUp_clock (port : Fin 48) (speed : Fin 6) (anDone : Bool) (s : State) :
    resultClock (execLinkUp port speed anDone s) = some s.clock := by
  simp [execLinkUp]

@[simp] theorem State.dropLink_clock (s : State) (n : Nat) : (State.dropLink s n).clock = s.clock := by
  simp [State.dropLink]

@[simp] theorem execLinkDown_clock (port : Fin 48) (s : State) :
    resultClock (execLinkDown port s) = some s.clock := by
  simp [execLinkDown]

@[simp] theorem State.setQuench_clock (s : State) (kind target : Nat) (b : Bool) :
    (State.setQuench s kind target b).clock = s.clock := by
  unfold State.setQuench
  split <;> simp

@[simp] theorem execQuench_clock (tag : BitVec 16) (kind : BitVec 8) (target : BitVec 16) (s : State) :
    resultClock (execQuench tag kind target s) = some s.clock := by
  unfold execQuench
  split <;> simp

@[simp] theorem execQuenchRelease_clock (tag : BitVec 16) (kind : BitVec 8) (target : BitVec 16) (s : State) :
    resultClock (execQuenchRelease tag kind target s) = some s.clock := by
  unfold execQuenchRelease
  split <;> simp

@[simp] theorem execPtpSend_clock (port : Fin 48) (kind : PtpKind) (s : State) :
    resultClock (execPtpSend port kind s) = some s.clock := by
  simp [execPtpSend]

/-! ### Rings of the host interface (Machine/Hif.lean) -/

@[simp] theorem execNop_clock (tag : BitVec 16) (s : State) : resultClock (execNop tag s) = some s.clock := by
  simp [execNop]

@[simp] theorem State.dueDoorbell_clock (s : State) (r : Option Nat) : (State.dueDoorbell s r).clock = s.clock := by
  simp [State.dueDoorbell]

@[simp] theorem execNudgeMmioOne_clock (ring : Fin 64) (s : State) :
    resultClock (execNudgeMmioOne ring s) = some s.clock := by
  simp [execNudgeMmioOne]

@[simp] theorem execNudgeMmioAll_clock (s : State) : resultClock (execNudgeMmioAll s) = some s.clock := by
  simp [execNudgeMmioAll]

@[simp] theorem execNudgePoll_clock (value : BitVec 64) (dma : Dma) (s : State) :
    resultClock (execNudgePoll value dma s) = some s.clock := by
  simp [execNudgePoll]

@[simp] theorem State.doorbell_clock (s : State) (r w : Nat) : (State.doorbell s r w).clock = s.clock := by
  simp [State.doorbell]

@[simp] theorem State.doorbells_clock (s : State) (r : Nat) (ws : List (BitVec 32)) :
    (s.doorbells r ws).clock = s.clock := by
  induction ws generalizing s r with
  | nil => rfl
  | cons w ws ih => simp [State.doorbells, ih]

@[simp] theorem execDoorbellRead_clock (words : List (BitVec 32)) (dma : Dma) (s : State) :
    resultClock (execDoorbellRead words dma s) = some s.clock := by
  simp only [execDoorbellRead]
  (repeat' split) <;> simp

@[simp] theorem execDescriptorFetch_clock (ring : Fin 64) (desc : BitVec 256) (dma : Dma) (s : State) :
    resultClock (execDescriptorFetch ring desc dma s) = some s.clock := by
  simp [execDescriptorFetch]

@[simp] theorem State.takeBuffers_clock (s : State) (r n : Nat) : (State.takeBuffers s r n).clock = s.clock := by
  simp [State.takeBuffers]

@[simp] theorem State.dropRx_clock (s : State) (i : RxItem) : (State.dropRx s i).clock = s.clock := by
  simp [State.dropRx]

@[simp] theorem execRxRingDeliver_clock (ring : Fin 64) (dma : Dma) (s : State) :
    resultClock (execRxRingDeliver ring dma s) = some s.clock := by
  simp only [execRxRingDeliver]
  (repeat' split) <;> simp

@[simp] theorem State.signal_clock (s : State) (r : Nat) : (State.signal s r).clock = s.clock := by
  simp [State.signal]

@[simp] theorem State.progressed_clock (s : State) (r n : Nat) (progress : Dma) :
    (State.progressed s r n progress).clock = s.clock := by
  simp [State.progressed]

@[simp] theorem State.freeStamps_clock (s : State) (kind : Nat) (cs : List Nat) :
    (State.freeStamps s kind cs).clock = s.clock := by
  simp [State.freeStamps]

@[simp] theorem State.settle_clock (s : State) (r : Nat) : (State.settle s r).clock = s.clock := by
  simp [State.settle]

@[simp] theorem execCompletionWrite_clock (ring : Fin 64) (dma : Dma) (progress : Dma) (s : State) :
    resultClock (execCompletionWrite ring dma progress s) = some s.clock := by
  simp [execCompletionWrite]

@[simp] theorem execIrqCoalTimeout_clock (ring : Fin 64) (s : State) :
    resultClock (execIrqCoalTimeout ring s) = some s.clock := by
  simp [execIrqCoalTimeout]

@[simp] theorem State.settleRings_clock (s : State) : (State.settleRings s).clock = s.clock := by
  simp [State.settleRings]

@[simp] theorem execEventEntryWrite_clock (q : Fin 4) (dma : Dma) (s : State) :
    resultClock (execEventEntryWrite q dma s) = some s.clock := by
  unfold execEventEntryWrite
  split <;> simp

@[simp] theorem State.ringCfg_clock (s : State) (r v : Nat) : (State.ringCfg s r v).clock = s.clock := by
  simp [State.ringCfg]

@[simp] theorem execRingEnable_clock (ring : Fin 64) (value : BitVec 32) (s : State) :
    resultClock (execRingEnable ring value s) = some s.clock := by
  simp [execRingEnable]

@[simp] theorem execRingDisable_clock (ring : Fin 64) (value : BitVec 32) (s : State) :
    resultClock (execRingDisable ring value s) = some s.clock := by
  simp only [execRingDisable]
  (repeat' split) <;> simp

@[simp] theorem State.restartHif_clock (s : State) : (State.restartHif s).clock = s.clock := by
  simp [State.restartHif]

@[simp] theorem execFlr_clock (s : State) : resultClock (execFlr s) = some s.clock := by
  simp [execFlr]

@[simp] theorem execBusMasterDisable_clock (s : State) : resultClock (execBusMasterDisable s) = some s.clock := by
  simp [execBusMasterDisable]

@[simp] theorem execBusMasterEnable_clock (s : State) : resultClock (execBusMasterEnable s) = some s.clock := by
  simp [execBusMasterEnable]

@[simp] theorem execPerst_clock (s : State) : resultClock (execPerst s) = some s.clock := by
  simp [execPerst]

@[simp] theorem execPcieLinkDown_clock (s : State) : resultClock (execPcieLinkDown s) = some s.clock := by
  simp [execPcieLinkDown]

@[simp] theorem execPcieLinkUp_clock (s : State) : resultClock (execPcieLinkUp s) = some s.clock := by
  simp [execPcieLinkUp]

/-! ### Stream ingest (Machine/Ingest.lean) -/

@[simp] theorem State.setEnt_clock (s : State) (e : Nat) (x : EntStat) : (State.setEnt s e x).clock = s.clock := by
  simp [State.setEnt]

@[simp] theorem State.ingEvent_clock (s : State) (k e : Nat) : (State.ingEvent s k e).clock = s.clock := by
  simp [State.ingEvent]

@[simp] theorem State.discard_clock (s : State) (e : Option Nat) (c : Nat) :
    (State.discard s e c).clock = s.clock := by
  simp only [State.discard]
  (repeat' split) <;> simp

@[simp] theorem State.sendCommand_clock (s : State) (e cmd : Nat) : (State.sendCommand s e cmd).clock = s.clock := by
  simp [State.sendCommand]

@[simp] theorem State.setConn_clock (s : State) (e : Nat) (c : Conn) : (State.setConn s e c).clock = s.clock := by
  simp [State.setConn]

@[simp] theorem State.putTcp_clock (s : State) (e kind cmd seq : Nat) :
    (State.putTcp s e kind cmd seq).clock = s.clock := by
  simp [State.putTcp]

@[simp] theorem State.sendTcp_clock (s : State) (e kind cmd : Nat) :
    (State.sendTcp s e kind cmd).clock = s.clock := by
  simp [State.sendTcp]

@[simp] theorem State.tcpResend_clock (s : State) : s.tcpResend.clock = s.clock := by
  unfold State.tcpResend
  refine State.foldl_clock (fun s e => ?_) _ _
  (repeat' split) <;> simp

@[simp] theorem State.command_clock (s : State) (e cmd : Nat) : (State.command s e cmd).clock = s.clock := by
  simp [State.command]

@[simp] theorem State.autoCfg_clock (s : State) (e : Nat) : (State.autoCfg s e).clock = s.clock := by
  simp [State.autoCfg]

@[simp] theorem State.discardFormat_clock (s : State) (e c : Nat) : (State.discardFormat s e c).clock = s.clock := by
  simp [State.discardFormat]

@[simp] theorem State.startAuth_clock (s : State) (r : Rec) (f : Frame) :
    (State.startAuth s r f).2.clock = s.clock := by
  simp only [State.startAuth]
  (repeat' split) <;> simp

@[simp] theorem State.fresh_clock (s : State) (e rate : Nat) (t : Instant) (auth : Bool) :
    (State.fresh s e rate t auth).2.clock = s.clock := by
  simp only [State.fresh]
  (repeat' split) <;> simp

@[simp] theorem State.freeCells_clock (s : State) (i : InFrame) : (State.freeCells s i).clock = s.clock := by
  simp [State.freeCells]

@[simp] theorem State.copyToRing_clock (s : State) (en : Fld) (ring : Fld) (src : Nat) (i : InFrame) :
    (State.copyToRing s en ring src i).clock = s.clock := by
  simp [State.copyToRing]

@[simp] theorem State.parse_clock (s : State) (i : InFrame) (e n : Nat) (f : Frame) :
    (State.parse s i e n f).clock = s.clock := by
  simp [State.parse]

@[simp] theorem State.c37Other_clock (s : State) (i : InFrame) (m : C37) (e : Option Nat) :
    (State.c37Other s i m e).clock = s.clock := by
  simp only [State.c37Other]
  (repeat' split) <;> simp

@[simp] theorem execIngParse_clock (s : State) : resultClock (execIngParse s) = some s.clock := by
  simp only [execIngParse]
  (repeat' split) <;> simp

theorem State.takeParsed_clock {s t : State} {p : Frame → Bool} {x : Parsed} (h : s.takeParsed p = some (x, t)) :
    t.clock = s.clock := by
  unfold State.takeParsed at h
  split at h
  · cases h
  · rw [← (Prod.mk.inj (Option.some.inj h)).2]
    simp

@[simp] theorem State.accept_clock (s : State) (e : Nat) (p : Parsed) (t : Instant) (seq st : Nat) (q : Nat) :
    (State.accept s e p t seq st q).clock = s.clock := by
  simp [State.accept]

@[simp] theorem State.toStitcher_clock (s : State) (m : Meas) : (State.toStitcher s m).clock = s.clock := by
  simp [State.toStitcher]

@[simp] theorem State.c37Blocks_clock (c : Cfg) (p : Parsed) (t : Instant) (q : Nat) (fault : Bool) (s : State)
    (e base : Nat) (bs : List C37Block) :
    
    (State.c37Blocks c p t q fault s e base bs).2.clock = s.clock := by
  induction bs generalizing s e base with
  | nil => rfl
  | cons b bs ih => simp [State.c37Blocks, ih]

@[simp] theorem execC37118DataFrame_clock (s : State) : resultClock (execC37118DataFrame s) = some s.clock := by
  simp only [execC37118DataFrame]
  split
  · rfl
  · next p u h =>
    rw [← State.takeParsed_clock h]
    (repeat' split) <;> simp

@[simp] theorem State.goose_clock (s : State) (c : Cfg) (p : Parsed) (g : GoosePdu) (q : Nat) :
    (State.goose s c p g q).clock = s.clock := by
  simp only [State.goose]
  (repeat' split) <;> simp

@[simp] theorem execGooseFrame_clock (s : State) : resultClock (execGooseFrame s) = some s.clock := by
  simp only [execGooseFrame]
  split
  · rfl
  · next p u h =>
    rw [← State.takeParsed_clock h]
    (repeat' split) <;> simp

@[simp] theorem execGooseTtlExpiry_clock (entry : Fin 8192) (s : State) :
    resultClock (execGooseTtlExpiry entry s) = some s.clock := by
  simp only [execGooseTtlExpiry]
  (repeat' split) <;> simp

@[simp] theorem State.spduSv_clock (s : State) (c : Cfg) (p : Parsed) (num : Nat) (refrTm : Option Nat)
    (flags : Nat) (datSet : List Byte) (confRev : Nat) (simulated : Bool) (data : Option SpduData) (q : Nat) :
    (State.spduSv s c p num refrTm flags datSet confRev simulated data q).clock = s.clock := by
  unfold State.spduSv
  split <;> simp

@[simp] theorem execIec905Spdu_clock (s : State) : resultClock (execIec905Spdu s) = some s.clock := by
  simp only [execIec905Spdu]
  split
  · rfl
  · next p u h =>
    rw [← State.takeParsed_clock h]
    (repeat' split) <;> simp

@[simp] theorem State.asdu_clock (s : State) (c : Cfg) (p : Parsed) (sim : Bool) (a : SvAsdu) :
    (State.asdu s c p sim a).2.clock = s.clock := by
  simp only [State.asdu]
  (repeat' split) <;> simp

@[simp] theorem execSvFrame_clock (s : State) : resultClock (execSvFrame s) = some s.clock := by
  simp only [execSvFrame]
  split
  · rfl
  · next p u h =>
    rw [← State.takeParsed_clock h]
    (repeat' split) <;> simp

@[simp] theorem State.openConn_clock (s : State) (e : Nat) : (State.openConn s e).clock = s.clock := by
  simp [State.openConn]

@[simp] theorem execTcpEstablished_clock (entry : Fin 8192) (next : BitVec 32) (s : State) :
    resultClock (execTcpEstablished entry next s) = some s.clock := by
  simp [execTcpEstablished]

@[simp] theorem execTcpConnectionLoss_clock (entry : Fin 8192) (s : State) :
    resultClock (execTcpConnectionLoss entry s) = some s.clock := by
  simp [execTcpConnectionLoss]

@[simp] theorem execTcpRetry_clock (entry : Fin 8192) (s : State) :
    resultClock (execTcpRetry entry s) = some s.clock := by
  simp [execTcpRetry]

@[simp] theorem State.tcpFrame_clock (s : State) (p : Parsed) (frames : List C37) (bytes : List Byte) :
    (State.tcpFrame s p frames bytes).clock = s.clock := by
  simp only [State.tcpFrame]
  (repeat' split) <;> simp

@[simp] theorem execTcpSegment_clock (s : State) : resultClock (execTcpSegment s) = some s.clock := by
  simp only [execTcpSegment]
  split
  · rfl
  · next p u h =>
    rw [← State.takeParsed_clock h]
    (repeat' split) <;> simp

@[simp] theorem State.forwardRecords_clock (s : State) (code first n : Nat) :
    (State.forwardRecords s code first n).clock = s.clock := by
  simp [State.forwardRecords]

@[simp] theorem State.stageCfg_clock (s : State) (e : Nat) (info : CfgInfo) (cfg3 again : Bool) :
    (State.stageCfg s e info cfg3 again).clock = s.clock := by
  simp [State.stageCfg]

@[simp] theorem State.unseal_clock (s : State) : (State.unseal s).clock = s.clock := by
  simp [State.unseal]

@[simp] theorem execCfgFrame_clock (s : State) : resultClock (execCfgFrame s) = some s.clock := by
  simp only [execCfgFrame]
  split
  · rfl
  · next p u h =>
    rw [← State.takeParsed_clock h]
    (repeat' split) <;> simp

/-! ### Phasor estimation (Machine/Phe.lean) -/

@[simp] theorem State.setPheChan_clock (s : State) (ch : Nat) (x : PheChan) :
    (State.setPheChan s ch x).clock = s.clock := by
  simp [State.setPheChan]

@[simp] theorem State.pheEvent_clock (s : State) (k ch : Nat) : (State.pheEvent s k ch).clock = s.clock := by
  simp [State.pheEvent]

@[simp] theorem State.pheStart_clock (s : State) (ch : Nat) (t : Instant) :
    (State.pheStart s ch t).clock = s.clock := by
  simp [State.pheStart]

@[simp] theorem execPheSample_clock (s : State) : resultClock (execPheSample s) = some s.clock := by
  simp only [execPheSample]
  (repeat' split) <;> simp

@[simp] theorem execPheWaitExpiry_clock (ch : Fin 1024) (s : State) :
    resultClock (execPheWaitExpiry ch s) = some s.clock := by
  simp only [execPheWaitExpiry]
  (repeat' split) <;> simp

@[simp] theorem State.pheNone_clock (s : State) (ch : Nat) : (State.pheNone s ch).clock = s.clock := by
  simp [State.pheNone]

@[simp] theorem State.pheMismatch_clock (s : State) (ch : Nat) (t : Instant) :
    (State.pheMismatch s ch t).clock = s.clock := by
  simp [State.pheMismatch]

@[simp] theorem State.pheOutOfRange_clock (s : State) (ch : Nat) : (State.pheOutOfRange s ch).clock = s.clock := by
  simp [State.pheOutOfRange]

@[simp] theorem State.pheEmit_clock (s : State) (ch : Nat) (t : Instant) (entry q : Nat) (bridged : Bool)
    (o : PheResult) :
    (State.pheEmit s ch t entry q bridged o).clock = s.clock := by
  simp [State.pheEmit]

@[simp] theorem State.pheFinish_clock (s : State) (ch : Nat) (run : PheRun) (agree : Bool) :
    (State.pheFinish s ch run agree).clock = s.clock := by
  simp only [State.pheFinish]
  (repeat' split) <;> simp

@[simp] theorem State.popRun_clock (s : State) (ch : Nat) : (State.popRun s ch).clock = s.clock := by
  simp [State.popRun]

@[simp] theorem execPheOutput_clock (ch : Fin 1024) (agree : Bool) (s : State) :
    resultClock (execPheOutput ch agree s) = some s.clock := by
  unfold execPheOutput
  split <;> simp

@[simp] theorem execPheDualTimeout_clock (ch : Fin 1024) (s : State) :
    resultClock (execPheDualTimeout ch s) = some s.clock := by
  unfold execPheDualTimeout
  split <;> simp

@[simp] theorem State.pheApply_clock (s : State) (old : Cfg) (boundary : Instant) :
    (s.pheApply old boundary).clock = s.clock := by
  simp only [State.pheApply, State.clock_ite, ite_self, State.foldl_clock, implies_true, State.setPheChan_clock,
    State.wr_clock]

/-! ### Stitcher (Machine/Stitcher.lean) -/

@[simp] theorem State.setSlice_clock (s : State) (x : Slice) : (State.setSlice s x).clock = s.clock := by
  simp [State.setSlice]

@[simp] theorem State.dropSlice_clock (s : State) (t : Instant) : (State.dropSlice s t).clock = s.clock := by
  simp [State.dropSlice]

@[simp] theorem State.stchEvent_clock (s : State) (k e : Nat) : (State.stchEvent s k e).clock = s.clock := by
  simp [State.stchEvent]

@[simp] theorem State.openNext_clock (s : State) : (State.openNext s).clock = s.clock := by
  simp [State.openNext]

@[simp] theorem execSliceOpen_clock (s : State) : resultClock (execSliceOpen s) = some s.clock := by
  simp [execSliceOpen]

@[simp] theorem State.openTo_clock (t : Instant) (n : Nat) (s : State) : (State.openTo t n s).clock = s.clock := by
  induction n generalizing s with
  | zero => rfl
  | succ n ih => simp [State.openTo, ih]

@[simp] theorem State.keepStore_clock (s : State) (l : List Revision) : (State.keepStore s l).clock = s.clock := by
  simp [State.keepStore]

@[simp] theorem State.setDepth_clock (s : State) : (State.setDepth s).clock = s.clock := by
  simp [State.setDepth]

theorem State.storeRev_clock {s t : State} {r : Revision} (h : s.storeRev r = some t) : t.clock = s.clock := by
  unfold State.storeRev at h
  split at h
  · cases h
  · rw [← Option.some.inj h]
    simp

@[simp] theorem State.setTeam_clock (s : State) (t : Instant) (x : TeamSlice) :
    (State.setTeam s t x).clock = s.clock := by
  simp [State.setTeam]

@[simp] theorem State.assemble_clock (s : State) (t : Instant) : (s.assemble t).clock = s.clock := by
  simp only [State.assemble]
  split
  · simp
  · split
    · simp
    · next u h =>
      rw [← State.storeRev_clock h]
      simp

@[simp] theorem State.tryAssemble_clock (s : State) (t : Instant) : (State.tryAssemble s t).clock = s.clock := by
  simp [State.tryAssemble]

@[simp] theorem State.toTeam_clock (s : State) (v : Revision) : (State.toTeam s v).clock = s.clock := by
  simp [State.toTeam]

@[simp] theorem State.stall_clock (s : State) (x : Slice) : (State.stall s x).clock = s.clock := by
  simp [State.stall]

@[simp] theorem State.keepHeld_clock (s : State) (c : Cfg) (n : Nat) (t : Instant) (recs : List (Nat × SRec)) :
    (State.keepHeld s c n t recs).clock = s.clock := by
  simp [State.keepHeld]

@[simp] theorem State.countAbsent_clock (s : State) (c : Cfg) (expected : List Nat) (present : Nat → Bool) :
    (State.countAbsent s c expected present).clock = s.clock := by
  simp [State.countAbsent]

@[simp] theorem State.countFallbacks_clock (s : State) (c : Cfg) (recs : KV SRec) :
    (State.countFallbacks s c recs).clock = s.clock := by
  simp [State.countFallbacks]

@[simp] theorem State.release0_clock (s : State) (x : Slice) : (s.release0 x).clock = s.clock := by
  simp only [State.release0]
  split
  · simp
  · next u h =>
    rw [← State.storeRev_clock h]
    (repeat' split) <;> simp

@[simp] theorem execSliceDeadline_clock (s : State) : resultClock (execSliceDeadline s) = some s.clock := by
  unfold execSliceDeadline
  split <;> simp

@[simp] theorem State.releaseOpen_clock (s : State) (x : Slice) : (State.releaseOpen s x).clock = s.clock := by
  simp [State.releaseOpen]

@[simp] theorem State.releaseFirst_clock (s : State) : (State.releaseFirst s).2.clock = s.clock := by
  simp only [State.releaseFirst]
  (repeat' split) <;> simp

@[simp] theorem execRevision0Release_clock (s : State) : resultClock (execRevision0Release s) = some s.clock := by
  simp [execRevision0Release]

@[simp] theorem State.stepSlices_clock (s : State) (old : Instant) : (State.stepSlices s old).clock = s.clock := by
  simp [State.stepSlices]

@[simp] theorem State.gather_clock (s : State) (x : Slice) (e : Nat) (r : SRec) :
    (State.gather s x e r).clock = s.clock := by
  simp [State.gather]

@[simp] theorem State.releaseNext_clock (s : State) (x : Slice) : (s.releaseNext x).clock = s.clock := by
  simp only [State.releaseNext]
  split
  · simp
  · split
    · simp
    · next u h =>
      rw [← State.storeRev_clock h]
      simp

@[simp] theorem execRevGatherExpiry_clock (s : State) : resultClock (execRevGatherExpiry s) = some s.clock := by
  unfold execRevGatherExpiry
  split <;> simp

@[simp] theorem execRevisionRelease_clock (s : State) : resultClock (execRevisionRelease s) = some s.clock := by
  unfold execRevisionRelease
  split <;> simp

@[simp] theorem State.finish_clock (s : State) (x : Slice) : (State.finish s x).clock = s.clock := by
  simp only [State.finish]
  (repeat' split) <;> simp

@[simp] theorem execSliceHorizon_clock (s : State) : resultClock (execSliceHorizon s) = some s.clock := by
  unfold execSliceHorizon
  split <;> simp

@[simp] theorem execStoreStallClear_clock (s : State) : resultClock (execStoreStallClear s) = some s.clock := by
  unfold execStoreStallClear
  split <;> simp

@[simp] theorem State.beyond_clock (s : State) (e : Nat) : (State.beyond s e).clock = s.clock := by
  simp [State.beyond]

@[simp] theorem State.unexclude_clock (s : State) (e : Nat) : (State.unexclude s e).clock = s.clock := by
  simp [State.unexclude]

@[simp] theorem State.tooLate_clock (s : State) (e : Nat) (t : Instant) : (State.tooLate s e t).clock = s.clock := by
  simp [State.tooLate]

@[simp] theorem State.foreign_clock (s : State) (m : Meas) (n : Nat) : (State.foreign s m n).clock = s.clock := by
  simp [State.foreign]

@[simp] theorem State.placeAt_clock (s : State) (m : Meas) : (State.placeAt s m).clock = s.clock := by
  simp only [State.placeAt]
  (repeat' split) <;> simp

@[simp] theorem State.addInput_clock (s : State) (m : Meas) : (State.addInput s m).clock = s.clock := by
  simp [State.addInput]

@[simp] theorem State.placeInput_clock (s : State) (c : Cfg) (m : Meas) :
    (State.placeInput s c m).clock = s.clock := by
  simp only [State.placeInput]
  (repeat' split) <;> simp

@[simp] theorem State.placeEvent_clock (s : State) (m : Meas) : (s.placeEvent m).clock = s.clock := by
  simp only [State.placeEvent]
  refine (State.foldl_clock (fun s x => ?_) _ _).trans (by simp)
  (repeat' split) <;> simp

@[simp] theorem State.place_clock (s : State) (m : Meas) : (State.place s m).clock = s.clock := by
  simp only [State.place]
  (repeat' split) <;> simp

@[simp] theorem execMeasurementPlace_clock (s : State) : resultClock (execMeasurementPlace s) = some s.clock := by
  unfold execMeasurementPlace
  split <;> simp

@[simp] theorem State.closeBefore_clock (s : State) (b : Instant) : (State.closeBefore s b).clock = s.clock := by
  simp [State.closeBefore]

@[simp] theorem State.retag_clock (s : State) (a b : Nat) : (State.retag s a b).clock = s.clock := by
  simp [State.retag]

@[simp] theorem State.retire_clock (s : State) : (State.retire s).clock = s.clock := by
  unfold State.retire
  split <;> simp

@[simp] theorem State.startProducing_clock (s : State) (t : Instant) :
    (State.startProducing s t).clock = s.clock := by
  simp [State.startProducing]

@[simp] theorem State.stopProducing_clock (s : State) (t : Instant) : (State.stopProducing s t).clock = s.clock := by
  simp [State.stopProducing]

@[simp] theorem State.stchApply_clock (s : State) (old : Cfg) (b : Instant) :
    (State.stchApply s old b).clock = s.clock := by
  simp only [State.stchApply]
  (repeat' split) <;> simp

/-! ### Capture (Machine/Cap.lean) -/

@[simp] theorem State.capArm_clock (s : State) (c : Nat) : (State.capArm s c).2.clock = s.clock := by
  simp only [State.capArm]
  (repeat' split) <;> simp

@[simp] theorem State.capDisarm_clock (s : State) (c : Nat) : (State.capDisarm s c).2.clock = s.clock := by
  simp only [State.capDisarm]
  (repeat' split) <;> simp

@[simp] theorem State.capDone_clock (s : State) (tag : BitVec 16) (c : Nat) (st : Status) :
    (State.capDone s tag c st).clock = s.clock := by
  simp [State.capDone]

@[simp] theorem execCaptureArmArm_clock (tag : BitVec 16) (ch : Fin 8) (s : State) :
    resultClock (execCaptureArmArm tag ch s) = some s.clock := by
  simp [execCaptureArmArm]

@[simp] theorem execCaptureArmDisarm_clock (tag : BitVec 16) (ch : Fin 8) (s : State) :
    resultClock (execCaptureArmDisarm tag ch s) = some s.clock := by
  simp [execCaptureArmDisarm]

@[simp] theorem execCaptureArmFire_clock (tag : BitVec 16) (ch : Fin 8) (s : State) :
    resultClock (execCaptureArmFire tag ch s) = some s.clock := by
  simp [execCaptureArmFire]

@[simp] theorem execCaptureArmAbort_clock (tag : BitVec 16) (ch : Fin 8) (s : State) :
    resultClock (execCaptureArmAbort tag ch s) = some s.clock := by
  simp [execCaptureArmAbort]

@[simp] theorem execHoldoffSatisfied_clock (ch : Fin 8) (s : State) :
    resultClock (execHoldoffSatisfied ch s) = some s.clock := by
  simp [execHoldoffSatisfied]

@[simp] theorem execXarmChange_clock (level : Bool) (s : State) :
    resultClock (execXarmChange level s) = some s.clock := by
  simp [execXarmChange]

@[simp] theorem State.calEdge_clock (s : State) (n : Nat) (raw : Instant) :
    (State.calEdge s n raw).clock = s.clock := by
  unfold State.calEdge
  split <;> simp

@[simp] theorem execTrigInEdge_clock (n : Fin 8) (rising : Bool) (held : Nat) (s : State) :
    resultClock (execTrigInEdge n rising held s) = some s.clock := by
  simp [execTrigInEdge]

@[simp] theorem execXfireEdge_clock (s : State) : resultClock (execXfireEdge s) = some s.clock := by
  simp [execXfireEdge]

@[simp] theorem execXfirePulseEnd_clock (s : State) : resultClock (execXfirePulseEnd s) = some s.clock := by
  unfold execXfirePulseEnd
  split <;> simp

@[simp] theorem execTrigOutPulseEnd_clock (k : Fin 4) (s : State) :
    resultClock (execTrigOutPulseEnd k s) = some s.clock := by
  unfold execTrigOutPulseEnd
  split <;> simp

@[simp] theorem execCapCalStart_clock (word : BitVec 32) (s : State) :
    resultClock (execCapCalStart word s) = some s.clock := by
  simp [execCapCalStart]

@[simp] theorem execCapCalDone_clock (s : State) : resultClock (execCapCalDone s) = some s.clock := by
  unfold execCapCalDone
  split <;> simp

@[simp] theorem State.capFinish_clock (s : State) (c : Nat) : (State.capFinish s c).clock = s.clock := by
  unfold State.capFinish
  split <;> simp

@[simp] theorem execCaptureCopy_clock (ch : Fin 8) (s : State) :
    resultClock (execCaptureCopy ch s) = some s.clock := by
  simp only [execCaptureCopy]
  (repeat' split) <;> simp

@[simp] theorem execCaptureWindowEnd_clock (ch : Fin 8) (s : State) :
    resultClock (execCaptureWindowEnd ch s) = some s.clock := by
  simp only [execCaptureWindowEnd]
  (repeat' split) <;> simp

@[simp] theorem State.drainWaits_clock (s : State) (c : Nat) : (State.drainWaits s c).clock = s.clock := by
  simp [State.drainWaits]

@[simp] theorem execCaptureDrain_clock (ch : Fin 8) (dma : Dma) (s : State) :
    resultClock (execCaptureDrain ch dma s) = some s.clock := by
  simp only [execCaptureDrain]
  (repeat' split) <;> simp

@[simp] theorem State.schedule_clock (s : State) (tag action : Nat) (ch : Nat) (t g : Nat) :
    (State.schedule s tag action ch t g).clock = s.clock := by
  simp only [State.schedule]
  (repeat' split) <;> simp

@[simp] theorem execScheduleFire_clock (tag : BitVec 16) (ch : Fin 8) (at_ : Nat) (grace : BitVec 16) (s : State) :
    resultClock (execScheduleFire tag ch at_ grace s) = some s.clock := by
  simp [execScheduleFire]

@[simp] theorem execScheduleArm_clock (tag : BitVec 16) (ch : Fin 8) (at_ : Nat) (grace : BitVec 16) (s : State) :
    resultClock (execScheduleArm tag ch at_ grace s) = some s.clock := by
  simp [execScheduleArm]

@[simp] theorem execScheduleDisarm_clock (tag : BitVec 16) (ch : Fin 8) (at_ : Nat) (grace : BitVec 16) (s : State) :
    resultClock (execScheduleDisarm tag ch at_ grace s) = some s.clock := by
  simp [execScheduleDisarm]

@[simp] theorem execScheduleDue_clock (s : State) : resultClock (execScheduleDue s) = some s.clock := by
  simp only [execScheduleDue]
  (repeat' split) <;> simp

/-! ### Hjel (Machine/Hjel.lean) -/

@[simp] theorem State.compareDigests_clock (s : State) (a b : DigestMsg) :
    (State.compareDigests s a b).clock = s.clock := by
  simp [State.compareDigests]

@[simp] theorem State.digestNote_clock (s : State) (v : Revision) : (State.digestNote s v).clock = s.clock := by
  simp [State.digestNote]

@[simp] theorem State.digestSend_clock (s : State) (t : Instant) (safeOut : Nat) :
    (State.digestSend s t safeOut).clock = s.clock := by
  simp only [State.digestSend]
  (repeat' split) <;> simp

@[simp] theorem execDigest_clock (msg : DigestMsg) (s : State) : resultClock (execDigest msg s) = some s.clock := by
  simp only [execDigest]
  (repeat' split) <;> simp

@[simp] theorem execDigestTimeout_clock (s : State) : resultClock (execDigestTimeout s) = some s.clock := by
  simp [execDigestTimeout]

/-! ### State estimation (Machine/Lse.lean) -/

@[simp] theorem State.lseEvent_clock (s : State) (k i : Nat) : (State.lseEvent s k i).clock = s.clock := by
  simp [State.lseEvent]

@[simp] theorem State.swView_clock (s : State) : (State.swView s).clock = s.clock := by
  simp [State.swView]

@[simp] theorem State.setSwitches_clock (s : State) (c : Cfg) (v : Revision) :
    (State.setSwitches s c v).clock = s.clock := by
  simp [State.setSwitches]

@[simp] theorem State.factorRegs_clock (s : State) : (State.factorRegs s).clock = s.clock := by
  simp only [State.factorRegs]
  (repeat' split) <;> simp

@[simp] theorem State.refactor_clock (s : State) (c : Cfg) (set : List Nat) :
    (State.refactor s c set).clock = s.clock := by
  simp only [State.refactor]
  (repeat' split) <;> simp

@[simp] theorem State.checkTopo_clock (s : State) (c : Cfg) : (State.checkTopo s c).clock = s.clock := by
  simp [State.checkTopo]

@[simp] theorem execTopologyLabel_clock (s : State) : resultClock (execTopologyLabel s) = some s.clock := by
  unfold execTopologyLabel
  split <;> simp

@[simp] theorem State.persist_clock (s : State) (c : Cfg) (v : Revision) : (s.persist c v).2.clock = s.clock := by
  unfold State.persist
  exact State.foldl_snd_clock (fun x e => by simp) _ _

@[simp] theorem State.refactorPresent_clock (s : State) (c : Cfg) (v : Revision) :
    (State.refactorPresent s c v).clock = s.clock := by
  simp [State.refactorPresent]

@[simp] theorem State.countEstimate_clock (s : State) (e : Estimate) : (State.countEstimate s e).clock = s.clock := by
  simp only [State.countEstimate]
  (repeat' split) <;> simp

@[simp] theorem execLseEstimate_clock (s : State) : resultClock (execLseEstimate s) = some s.clock := by
  simp only [execLseEstimate]
  (repeat' split) <;> simp

@[simp] theorem State.cutOver_clock (s : State) (f : Factor) : (State.cutOver s f).clock = s.clock := by
  simp [State.cutOver]

@[simp] theorem execRefactorComplete_clock (s : State) : resultClock (execRefactorComplete s) = some s.clock := by
  simp only [execRefactorComplete]
  (repeat' split) <;> simp

@[simp] theorem State.lseAccept_clock (s : State) : (State.lseAccept s).clock = s.clock := by
  simp [State.lseAccept]

@[simp] theorem State.lseAbandon_clock (s : State) : (State.lseAbandon s).clock = s.clock := by
  simp only [State.lseAbandon]
  (repeat' split) <;> simp

@[simp] theorem State.lseApply_clock (s : State) (old : Cfg) (b : Instant) :
    (State.lseApply s old b).clock = s.clock := by
  simp only [State.lseApply]
  (repeat' split) <;> simp

/-! ### Islands and rules (Machine/Isl.lean) -/

@[simp] theorem State.islEvent_clock (s : State) (k i : Nat) : (State.islEvent s k i).clock = s.clock := by
  simp [State.islEvent]

@[simp] theorem State.pinRegs_clock (s : State) : (State.pinRegs s).clock = s.clock := by
  simp [State.pinRegs]

@[simp] theorem State.setPins_clock (s : State) : (State.setPins s).clock = s.clock := by
  unfold State.setPins
  split <;> simp

@[simp] theorem execAlmOutHalfPeriod_clock (pin : Fin 16) (s : State) :
    resultClock (execAlmOutHalfPeriod pin s) = some s.clock := by
  unfold execAlmOutHalfPeriod
  split <;> simp

@[simp] theorem execAlmReadbackMismatch_clock (pin : Fin 16) (s : State) :
    resultClock (execAlmReadbackMismatch pin s) = some s.clock := by
  simp [execAlmReadbackMismatch]

@[simp] theorem State.sendGoose_clock (s : State) (p : Nat) (g : GooseState) :
    (State.sendGoose s p g).clock = s.clock := by
  simp [State.sendGoose]

@[simp] theorem State.newGoose_clock (s : State) (p : Nat) (t slice : Instant) (rev epoch : Nat) :
    (State.newGoose s p t slice rev epoch).clock = s.clock := by
  simp [State.newGoose]

@[simp] theorem State.pubDecide_clock (s : State) (p : Nat) (t slice : Instant) (rev epoch : Nat) (fresh : Bool) :
    (State.pubDecide s p t slice rev epoch fresh).clock = s.clock := by
  simp only [State.pubDecide]
  (repeat' split) <;> simp

@[simp] theorem State.gooseSilence_clock (s : State) : (State.gooseSilence s).clock = s.clock := by
  simp [State.gooseSilence]

@[simp] theorem execGooseRepeat_clock (p : Fin 8) (s : State) : resultClock (execGooseRepeat p s) = some s.clock := by
  unfold execGooseRepeat
  split <;> simp

@[simp] theorem State.showOutputs_clock (s : State) (tp : Instant) (rev : Nat) :
    (State.showOutputs s tp rev).clock = s.clock := by
  simp [State.showOutputs]

@[simp] theorem State.decideAt_clock (s : State) (slice : Instant) (rev epoch : Nat) (which : Nat → Bool) :
    (State.decideAt s slice rev epoch which).clock = s.clock := by
  simp [State.decideAt]

@[simp] theorem State.decideBoundary_clock (s : State) (b : Instant) : (s.decideBoundary b).clock = s.clock := by
  simp only [State.decideBoundary]
  refine (State.foldl_clock (fun s p => ?_) _ _).trans (by simp)
  split <;> simp

@[simp] theorem State.compareIslands_clock (s : State) (new : List Nat) :
    (State.compareIslands s new).clock = s.clock := by
  simp [State.compareIslands]

@[simp] theorem State.groupStep_clock (s : State) (c : Cfg) (v : Revision) (x : CohSlice) (main : Option CohGroup)
    (g : CohGroup) :
    (State.groupStep s c v x main g).2.clock = s.clock := by
  simp only [State.groupStep]
  (repeat' split) <;> simp

@[simp] theorem State.groupSteps_clock (s : State) (c : Cfg) (v : Revision) (x : CohSlice) (main : Option CohGroup)
    (gs : List CohGroup) :
    (State.groupSteps s c v x main gs).2.clock = s.clock := by
  induction gs generalizing s with
  | nil => rfl
  | cons g gs ih => simp [State.groupSteps, ih]

@[simp] theorem State.coherency_clock (s : State) (c : Cfg) (v : Revision) :
    (State.coherency s c v).2.clock = s.clock := by
  simp only [State.coherency]
  (repeat' split) <;> simp

@[simp] theorem execRecluster_clock (s : State) : resultClock (execRecluster s) = some s.clock := by
  unfold execRecluster
  split <;> simp

@[simp] theorem execReclusterDone_clock (s : State) : resultClock (execReclusterDone s) = some s.clock := by
  simp only [execReclusterDone]
  (repeat' split) <;> simp

@[simp] theorem State.countConf_clock (s : State) (c : Cfg) (recs : List IslandRec) :
    (State.countConf s c recs).clock = s.clock := by
  simp [State.countConf]

@[simp] theorem execConfMiss_clock (s : State) : resultClock (execConfMiss s) = some s.clock := by
  unfold execConfMiss
  split <;> simp

@[simp] theorem State.ruleStep_clock (s : State) (c : Cfg) (v : Revision) (w : IslandView) (waits : Bool) (i : Nat)
    (r : Rec) :
    (State.ruleStep s c v w waits i r).2.clock = s.clock := by
  simp only [State.ruleStep]
  (repeat' split) <;> simp

@[simp] theorem State.islStat_clock (s : State) (recs : List IslandRec) (declared : List Nat) :
    (State.islStat s recs declared).clock = s.clock := by
  simp [State.islStat]

@[simp] theorem State.produceIsl_clock (s : State) (r : IslResult) (v : Revision) :
    (State.produceIsl s r v).clock = s.clock := by
  simp [State.produceIsl]

@[simp] theorem State.evalRules_clock (s : State) (v : Revision) : (s.evalRules v).clock = s.clock := by
  simp [State.evalRules]

@[simp] theorem execRuleEval_clock (s : State) : resultClock (execRuleEval s) = some s.clock := by
  unfold execRuleEval
  split <;> simp

@[simp] theorem State.agreed_clock (s : State) (c : Compare) : (s.agreed c).clock = s.clock := by
  cases c with
  | rules t rev epoch missed states res => cases res <;> simp [State.agreed]
  | graph g run => rfl

@[simp] theorem State.islApply_clock (s : State) (old : Cfg) (b : Instant) :
    (State.islApply s old b).clock = s.clock := by
  simp [State.islApply]

/-! ### Mode tracking (Machine/Osc.lean) -/

@[simp] theorem State.oscEvent_clock (s : State) (k set i : Nat) : (State.oscEvent s k set i).clock = s.clock := by
  simp [State.oscEvent]

@[simp] theorem State.oscStat_clock (s : State) (n : Nat) : (State.oscStat s n).clock = s.clock := by
  simp [State.oscStat]

@[simp] theorem State.setOsc_clock (s : State) (n : Nat) (g : OscSet) : (State.setOsc s n g).clock = s.clock := by
  simp [State.setOsc]

@[simp] theorem State.oscSlice_clock (s : State) (c : Cfg) (n : Nat) (v : Revision) :
    (s.oscSlice c n v).clock = s.clock := by
  simp only [State.oscSlice, State.setOsc_clock]
  exact State.foldl_fst_clock (fun x e => by simp) _ _

@[simp] theorem State.produceOsc_clock (s : State) (r : OscResult) (k : Nat) :
    (State.produceOsc s r k).clock = s.clock := by
  simp [State.produceOsc]

@[simp] theorem State.oscWarm_clock (s : State) (c : Cfg) (n : Nat) (t : Instant) :
    (State.oscWarm s c n t).2.2.clock = s.clock := by
  simp only [State.oscWarm]
  (repeat' split) <;> simp

@[simp] theorem State.setAlarm_clock (s : State) (set i : Nat) (a : OscAlarm) :
    (State.setAlarm s set i a).clock = s.clock := by
  simp [State.setAlarm]

@[simp] theorem State.oscAlarms_clock (s : State) (c : Cfg) (n : Nat) (modes : List OscMode) (fos : List OscFo) :
    (State.oscAlarms s c n modes fos).clock = s.clock := by
  simp [State.oscAlarms]

@[simp] theorem State.oscModes_clock (s : State) (c : Cfg) (n : Nat) (t : Instant) (advance : Bool) :
    (State.oscModes s c n t advance).2.clock = s.clock := by
  simp [State.oscModes]

@[simp] theorem State.oscTake_clock (c : Cfg) (v : Revision) (s : State) (n : Nat) :
    (State.oscTake c v s n).clock = s.clock := by
  simp only [State.oscTake]
  (repeat' split) <;> simp

@[simp] theorem execOscSample_clock (s : State) : resultClock (execOscSample s) = some s.clock := by
  unfold execOscSample
  split <;> simp

@[simp] theorem execOscUpdate_clock (set : Fin 16) (s : State) :
    resultClock (execOscUpdate set s) = some s.clock := by
  simp only [execOscUpdate]
  (repeat' split) <;> simp

@[simp] theorem State.oscRevise_clock (c : Cfg) (v : Revision) (s : State) (n : Nat) :
    (State.oscRevise c v s n).clock = s.clock := by
  simp only [State.oscRevise]
  (repeat' split) <;> simp

@[simp] theorem execOscRevision_clock (s : State) : resultClock (execOscRevision s) = some s.clock := by
  unfold execOscRevision
  split <;> simp

@[simp] theorem State.oscApply_clock (s : State) (old : Cfg) (b : Instant) :
    (State.oscApply s old b).clock = s.clock := by
  simp [State.oscApply]

/-! ### Publication (Machine/Pub.lean) -/

@[simp] theorem State.setOutput_clock (s : State) (o : Nat) (b : Bool) : (State.setOutput s o b).clock = s.clock := by
  simp [State.setOutput]

@[simp] theorem State.outTrailer_clock (s : State) (r : Rec) (v : Revision) (msg : List Byte) :
    (State.outTrailer s r v msg).2.clock = s.clock := by
  unfold State.outTrailer
  split <;> simp

@[simp] theorem State.queueOutput_clock (s : State) (o : Nat) (r : Rec) (v : Revision) (body : TxBody)
    (payload : Nat) :
    (State.queueOutput s o r v body payload).clock = s.clock := by
  simp [State.queueOutput]

@[simp] theorem State.sendOutput_clock (s : State) (c : Cfg) (o : Nat) (r : Rec) (v : Revision) :
    (s.sendOutput c o r v).clock = s.clock := by
  simp only [State.sendOutput]
  split
  · have hk := State.outTrailer_clock s r v (s.dataFrame c o r v ++ s.pubTrailer v)
    split <;> simp_all
  · simp [apply_ite Prod.snd]

@[simp] theorem execOutputFrame_clock (s : State) : resultClock (execOutputFrame s) = some s.clock := by
  unfold execOutputFrame
  split <;> simp

@[simp] theorem State.turn_clock (s : State) (o : Nat) (b : Bool) : (State.turn s o b).clock = s.clock := by
  simp [State.turn]

@[simp] theorem State.cmdTrailer_clock (s : State) (r : Rec) (m : C37) :
    (State.cmdTrailer s r m).2.clock = s.clock := by
  simp only [State.cmdTrailer]
  (repeat' split) <;> simp

@[simp] theorem execC37118CmdFrame_clock (s : State) : resultClock (execC37118CmdFrame s) = some s.clock := by
  simp only [execC37118CmdFrame]
  split
  · rfl
  · next p u h =>
    rw [← State.takeParsed_clock h]
    (repeat' split) <;> simp

@[simp] theorem State.takeItem_clock (s : State) (i : PubItem) : (State.takeItem s i).clock = s.clock := by
  simp [State.takeItem]

@[simp] theorem execPubDeliver_clock (ring : Fin 64) (dma : Dma) (s : State) :
    resultClock (execPubDeliver ring dma s) = some s.clock := by
  simp only [execPubDeliver]
  (repeat' split) <;> simp

@[simp] theorem State.pubApply_clock (s : State) (old : Cfg) (b : Instant) :
    (State.pubApply s old b).clock = s.clock := by
  simp [State.pubApply]

/-! ### Field sensor link (Machine/Fsl.lean) -/

@[simp] theorem State.fslEvent_clock (s : State) (k i : Nat) : (State.fslEvent s k i).clock = s.clock := by
  simp [State.fslEvent]

@[simp] theorem State.fslShow_clock (s : State) : (State.fslShow s).clock = s.clock := by
  simp [State.fslShow]

@[simp] theorem State.setSensor_clock (s : State) (n : Nat) (x : Sensor) :
    (State.setSensor s n x).clock = s.clock := by
  simp [State.setSensor]

@[simp] theorem State.setDls_clock (s : State) (l : List Downlink) : (State.setDls s l).clock = s.clock := by
  simp [State.setDls]

@[simp] theorem State.setFslIf_clock (s : State) (i : Nat) (x : FslIf) : (State.setFslIf s i x).clock = s.clock := by
  simp [State.setFslIf]

@[simp] theorem State.fslNoKey_clock (s : State) (i : Nat) : (State.fslNoKey s i).clock = s.clock := by
  simp [State.fslNoKey]

@[simp] theorem State.fslCounter_clock (s : State) (i : Nat) : (State.fslCounter s i).2.clock = s.clock := by
  simp only [State.fslCounter]
  (repeat' split) <;> simp

@[simp] theorem State.fslWatch1_clock (s : State) (i : Nat) : (State.fslWatch1 s i).clock = s.clock := by
  simp only [State.fslWatch1]
  (repeat' split) <;> simp

@[simp] theorem State.fslWatch_clock (s : State) : (State.fslWatch s).clock = s.clock := by
  simp [State.fslWatch]

@[simp] theorem State.beaconMissed_clock (s : State) (i n : Nat) : (State.beaconMissed s i n).clock = s.clock := by
  simp [State.beaconMissed]

@[simp] theorem State.sendBeacon_clock (s : State) (i n : Nat) : (s.sendBeacon i n).clock = s.clock := by
  have hctr := State.fslCounter_clock s i
  unfold State.sendBeacon
  split
  · next u h =>
    rw [h] at hctr
    simpa using hctr
  · next ctr u h =>
    rw [h] at hctr
    simpa using hctr

@[simp] theorem execBeacon_clock (i : Fin 2) (s : State) : resultClock (execBeacon i s) = some s.clock := by
  simp [execBeacon]

@[simp] theorem State.fslReading_clock (s : State) (c : Cfg) (n i : Nat) (r : Rec) (sfd : Instant) (p : List Byte)
    (stale : Bool) :
    (State.fslReading s c n i r sfd p stale).clock = s.clock := by
  simp [State.fslReading]

@[simp] theorem execFslFrameReceive_clock (i : Fin 2) (frame : FslFrame) (s : State) :
    resultClock (execFslFrameReceive i frame s) = some s.clock := by
  unfold execFslFrameReceive
  extract_lets sfd c s' mine
  have hs' : s'.clock = s.clock := State.bump_clock _ _ _ _
  split
  · rfl
  · split
    · simp [hs']
    · split
      · simp [hs']
      · next n r h =>
        extract_lets pend s'' fail
        have hs'' : s''.clock = s.clock := by simp [s'', hs']
        have hfail : ∀ u : State, resultClock (fail u) = some u.clock := fun u => by simp [fail]
        split
        · rw [hfail, hs'']
        · split
          next k stale u hk =>
          have hkey : u.clock = s.clock := by
            rw [← hs'']
            have := State.keyBegan_clock s'' (c.fld (Reg.FSL_SEC_KEY_SLOT i)) 2 useFsl (s''.now - frame.began)
            rw [hk] at this
            exact this
          extract_lets payload mic x u1 u2 u3 f
          split
          · rw [hfail, hkey]
          · have hend : u3.clock = s.clock := by simp [u3, u2, u1, hkey]
            split
            · simp [hkey]
            · simp [hkey]
            · split <;> simp [hend]

@[simp] theorem execSensorSilent_clock (sensor : Fin 1024) (s : State) :
    resultClock (execSensorSilent sensor s) = some s.clock := by
  simp [execSensorSilent]

@[simp] theorem State.dlDone_clock (s : State) (d : Downlink) (st : Status) :
    (State.dlDone s d st).clock = s.clock := by
  simp [State.dlDone]

@[simp] theorem State.dlDrop_clock (s : State) (p : Downlink → Bool) : (State.dlDrop s p).clock = s.clock := by
  simp [State.dlDrop]

@[simp] theorem execDownlinkSend_clock (i : Fin 2) (s : State) :
    resultClock (execDownlinkSend i s) = some s.clock := by
  have hctr := State.fslCounter_clock s i
  simp only [execDownlinkSend]
  (repeat' split) <;> simp_all

@[simp] theorem execDownlinkAckReceive_clock (i : Fin 2) (dsn : BitVec 8) (s : State) :
    resultClock (execDownlinkAckReceive i dsn s) = some s.clock := by
  simp only [execDownlinkAckReceive]
  (repeat' split) <;> simp

@[simp] theorem execDownlinkAckTimeout_clock (i : Fin 2) (s : State) :
    resultClock (execDownlinkAckTimeout i s) = some s.clock := by
  simp only [execDownlinkAckTimeout]
  (repeat' split) <;> simp

@[simp] theorem execDownlinkExpiry_clock (i : Fin 2) (s : State) :
    resultClock (execDownlinkExpiry i s) = some s.clock := by
  unfold execDownlinkExpiry
  split <;> simp

@[simp] theorem State.fslConfigure_clock (s : State) (i : Nat) : (State.fslConfigure s i).clock = s.clock := by
  simp [State.fslConfigure]

@[simp] theorem execTransceiverReset_clock (i : Fin 2) (alive : Bool) (s : State) :
    resultClock (execTransceiverReset i alive s) = some s.clock := by
  simp [execTransceiverReset]

@[simp] theorem State.txFrame_clock (s : State) (r d : Nat) (bytes : List Byte) (ptp : Option
    (PtpKind × BitVec 16)) :
    (State.txFrame s r d bytes ptp).clock = s.clock := by
  simp [State.txFrame]

theorem State.txHead_clock {s t : State} {r : Nat} {bytes : List Byte} {ptp : Option (PtpKind × BitVec 16)} {dma : Dma}
    (h : s.txHead r bytes ptp dma = some t) : t.clock = s.clock := by
  simp only [State.txHead] at h
  (repeat' split at h) <;> cases h <;> simp

@[simp] theorem execTxDescriptor_clock (ring : Fin 64) (bytes : List Byte) (ptp : Option (PtpKind × BitVec 16))
    (dma : Dma) (s : State) :
    
    resultClock (execTxDescriptor ring bytes ptp dma s) = some s.clock := by
  unfold execTxDescriptor
  cases h : s.txHead ring bytes ptp dma with
  | none => rfl
  | some t => simp [State.txHead_clock h]

@[simp] theorem execTxCellsFreed_clock (ring : Fin 64) (bytes : List Byte) (ptp : Option (PtpKind × BitVec 16))
    (dma : Dma) (s : State) :
    
    resultClock (execTxCellsFreed ring bytes ptp dma s) = some s.clock := by
  unfold execTxCellsFreed
  split
  · next t h => simp [State.txHead_clock h]
  · rfl

@[simp] theorem State.fslApply_clock (s : State) (old : Cfg) (b : Instant) :
    (State.fslApply s old b).clock = s.clock := by
  simp [State.fslApply]

/-! ### Scheduler and engines (Machine/Sched.lean) -/

@[simp] theorem State.schedEvent_clock (s : State) (k i : Nat) : (State.schedEvent s k i).clock = s.clock := by
  simp [State.schedEvent]

@[simp] theorem State.setEngine_clock (s : State) (e : Nat) (x : Engine) :
    (State.setEngine s e x).clock = s.clock := by
  simp [State.setEngine]

@[simp] theorem State.setCluster_clock (s : State) (c : Nat) (x : Cluster) :
    (State.setCluster s c x).clock = s.clock := by
  simp [State.setCluster]

@[simp] theorem State.setWardenPair_clock (s : State) (p : Nat) (x : WardenPair) :
    (State.setWardenPair s p x).clock = s.clock := by
  simp [State.setWardenPair]

@[simp] theorem State.setRun_clock (s : State) (r : GRun) : (State.setRun s r).clock = s.clock := by
  simp [State.setRun]

@[simp] theorem State.dropRun_clock (s : State) (id : Nat) : (State.dropRun s id).clock = s.clock := by
  simp [State.dropRun]

@[simp] theorem State.setIqueue_clock (s : State) (q : Nat) (x : IQueue) :
    (State.setIqueue s q x).clock = s.clock := by
  simp [State.setIqueue]

@[simp] theorem State.queueShow_clock (s : State) : (State.queueShow s).clock = s.clock := by
  simp [State.queueShow]

@[simp] theorem State.setIdle_clock (s : State) (qs : List Nat) : (State.setIdle s qs).clock = s.clock := by
  simp only [State.setIdle]
  (repeat' split) <;> simp

@[simp] theorem State.queueOverflow_clock (s : State) (q : Nat) : (State.queueOverflow s q).clock = s.clock := by
  simp [State.queueOverflow]

@[simp] theorem State.queueEmpty_clock (s : State) (q : Nat) : (State.queueEmpty s q).clock = s.clock := by
  simp [State.queueEmpty]

@[simp] theorem State.queueMove_clock (s : State) (q : Nat) (push : Option (Nat × Bool × Bool)) (pop : Bool) :
    (State.queueMove s q push pop).clock = s.clock := by
  simp [State.queueMove]

@[simp] theorem State.queueAct_clock (s : State) (a : QueueAct) : (State.queueAct s a).clock = s.clock := by
  simp only [State.queueAct]
  (repeat' split) <;> simp

@[simp] theorem State.setChain_clock (s : State) (x : Chain) : (State.setChain s x).clock = s.clock := by
  simp [State.setChain]

@[simp] theorem State.schedShow_clock (s : State) : s.schedShow.clock = s.clock := by
  simp only [State.schedShow, State.wr_clock, State.wrB_clock, State.foldl_clock, implies_true]

@[simp] theorem State.produceGraph_clock (s : State) (r : GraphResult) (k : Nat) (material : Bool) :
    (State.produceGraph s r k material).clock = s.clock := by
  simp [State.produceGraph]

@[simp] theorem State.emptyGraph_clock (s : State) (g : Nat) (d : Rec) (rev status : Nat) (t : Instant)
    (epoch k : Nat) (material : Bool) :
    (State.emptyGraph s g d rev status t epoch k material).clock = s.clock := by
  simp [State.emptyGraph]

@[simp] theorem State.skipGraph_clock (s : State) (g : Nat) (d : Rec) (rev : Nat) (t : Instant) (epoch k : Nat)
    (material : Bool) :
    (State.skipGraph s g d rev t epoch k material).clock = s.clock := by
  simp [State.skipGraph]

@[simp] theorem State.deliverRun_clock (s : State) (r : GRun) : (State.deliverRun s r).clock = s.clock := by
  simp [State.deliverRun]

@[simp] theorem State.unhold_clock (s : State) (c : Nat) (id inst : Nat) :
    (State.unhold s c id inst).clock = s.clock := by
  simp [State.unhold]

@[simp] theorem State.instanceReleased_clock (s : State) (r : GRun) :
    (State.instanceReleased s r).clock = s.clock := by
  simp [State.instanceReleased]

@[simp] theorem State.releaseFlow_clock (g inst n : Nat) (s : State) :
    (State.releaseFlow g inst n s).clock = s.clock := by
  induction n generalizing s with
  | zero => rfl
  | succ n ih =>
    simp only [State.releaseFlow]
    (repeat' split) <;> simp [ih]

theorem State.takePlace_clock {s t : State} {c : Nat} {r : GRun} {inst : Nat} (h : s.takePlace c r inst = some t) :
    t.clock = s.clock := by
  simp only [State.takePlace] at h
  split at h
  · rw [← Option.some.inj h]
    simp
  · cases h

@[simp] theorem State.instanceDone_clock (s : State) (r : GRun) (inst e : Nat) :
    (s.instanceDone r inst e).clock = s.clock := by
  unfold State.instanceDone
  extract_lets r' r'' u first
  have hrun : u.clock = s.clock := State.setRun_clock _ _
  split
  · simp [hrun]
  · split
    · next t h => rw [State.takePlace_clock h, hrun]
    · simp [hrun]

@[simp] theorem execReleaseStageFree_clock (c : Fin 16) (s : State) :
    resultClock (execReleaseStageFree c s) = some s.clock := by
  simp only [execReleaseStageFree]
  split
  · rfl
  · split
    · rfl
    · split
      · rfl
      · next t h => simp [State.takePlace_clock h]

@[simp] theorem State.makeReady_clock (s : State) (r : GRun) (inst : Nat) (ks : List Nat) :
    (State.makeReady s r inst ks).clock = s.clock := by
  simp [State.makeReady]

@[simp] theorem execEngineDispatch_clock (e : Fin 64) (s : State) :
    resultClock (execEngineDispatch e s) = some s.clock := by
  simp only [execEngineDispatch]
  (repeat' split) <;> simp

@[simp] theorem execAffWaitExpiry_clock (c : Fin 16) (s : State) :
    resultClock (execAffWaitExpiry c s) = some s.clock := by
  simp [execAffWaitExpiry]

@[simp] theorem State.runNode_clock (s : State) (r : GRun) (inst k : Nat) :
    (State.runNode s r inst k).2.clock = s.clock := by
  simp [State.runNode]

@[simp] theorem execOpComplete_clock (e : Fin 64) (acts : List QueueAct) (s : State) :
    resultClock (execOpComplete e acts s) = some s.clock := by
  simp only [execOpComplete]
  (repeat' split) <;> simp

@[simp] theorem State.newRun_clock (s : State) (c : Cfg) (g : Nat) (d : Rec) (v : Revision) (timed : Bool)
    (start t : Instant) (epoch : Nat) (place : Nat × Nat) :
    (State.newRun s c g d v timed start t epoch place).2.clock = s.clock := by
  simp [State.newRun]

@[simp] theorem State.clearHist_clock (s : State) (g : Nat) : (State.clearHist s g).clock = s.clock := by
  simp [State.clearHist]

@[simp] theorem State.startGraph_clock (s : State) (c : Cfg) (place : KV (Nat × Nat)) (v : Revision) (g : Nat)
    (d : Rec) :
    (State.startGraph s c place v g d).clock = s.clock := by
  simp only [State.startGraph]
  (repeat' split) <;> simp

@[simp] theorem execGraphRunStart_clock (s : State) : resultClock (execGraphRunStart s) = some s.clock := by
  unfold execGraphRunStart
  split <;> simp

@[simp] theorem execGraphTimedStart_clock (g : Fin 64) (s : State) :
    resultClock (execGraphTimedStart g s) = some s.clock := by
  simp only [execGraphTimedStart]
  (repeat' split) <;> simp

@[simp] theorem execDelayTick_clock (c : Fin 16) (s : State) : resultClock (execDelayTick c s) = some s.clock := by
  simp only [execDelayTick, resultClock_next, State.schedShow_clock, Option.some_inj]
  refine (State.foldl_clock (fun s e => ?_) _ _).trans (by simp)
  split <;> simp

@[simp] theorem State.mismatch_clock (s : State) (x : Compare) : (State.mismatch s x).clock = s.clock := by
  unfold State.mismatch
  split <;> simp

@[simp] theorem State.compared_clock (s : State) (x : Compare) : (State.compared s x).clock = s.clock := by
  simp only [State.compared]
  (repeat' split) <;> simp

@[simp] theorem execSafetyCompare_clock (agree : Bool) (s : State) :
    resultClock (execSafetyCompare agree s) = some s.clock := by
  unfold execSafetyCompare
  split <;> simp

@[simp] theorem execSafetyDeadlineMiss_clock (s : State) : resultClock (execSafetyDeadlineMiss s) = some s.clock := by
  unfold execSafetyDeadlineMiss
  split <;> simp

@[simp] theorem State.itemTook_clock (s : State) (us : Nat) : (State.itemTook s us).clock = s.clock := by
  simp [State.itemTook]

@[simp] theorem execWardenItemStart_clock (pair : Fin 2) (us : Nat) (made : List WardenItem) (s : State) :
    resultClock (execWardenItemStart pair us made s) = some s.clock := by
  simp only [execWardenItemStart]
  (repeat' split) <;> simp

@[simp] theorem execWardenItemOverrun_clock (pair : Fin 2) (us : Nat) (s : State) :
    resultClock (execWardenItemOverrun pair us s) = some s.clock := by
  simp [execWardenItemOverrun]

@[simp] theorem execWrdStatRead_clock (s : State) : resultClock (execWrdStatRead s) = some s.clock := by
  simp [execWrdStatRead]

@[simp] theorem State.schedApply_clock (s : State) (old : Cfg) (b : Instant) :
    (State.schedApply s old b).clock = s.clock := by
  simp [State.schedApply]

/-! ### Keys (Machine/Key.lean) -/

@[simp] theorem State.setSlot_clock (s : State) (i : Nat) (k : KeySlot) : (State.setSlot s i k).clock = s.clock := by
  simp [State.setSlot]

@[simp] theorem State.keyShow_clock (s : State) : (State.keyShow s).clock = s.clock := by
  simp [State.keyShow]

@[simp] theorem State.bindKeys_clock (s : State) : (State.bindKeys s).clock = s.clock := by
  simp [State.bindKeys]

@[simp] theorem State.invalidate_clock (s : State) (l : List Nat) : (s.invalidate l).clock = s.clock := by
  simp only [State.invalidate, State.keyShow_clock, State.fslWatch_clock, State.raise_clock]
  refine State.foldl_clock (fun s i => ?_) _ _
  split <;> simp

@[simp] theorem State.zeroize_clock (s : State) (reason : Nat) (unpowered : Bool) :
    (State.zeroize s reason unpowered).clock = s.clock := by
  simp [State.zeroize]

@[simp] theorem State.keyDone_clock (s : State) (tag : BitVec 16) (i : Nat) (st : Status) :
    resultClock (State.keyDone s tag i st) = some s.clock := by
  simp [State.keyDone]

theorem State.keyOp_clock {f : State → Result} (h : ∀ u, resultClock (f u) = some u.clock) (s : State)
    (tag : BitVec 16) (i : Nat) :
    
    resultClock (s.keyOp tag i f) = some s.clock := by
  unfold State.keyOp State.dequeued
  (repeat' split) <;> simp [h]

@[simp] theorem execKeyOpInfo_clock (tag : BitVec 16) (slot : Fin 256) (len : BitVec 32) (addr : BitVec 48)
    (dma : Dma) (s : State) :
    resultClock (execKeyOpInfo tag slot len addr dma s) = some s.clock := by
  simp [execKeyOpInfo]

@[simp] theorem State.writeKey_clock (s : State) (tag : BitVec 16) (slot parent : Nat) (req : KeyReq) (key : Nat)
    (imported : Bool) (took : Nat) :
    resultClock (State.writeKey s tag slot parent req key imported took) = some s.clock := by
  simp [State.writeKey]

theorem State.makeKey_clock {f : State → Result} (h : ∀ u, resultClock (f u) = some u.clock) (s : State) (tag : BitVec 16)
    (slot parent len want : Nat) (addr : BitVec 48) (dma : Dma) (req : KeyReq) (root : Bool) :
    resultClock (s.makeKey tag slot parent len want addr dma req root f) = some s.clock := by
  unfold State.makeKey
  refine State.keyOp_clock (fun u => ?_) s tag slot
  simp only []
  (repeat' split) <;> simp [h]

@[simp] theorem execKeyOpDerive_clock (tag : BitVec 16) (slot parent : Fin 256) (len : BitVec 32) (addr : BitVec 48)
    (dma : Dma) (req : KeyReq) (took : Nat) (s : State) :
    resultClock (execKeyOpDerive tag slot parent len addr dma req took s) = some s.clock := by
  unfold execKeyOpDerive
  refine State.makeKey_clock (fun u => ?_) _ _ _ _ _ _ _ _ _ _
  simp only []
  (repeat' split) <;> simp

@[simp] theorem execKeyOpImport_clock (tag : BitVec 16) (slot parent : Fin 256) (len : BitVec 32) (addr : BitVec 48)
    (dma : Dma) (req : KeyReq) (took : Nat) (s : State) :
    resultClock (execKeyOpImport tag slot parent len addr dma req took s) = some s.clock := by
  unfold execKeyOpImport
  refine State.makeKey_clock (fun u => ?_) _ _ _ _ _ _ _ _ _ _
  simp only []
  (repeat' split) <;> simp

@[simp] theorem execKeyOpInvalidate_clock (tag : BitVec 16) (slot : Fin 256) (len : BitVec 32) (s : State) :
    resultClock (execKeyOpInvalidate tag slot len s) = some s.clock := by
  unfold execKeyOpInvalidate
  refine State.keyOp_clock (fun u => ?_) _ _ _
  split <;> simp

@[simp] theorem execKeyOpErase_clock (tag : BitVec 16) (slot : Fin 256) (len : BitVec 32) (s : State) :
    resultClock (execKeyOpErase tag slot len s) = some s.clock := by
  unfold execKeyOpErase
  refine State.keyOp_clock (fun u => ?_) _ _ _
  simp only []
  (repeat' split) <;> simp

@[simp] theorem State.setLcs_clock (s : State) (n : Nat) : (State.setLcs s n).clock = s.clock := by
  simp [State.setLcs]

@[simp] theorem execKeyOpAdvance_clock (tag : BitVec 16) (len : BitVec 32) (state check : BitVec 8) (s : State) :
    resultClock (execKeyOpAdvance tag len state check s) = some s.clock := by
  unfold execKeyOpAdvance
  refine State.keyOp_clock (fun u => ?_) _ _ _
  simp only []
  (repeat' split) <;> simp

@[simp] theorem execKeyOpProvision_clock (tag : BitVec 16) (len : BitVec 32) (addr : BitVec 48) (dma : Dma)
    (wrapped : List Byte) (s : State) :
    resultClock (execKeyOpProvision tag len addr dma wrapped s) = some s.clock := by
  unfold execKeyOpProvision
  refine State.keyOp_clock (fun u => ?_) _ _ _
  simp only []
  (repeat' split) <;> simp

@[simp] theorem execKeyOpZeroize_clock (tag : BitVec 16) (len : BitVec 32) (s : State) :
    resultClock (execKeyOpZeroize tag len s) = some s.clock := by
  unfold execKeyOpZeroize
  refine State.keyOp_clock (fun u => ?_) _ _ _
  split <;> simp

@[simp] theorem execKeyExpiry_clock (slot : Fin 256) (s : State) :
    resultClock (execKeyExpiry slot s) = some s.clock := by
  simp [execKeyExpiry]

@[simp] theorem State.attest_clock (s : State) (key : Nat) (w : AttWait) :
    (State.attest s key w).clock = s.clock := by
  simp [State.attest]

@[simp] theorem execAttest_clock (tag : BitVec 16) (len : BitVec 32) (addr : BitVec 48) (challenge : List Byte)
    (dma : Dma) (s : State) :
    resultClock (execAttest tag len addr challenge dma s) = some s.clock := by
  simp only [execAttest]
  (repeat' split) <;> simp

@[simp] theorem State.deriveAtt_clock (s : State) : (State.deriveAtt s).clock = s.clock := by
  simp [State.deriveAtt]

@[simp] theorem execAttestKeyDerive_clock (s : State) : resultClock (execAttestKeyDerive s) = some s.clock := by
  simp [execAttestKeyDerive]

@[simp] theorem execDebugRequest_clock (token : Option (BitVec 128)) (s : State) :
    resultClock (execDebugRequest token s) = some s.clock := by
  simp only [execDebugRequest]
  (repeat' split) <;> simp

/-! ### Staging and update (Machine/Stage.lean) -/

@[simp] theorem State.queued_clock (s : State) (i : Instr) (t : State) : resultClock (s.queued i t) =
    some (if s.hif.heldCinch.isSome then s.clock else t.clock) := by
  unfold State.queued
  split <;> simp

@[simp] theorem State.loadDone_clock (s : State) (tag : Nat) (st : Status) (magic count : Nat) :
    (State.loadDone s tag st magic count).clock = s.clock := by
  simp [State.loadDone]

@[simp] theorem State.tableLoad_clock (s : State) (tag : BitVec 16) (len : BitVec 32) (image : TableImage)
    (addr : BitVec 48) (dma : Dma) :
    (State.tableLoad s tag len image addr dma).clock = s.clock := by
  simp only [State.tableLoad]
  (repeat' split) <;> simp

@[simp] theorem execTableLoad_clock (tag : BitVec 16) (len : BitVec 32) (image : TableImage) (addr : BitVec 48)
    (dma : Dma) (s : State) :
    resultClock (execTableLoad tag len image addr dma s) = some s.clock := by
  simp [execTableLoad]

@[simp] theorem State.forwardDone_clock (s : State) (f : Nat × Nat × Nat) :
    (State.forwardDone s f).clock = s.clock := by
  simp [State.forwardDone]

@[simp] theorem State.forwardsLost_clock (s : State) : (State.forwardsLost s).clock = s.clock := by
  simp [State.forwardsLost]

@[simp] theorem execTableForward_clock (tag : Option (BitVec 16)) (image : TableImage) (s : State) :
    resultClock (execTableForward tag image s) = some s.clock := by
  unfold execTableForward
  split <;> simp

@[simp] theorem execTableForwardAck_clock (tag : Option (BitVec 16)) (s : State) :
    resultClock (execTableForwardAck tag s) = some s.clock := by
  simp only [execTableForwardAck]
  (repeat' split) <;> simp

@[simp] theorem State.stageWord_clock (s : State) (a v : Nat) : (State.stageWord s a v).clock = s.clock := by
  simp [State.stageWord]

@[simp] theorem execStagedWriteForward_clock (addr : BitVec 26) (value : BitVec 32) (s : State) :
    resultClock (execStagedWriteForward addr value s) = some s.clock := by
  simp [execStagedWriteForward]

@[simp] theorem State.updEvent_clock (s : State) (k : Nat) : (State.updEvent s k).clock = s.clock := by
  simp [State.updEvent]

@[simp] theorem updResult_clock (s : State) (code : Nat) : (updResult s code).clock = s.clock := by
  simp [updResult]

@[simp] theorem State.dirShow_clock (s : State) : (State.dirShow s).clock = s.clock := by
  simp [State.dirShow]

@[simp] theorem State.writeDir_clock (s : State) (d : Directory) : (State.writeDir s d).clock = s.clock := by
  simp [State.writeDir]

@[simp] theorem State.stageDone_clock (s : State) (tag : Nat) (st : Status) (code source ver : Nat) :
    (State.stageDone s tag st code source ver).clock = s.clock := by
  simp [State.stageDone]

@[simp] theorem State.source_clock {s : State} {f : State → State} (h : ∀ u, (f u).clock = u.clock)
    (tag : BitVec 16) (source : Nat) (image : Option Image) :
    
    (s.source tag source image f).clock = s.clock := by
  simp [State.source, h]

@[simp] theorem State.stageImage_clock (s : State) (tag : BitVec 16) (len : BitVec 32) (addr : BitVec 48)
    (dma : Dma) (image : Image) :
    (State.stageImage s tag len addr dma image).clock = s.clock := by
  simp [State.stageImage]

@[simp] theorem execUpdateStageStage_clock (tag : BitVec 16) (len : BitVec 32) (addr : BitVec 48) (dma : Dma)
    (image : Image) (s : State) :
    resultClock (execUpdateStageStage tag len addr dma image s) = some s.clock := by
  simp [execUpdateStageStage]

@[simp] theorem State.pullImage_clock (s : State) (tag : BitVec 16) : (State.pullImage s tag).clock = s.clock := by
  simp [State.pullImage]

@[simp] theorem execUpdateStagePull_clock (tag : BitVec 16) (s : State) :
    resultClock (execUpdateStagePull tag s) = some s.clock := by
  simp [execUpdateStagePull]

@[simp] theorem execPullRequest_clock (unit : Fin 16) (s : State) :
    resultClock (execPullRequest unit s) = some s.clock := by
  unfold execPullRequest
  split <;> simp

@[simp] theorem State.startWrite_clock (s : State) (x : Staging) (i : Image) :
    (State.startWrite s x i).clock = s.clock := by
  simp [State.startWrite]

@[simp] theorem execImageVerified_clock (done : List (Fin 16 × Option Image)) (s : State) :
    resultClock (execImageVerified done s) = some s.clock := by
  simp only [execImageVerified, resultClock_next, Option.some_inj]
  refine (State.foldl_clock (fun s g => by simp) _ _).trans ((State.foldl_clock (fun s e => ?_) _ _).trans (by simp))
  split <;> simp

@[simp] theorem execSlotWriteComplete_clock (equal : Bool) (s : State) :
    resultClock (execSlotWriteComplete equal s) = some s.clock := by
  simp only [execSlotWriteComplete]
  (repeat' split) <;> simp

@[simp] theorem State.abandon_clock (s : State) (tag : BitVec 16) : (State.abandon s tag).clock = s.clock := by
  simp [State.abandon]

@[simp] theorem execUpdateStageAbandon_clock (tag : BitVec 16) (s : State) :
    resultClock (execUpdateStageAbandon tag s) = some s.clock := by
  simp [execUpdateStageAbandon]

@[simp] theorem State.saveCfg_clock (s : State) (tag : BitVec 16) : (State.saveCfg s tag).clock = s.clock := by
  simp [State.saveCfg]

@[simp] theorem execUpdateStageSaveCfg_clock (tag : BitVec 16) (s : State) :
    resultClock (execUpdateStageSaveCfg tag s) = some s.clock := by
  simp [execUpdateStageSaveCfg]

@[simp] theorem execCfgStoreWritten_clock (equal : Bool) (s : State) :
    resultClock (execCfgStoreWritten equal s) = some s.clock := by
  simp only [execCfgStoreWritten]
  (repeat' split) <;> simp

@[simp] theorem State.scheduleAct_clock (s : State) (t : Instant) (flags : Nat) :
    (State.scheduleAct s t flags).clock = s.clock := by
  simp [State.scheduleAct]

@[simp] theorem State.activate_clock (s : State) (team : Bool) (tag : BitVec 16) (len : BitVec 32)
    (addr : BitVec 48) (dma : Dma) (flags : BitVec 8) (at_ : Nat) (grace : BitVec 16) :
    (State.activate s team tag len addr dma flags at_ grace).clock = s.clock := by
  simp [State.activate]
  split <;> simp

@[simp] theorem execUpdateStageActivateTeam_clock (tag : BitVec 16) (len : BitVec 32) (addr : BitVec 48) (dma : Dma)
    (flags : BitVec 8) (at_ : Nat) (grace : BitVec 16) (s : State) :
    resultClock (execUpdateStageActivateTeam tag len addr dma flags at_ grace s) = some s.clock := by
  simp [execUpdateStageActivateTeam]

@[simp] theorem execUpdateStageActivateLocal_clock (tag : BitVec 16) (len : BitVec 32) (addr : BitVec 48)
    (dma : Dma) (flags : BitVec 8) (at_ : Nat) (grace : BitVec 16) (s : State) :
    resultClock (execUpdateStageActivateLocal tag len addr dma flags at_ grace s) = some s.clock := by
  simp [execUpdateStageActivateLocal]

@[simp] theorem execActivateTeamMessage_clock (unit : Fin 16) (measurement : BitVec 256) (at_ : Nat) (s : State) :
    resultClock (execActivateTeamMessage unit measurement at_ s) = some s.clock := by
  simp [execActivateTeamMessage]

@[simp] theorem execActivateTeamAnswer_clock (unit : Fin 16) (ready : Bool) (s : State) :
    resultClock (execActivateTeamAnswer unit ready s) = some s.clock := by
  unfold execActivateTeamAnswer
  split <;> simp

@[simp] theorem execActivateTeamTimeout_clock (s : State) :
    resultClock (execActivateTeamTimeout s) = some s.clock := by
  unfold execActivateTeamTimeout
  split <;> simp

/-! ### CINCH (Machine/Cinch.lean) -/

@[simp] theorem State.cinchDone_clock (s : State) (tag : Nat) (st : Status) (b : Option Instant) :
    (State.cinchDone s tag st b).clock = s.clock := by
  simp [State.cinchDone]

@[simp] theorem State.showPending_clock (s : State) (target : Option Nat) :
    (State.showPending s target).clock = s.clock := by
  simp [State.showPending]

@[simp] theorem State.recordInc_clock (s : State) (cls blk tab idx member : Nat) :
    (State.recordInc s cls blk tab idx member).clock = s.clock := by
  simp [State.recordInc]

@[simp] theorem State.release_clock (s : State) : (State.release s).clock = s.clock := by
  simp [State.release]

@[simp] theorem startBehind_clock (l : List Instr) (s : State) : (startBehind l s).clock = s.clock := by
  induction l generalizing s with
  | nil => rfl
  | cons i l ih =>
    unfold startBehind
    split <;> simp [ih]

@[simp] theorem State.behindStarts_clock (s : State) : (State.behindStarts s).clock = s.clock := by
  simp [State.behindStarts]

@[simp] theorem execCinch_clock (tag : BitVec 16) (target : BitVec 32) (timed : Bool) (effS : BitVec 48)
    (effNs : BitVec 32) (grace : BitVec 16) (s : State) :
    resultClock (execCinch tag target timed effS effNs grace s) = some s.clock := by
  simp [execCinch]

@[simp] theorem State.acceptCinch_clock (s : State) (tag target : Nat) (eff : Option Instant) (grace : Nat) :
    (State.acceptCinch s tag target eff grace).clock = s.clock := by
  unfold State.acceptCinch
  split <;> simp

@[simp] theorem execCinchAccept_clock (s : State) : resultClock (execCinchAccept s) = some s.clock := by
  unfold execCinchAccept
  split <;> simp

@[simp] theorem State.setCinch_clock (s : State) (c : Option Cinch) : (State.setCinch s c).clock = s.clock := by
  simp [State.setCinch]

@[simp] theorem State.refuse_clock (s : State) (c : Cinch) (st : Status) : (State.refuse s c st).clock = s.clock := by
  simp [State.refuse]

@[simp] theorem State.abortTeam_clock (s : State) (c : Cinch) : (State.abortTeam s c).clock = s.clock := by
  simp [State.abortTeam]

@[simp] theorem State.decideCinch_clock (s : State) (c : Cinch) : (State.decideCinch s c).clock = s.clock := by
  simp [State.decideCinch]

@[simp] theorem execCinchValidated_clock (s : State) : resultClock (execCinchValidated s) = some s.clock := by
  simp only [execCinchValidated]
  (repeat' split) <;> simp

@[simp] theorem State.moveBoundary_clock (s : State) : (State.moveBoundary s).clock = s.clock := by
  unfold State.moveBoundary
  split <;> simp

@[simp] theorem execCinchReadyAnswer_clock (unit : Fin 16) (ready : Bool) (bitmap : Nat) (shapes : List
    (Nat × Nat × Nat × Nat)) (s : State) :
    resultClock (execCinchReadyAnswer unit ready bitmap shapes s) = some s.clock := by
  simp only [execCinchReadyAnswer]
  (repeat' split) <;> simp

@[simp] theorem execCinchPrepareTimeout_clock (s : State) :
    resultClock (execCinchPrepareTimeout s) = some s.clock := by
  unfold execCinchPrepareTimeout
  split <;> simp

@[simp] theorem State.setMember_clock (s : State) (m : Option MemberCinch) :
    (State.setMember s m).clock = s.clock := by
  simp [State.setMember]

@[simp] theorem execCinchPrepare_clock (target : BitVec 32) (boundary : Nat) (digest : Option Nat) (s : State) :
    resultClock (execCinchPrepare target boundary digest s) = some s.clock := by
  simp only [execCinchPrepare]
  (repeat' split) <;> simp

@[simp] theorem State.memberCommit_clock (s : State) (boundary : Instant) :
    (State.memberCommit s boundary).clock = s.clock := by
  unfold State.memberCommit
  split <;> simp

@[simp] theorem execCinchCommit_clock (boundary : Nat) (s : State) :
    resultClock (execCinchCommit boundary s) = some s.clock := by
  simp [execCinchCommit]

@[simp] theorem State.memberAbort_clock (s : State) : (State.memberAbort s).clock = s.clock := by
  simp [State.memberAbort]

@[simp] theorem execCinchAbort_clock (s : State) : resultClock (execCinchAbort s) = some s.clock := by
  simp [execCinchAbort]

@[simp] theorem State.anApply_clock (s : State) (old : Cfg) : (State.anApply s old).clock = s.clock := by
  simp [State.anApply]

@[simp] theorem State.portApply_clock (s : State) (old : Cfg) (b : Instant) :
    (State.portApply s old b).clock = s.clock := by
  simp [State.portApply]

@[simp] theorem State.tbApply_clock (s : State) (old : Cfg) : (State.tbApply s old).clock = s.clock := by
  simp [State.tbApply]

@[simp] theorem State.goosesForget_clock (s : State) (old : Cfg) : (State.goosesForget s old).clock = s.clock := by
  simp [State.goosesForget]

@[simp] theorem State.phaseRuns_clock (s : State) : (State.phaseRuns s).clock = s.clock := by
  simp [State.phaseRuns]

@[simp] theorem State.switchTo_clock (s : State) (new : Cfg) (epoch : Nat) (b : Instant) :
    (State.switchTo s new epoch b).clock = s.clock := by
  unfold State.switchTo
  split <;> simp

@[simp] theorem State.applyCinch_clock (s : State) (b : Instant) : (State.applyCinch s b).clock = s.clock := by
  simp [State.applyCinch]

@[simp] theorem execCinchApply_clock (s : State) : resultClock (execCinchApply s) = some s.clock := by
  simp only [execCinchApply]
  (repeat' split) <;> simp

@[simp] theorem execCinchConfirm_clock (unit : Fin 16) (s : State) :
    resultClock (execCinchConfirm unit s) = some s.clock := by
  unfold execCinchConfirm
  split <;> simp

@[simp] theorem execCinchConfirmTimeout_clock (s : State) :
    resultClock (execCinchConfirmTimeout s) = some s.clock := by
  unfold execCinchConfirmTimeout
  split <;> simp

@[simp] theorem execRetiringCopyExpiry_clock (s : State) : resultClock (execRetiringCopyExpiry s) = some s.clock := by
  unfold execRetiringCopyExpiry
  split <;> simp

/-! ### Pair of devices (Machine/Pair.lean) -/

@[simp] theorem State.setClaim_clock (s : State) (epoch : Nat) : (State.setClaim s epoch).clock = s.clock := by
  simp [State.setClaim]

@[simp] theorem State.goPair_clock (s : State) (st : Nat) : (State.goPair s st).clock = s.clock := by
  simp [State.goPair]

@[simp] theorem State.resumeOutputs_clock (s : State) (last : KV Instant) :
    (State.resumeOutputs s last).clock = s.clock := by
  simp [State.resumeOutputs]

@[simp] theorem State.becomeActive_clock (s : State) (epoch : Nat) : (s.becomeActive epoch).clock = s.clock := by
  simp only [State.becomeActive]
  refine (State.foldl_clock (fun s p => ?_) _ _).trans ?_
  · split <;> simp
  · simp only [State.resumeOutputs_clock, State.goPair_clock]
    split <;> simp

@[simp] theorem State.enterSync_clock (s : State) : (State.enterSync s).clock = s.clock := by
  simp [State.enterSync]

@[simp] theorem State.enterQuery_clock (s : State) : (State.enterQuery s).clock = s.clock := by
  simp [State.enterQuery]

@[simp] theorem execStartWaitExpiry_clock (s : State) : resultClock (execStartWaitExpiry s) = some s.clock := by
  simp [execStartWaitExpiry]

@[simp] theorem execHoldMaxExpiry_clock (s : State) : resultClock (execHoldMaxExpiry s) = some s.clock := by
  simp [execHoldMaxExpiry]

@[simp] theorem State.sendHeartbeat_clock (s : State) (u : Nat) : (State.sendHeartbeat s u).clock = s.clock := by
  simp [State.sendHeartbeat]

@[simp] theorem execHeartbeatSend_clock (s : State) : resultClock (execHeartbeatSend s) = some s.clock := by
  simp [execHeartbeatSend]

@[simp] theorem State.readDecision_clock (s : State) (h : Heartbeat) : (State.readDecision s h).clock = s.clock := by
  unfold State.readDecision
  split <;> simp

@[simp] theorem State.pairStep_clock (s : State) (h : Heartbeat) : (State.pairStep s h).clock = s.clock := by
  simp [State.pairStep]

@[simp] theorem execHeartbeatReceive_clock (h : Heartbeat) (s : State) :
    resultClock (execHeartbeatReceive h s) = some s.clock := by
  simp [execHeartbeatReceive]

@[simp] theorem execPartnerLost_clock (unit : Fin 16) (s : State) :
    resultClock (execPartnerLost unit s) = some s.clock := by
  simp [execPartnerLost]

@[simp] theorem State.pairCtl_clock (s : State) (v : Nat) : (State.pairCtl s v).clock = s.clock := by
  simp [State.pairCtl]

@[simp] theorem execPairEnable_clock (word : BitVec 32) (s : State) :
    resultClock (execPairEnable word s) = some s.clock := by
  simp [execPairEnable]

@[simp] theorem execPairDisable_clock (word : BitVec 32) (s : State) :
    resultClock (execPairDisable word s) = some s.clock := by
  simp [execPairDisable]

@[simp] theorem State.witTag_clock (s : State) (typ unit claim seq : Nat) :
    (State.witTag s typ unit claim seq).2.clock = s.clock := by
  simp [State.witTag]

@[simp] theorem State.witGood_clock (s : State) (typ : Nat) (f : WitFrame) :
    (State.witGood s typ f).2.clock = s.clock := by
  simp only [State.witGood]
  (repeat' split) <;> simp

@[simp] theorem State.sendWit_clock (s : State) (typ unit claim seq : Nat) :
    (s.sendWit typ unit claim seq).clock = s.clock := by
  have htag := State.witTag_clock s typ unit claim seq
  unfold State.sendWit
  split <;> simp_all

@[simp] theorem State.witAccept_clock (s : State) (typ : Nat) (f : WitFrame) :
    (State.witAccept s typ f).2.clock = s.clock := by
  simp only [State.witAccept]
  (repeat' split) <;> simp

@[simp] theorem State.witAnswer_clock (s : State) (seq : BitVec 16) : (State.witAnswer s seq).clock = s.clock := by
  simp [State.witAnswer]

@[simp] theorem execWitnessPoll_clock (frame : WitFrame) (s : State) :
    resultClock (execWitnessPoll frame s) = some s.clock := by
  simp [execWitnessPoll]

@[simp] theorem execWitnessGrant_clock (frame : WitFrame) (s : State) :
    resultClock (execWitnessGrant frame s) = some s.clock := by
  simp [execWitnessGrant]

@[simp] theorem execWitnessDeny_clock (frame : WitFrame) (s : State) :
    resultClock (execWitnessDeny frame s) = some s.clock := by
  simp [execWitnessDeny]

@[simp] theorem execWitnessUnreachable_clock (s : State) : resultClock (execWitnessUnreachable s) = some s.clock := by
  simp [execWitnessUnreachable]

@[simp] theorem State.setWit_clock (s : State) (u : Nat) (x : WitUnit) : (State.setWit s u x).clock = s.clock := by
  simp [State.setWit]

@[simp] theorem execWitnessSlot_clock (s : State) : resultClock (execWitnessSlot s) = some s.clock := by
  simp [execWitnessSlot]

@[simp] theorem State.witGrant_clock (s : State) (u : Nat) : (State.witGrant s u).clock = s.clock := by
  simp [State.witGrant]

@[simp] theorem State.witDecide_clock (s : State) (l : KV (Nat × Bool)) : (State.witDecide s l).clock = s.clock := by
  simp only [State.witDecide]
  (repeat' split) <;> simp

@[simp] theorem execWitnessAnswer_clock (query : Bool) (frame : WitFrame) (s : State) :
    resultClock (execWitnessAnswer query frame s) = some s.clock := by
  simp [execWitnessAnswer]
  (repeat' split) <;> simp

@[simp] theorem execWitnessWindowExpiry_clock (s : State) :
    resultClock (execWitnessWindowExpiry s) = some s.clock := by
  unfold execWitnessWindowExpiry
  split <;> simp

@[simp] theorem execSyncReq_clock (unit : Fin 16) (s : State) : resultClock (execSyncReq unit s) = some s.clock := by
  simp [execSyncReq]

@[simp] theorem execResyncImage_clock (image : ResyncImage) (s : State) :
    resultClock (execResyncImage image s) = some s.clock := by
  simp [execResyncImage]

@[simp] theorem execResyncRetry_clock (s : State) : resultClock (execResyncRetry s) = some s.clock := by
  unfold execResyncRetry
  split <;> simp

@[simp] theorem execResyncBoundary_clock (s : State) : resultClock (execResyncBoundary s) = some s.clock := by
  unfold execResyncBoundary
  split <;> simp

@[simp] theorem execOnoffForward_clock (o : Fin 64) (on : Bool) (s : State) :
    resultClock (execOnoffForward o on s) = some s.clock := by
  simp [execOnoffForward]

@[simp] theorem execTimeMessageSend_clock (s : State) : resultClock (execTimeMessageSend s) = some s.clock := by
  simp [execTimeMessageSend]

@[simp] theorem execTimeMessage_clock (unit : Fin 16) (offset : Int) (s : State) :
    resultClock (execTimeMessage unit offset s) = some s.clock := by
  simp [execTimeMessage]

@[simp] theorem State.setLink_clock (s : State) (l : Nat) (x : HjelLink) : (State.setLink s l x).clock = s.clock := by
  simp [State.setLink]

@[simp] theorem execHjelDelayMeasure_clock (link : Fin 4) (delay : Nat) (s : State) :
    resultClock (execHjelDelayMeasure link delay s) = some s.clock := by
  simp [execHjelDelayMeasure]

@[simp] theorem State.hjelMessage_clock (s : State) (vc crossed : Nat) (bytes : List Byte) :
    (State.hjelMessage s vc crossed bytes).clock = s.clock := by
  simp only [State.hjelMessage]
  (repeat' split) <;> simp

@[simp] theorem execHjelFlit_clock (link : Fin 4) (flit : Flit) (crossed : Nat) (s : State) :
    resultClock (execHjelFlit link flit crossed s) = some s.clock := by
  simp [execHjelFlit]

@[simp] theorem execHjelLinkUp_clock (link : Fin 4) (peer : Fin 16) (s : State) :
    resultClock (execHjelLinkUp link peer s) = some s.clock := by
  simp [execHjelLinkUp]

@[simp] theorem State.linkDown_clock (s : State) (l : Nat) : (State.linkDown s l).clock = s.clock := by
  simp [State.linkDown]

@[simp] theorem execHjelLinkDown_clock (link : Fin 4) (noLock : Bool) (s : State) :
    resultClock (execHjelLinkDown link noLock s) = some s.clock := by
  simp [execHjelLinkDown]

@[simp] theorem execTeamRevision_clock (unit : Fin 16) (rev : Revision) (s : State) :
    resultClock (execTeamRevision unit rev s) = some s.clock := by
  simp [execTeamRevision]

@[simp] theorem execTeamWaitExpiry_clock (s : State) : resultClock (execTeamWaitExpiry s) = some s.clock := by
  unfold execTeamWaitExpiry
  split <;> simp

/-! ### Safe state (Machine/Safe.lean) -/

@[simp] theorem State.react_clock (s : State) (cause : Nat) : (State.react s cause).clock = s.clock := by
  simp [State.react]

@[simp] theorem State.safeWrite_clock (s : State) (first : Bool) : (State.safeWrite s first).clock = s.clock := by
  simp [State.safeWrite]

@[simp] theorem execSafeForceWrite_clock (value : BitVec 32) (s : State) :
    resultClock (execSafeForceWrite value s) = some s.clock := by
  simp [execSafeForceWrite]

@[simp] theorem execLockstepMismatch_clock (pair : Fin 2) (s : State) :
    resultClock (execLockstepMismatch pair s) = some s.clock := by
  simp [execLockstepMismatch]

@[simp] theorem execWatchdogExpiry_clock (s : State) : resultClock (execWatchdogExpiry s) = some s.clock := by
  simp [execWatchdogExpiry]

@[simp] theorem State.wdtWatch_clock (s : State) : (State.wdtWatch s).clock = s.clock := by
  simp [State.wdtWatch]

@[simp] theorem execClockFault_clock (s : State) : resultClock (execClockFault s) = some s.clock := by
  simp [execClockFault]

@[simp] theorem execSupplyFault_clock (rail : Fin 8) (s : State) :
    resultClock (execSupplyFault rail s) = some s.clock := by
  simp [execSupplyFault]

@[simp] theorem execTemperatureFault_clock (tj : BitVec 16) (s : State) :
    resultClock (execTemperatureFault tj s) = some s.clock := by
  simp [execTemperatureFault]

@[simp] theorem execTbPlausCheck_clock (advancePerTick : Nat) (s : State) :
    resultClock (execTbPlausCheck advancePerTick s) = some s.clock := by
  simp [execTbPlausCheck]

@[simp] theorem execPeriodicSelftest_clock (fail : BitVec 16) (s : State) :
    resultClock (execPeriodicSelftest fail s) = some s.clock := by
  simp [execPeriodicSelftest]

/-! ### Power and start-up (Machine/Pwr.lean) -/

@[simp] theorem State.pwrWrite_clock (s : State) (first : Bool) : (State.pwrWrite s first).clock = s.clock := by
  simp [State.pwrWrite]

@[simp] theorem State.fallBack_clock (s : State) (code : Nat) : (State.fallBack s code).clock = s.clock := by
  simp [State.fallBack]

@[simp] theorem State.bootChoice_clock (s : State) : (State.bootChoice s).clock = s.clock := by
  unfold State.bootChoice
  split <;> simp

@[simp] theorem State.readFuses_clock (s : State) : (State.readFuses s).clock = s.clock := by
  simp [State.readFuses]

@[simp] theorem State.keyStoreStarts_clock (s : State) : (State.keyStoreStarts s).clock = s.clock := by
  simp [State.keyStoreStarts]

@[simp] theorem execResetRelease_clock (s : State) : resultClock (execResetRelease s) = some s.clock := by
  simp [execResetRelease]

@[simp] theorem State.migrate_clock (s : State) (i : Image) : (State.migrate s i).clock = s.clock := by
  unfold State.migrate
  split <;> simp

@[simp] theorem State.showFallback_clock (s : State) : (State.showFallback s).clock = s.clock := by
  unfold State.showFallback
  split <;> simp

@[simp] theorem State.firmwareStarts_clock (s : State) (k : Nat) (i : Image) :
    (State.firmwareStarts s k i).clock = s.clock := by
  simp only [State.firmwareStarts]
  (repeat' split) <;> simp

@[simp] theorem execLoadComplete_clock (s : State) : resultClock (execLoadComplete s) = some s.clock := by
  simp only [execLoadComplete]
  (repeat' split) <;> simp

@[simp] theorem State.selftestFails_clock (s : State) : (State.selftestFails s).clock = s.clock := by
  simp [State.selftestFails]

@[simp] theorem State.microcode_clock (s : State) (fail : Nat) : (State.microcode s fail).clock = s.clock := by
  simp [State.microcode]

@[simp] theorem execMicrocodeLoaded_clock (fail : BitVec 64) (s : State) :
    resultClock (execMicrocodeLoaded fail s) = some s.clock := by
  unfold execMicrocodeLoaded
  split <;> simp

@[simp] theorem State.discardReceived_clock (s : State) (n : Nat) : (State.discardReceived s n).clock = s.clock := by
  simp [State.discardReceived]

@[simp] theorem State.fslDown_clock (s : State) (i : Nat) : (State.fslDown s i).clock = s.clock := by
  simp [State.fslDown]

@[simp] theorem State.stopUnit_clock (s : State) (u : Nat) : (State.stopUnit s u).clock = s.clock := by
  simp [State.stopUnit]

@[simp] theorem execBlockRestart_clock (word : BitVec 32) (s : State) :
    resultClock (execBlockRestart word s) = some s.clock := by
  simp [execBlockRestart]

@[simp] theorem execBlockRestartDone_clock (s : State) : resultClock (execBlockRestartDone s) = some s.clock := by
  unfold execBlockRestartDone
  split <;> simp

@[simp] theorem execSleep_clock (tag : BitVec 16) (timed : Bool) (wakeS : BitVec 48) (wakeNs : BitVec 32)
    (grace : BitVec 16) (s : State) :
    resultClock (execSleep tag timed wakeS wakeNs grace s) = some s.clock := by
  simp only [execSleep]
  (repeat' split) <;> simp

@[simp] theorem execSleepLateCompletion_clock (s : State) :
    resultClock (execSleepLateCompletion s) = some s.clock := by
  unfold execSleepLateCompletion
  split <;> simp

@[simp] theorem State.entryActions_clock (s : State) (b : Instant) : (State.entryActions s b).clock = s.clock := by
  simp [State.entryActions]

@[simp] theorem State.setSleep_clock (s : State) (x : Option Sleep) : (State.setSleep s x).clock = s.clock := by
  simp [State.setSleep]

@[simp] theorem execBivouacEntry_clock (s : State) : resultClock (execBivouacEntry s) = some s.clock := by
  unfold execBivouacEntry
  split <;> simp

@[simp] theorem State.sleepRef_clock (s : State) : (State.sleepRef s).2.clock = s.clock := by
  simp only [State.sleepRef]
  (repeat' split) <;> simp

@[simp] theorem State.gatesOpen_clock (s : State) : (State.gatesOpen s).clock = s.clock := by
  simp [State.gatesOpen]

@[simp] theorem execBivouacDrainEnd_clock (s : State) : resultClock (execBivouacDrainEnd s) = some s.clock := by
  unfold execBivouacDrainEnd
  split <;> simp

@[simp] theorem State.wake_clock (s : State) (n r : Nat) : (State.wake s n r).clock = s.clock := by
  simp only [State.wake]
  (repeat' split) <;> simp

@[simp] theorem execWakePin_clock (rising : Bool) (edges : Nat) (s : State) :
    resultClock (execWakePin rising edges s) = some s.clock := by
  simp [execWakePin]

@[simp] theorem execWakePatternMatch_clock (port : Fin 48) (pattern : Fin 8) (edges : Nat) (s : State) :
    resultClock (execWakePatternMatch port pattern edges s) = some s.clock := by
  simp [execWakePatternMatch]

@[simp] theorem execTimedWake_clock (edges : Nat) (s : State) :
    resultClock (execTimedWake edges s) = some s.clock := by
  simp only [execTimedWake]
  (repeat' split) <;> simp

@[simp] theorem execTbAlmWake_clock (k : Fin 4) (edges : Nat) (s : State) :
    resultClock (execTbAlmWake k edges s) = some s.clock := by
  unfold execTbAlmWake
  split <;> simp

@[simp] theorem State.lateAlarms_clock (s : State) : (State.lateAlarms s).clock = s.clock := by
  simp [State.lateAlarms]

@[simp] theorem State.resumeWork_clock (s : State) : (State.resumeWork s).clock = s.clock := by
  simp [State.resumeWork]

@[simp] theorem State.resume_clock (s : State) (x : Sleep) (fail : Nat) :
    (State.resume s x fail).clock = s.clock := by
  simp [State.resume]

@[simp] theorem execAonCalibrate_clock (ppb : BitVec 24) (s : State) :
    resultClock (execAonCalibrate ppb s) = some s.clock := by
  simp [execAonCalibrate]

@[simp] theorem execTamperTrip_clock (src : Fin 8) (unpowered : Bool) (edges : Nat) (s : State) :
    resultClock (execTamperTrip src unpowered edges s) = some s.clock := by
  simp [execTamperTrip]

@[simp] theorem execTrialCommit_clock (s : State) : resultClock (execTrialCommit s) = some s.clock := by
  simp [execTrialCommit]

@[simp] theorem State.pairAge_clock (s : State) : (State.pairAge s).clock = s.clock := by
  unfold State.pairAge
  split <;> simp

/-! ### Snapshots (Machine/Snap.lean) -/

@[simp] theorem State.latchGroup_clock (s : State) (d : RegD) (b : Nat) :
    (State.latchGroup s d b).clock = s.clock := by
  simp [State.latchGroup]

@[simp] theorem State.latchWindow_clock (s : State) (w : Window) : (State.latchWindow s w).clock = s.clock := by
  simp [State.latchWindow]

@[simp] theorem State.latchAll_clock (s : State) : (State.latchAll s).clock = s.clock := by
  simp [State.latchAll]

@[simp] theorem execSnapLatchRead_clock (addr : BitVec 26) (s : State) :
    resultClock (execSnapLatchRead addr s) = some s.clock := by
  simp only [execSnapLatchRead]
  (repeat' split) <;> simp

@[simp] theorem execSnapTake_clock (word : BitVec 32) (s : State) :
    resultClock (execSnapTake word s) = some s.clock := by
  simp [execSnapTake]

/-! ### Errors (Machine/Err.lean) -/

@[simp] theorem State.needShow_clock (s : State) : s.needShow.clock = s.clock :=
  State.wr_clock _ _ _

@[simp] theorem State.injected_clock (s : State) (mem : Nat) (double : Bool) :
    (State.injected s mem double).clock = s.clock := by
  simp [State.injected]

@[simp] theorem execCairnPost_clock (tag : BitVec 16) (len : BitVec 32) (addr : BitVec 48) (entries : List
    (BitVec 64 × BitVec 32 × BitVec 32)) (dma : Dma) (s : State) :
    resultClock (execCairnPost tag len addr entries dma s) = some s.clock := by
  simp [execCairnPost]

@[simp] theorem execCairnWithdraw_clock (tag : BitVec 16) (s : State) :
    resultClock (execCairnWithdraw tag s) = some s.clock := by
  simp [execCairnWithdraw]

@[simp] theorem State.dumpFaults_clock (s : State) (posted : List (Nat × Nat)) (fs : List (Nat × Dma)) :
    (State.dumpFaults s posted fs).2.clock = s.clock := by
  induction fs generalizing s with
  | nil => rfl
  | cons f fs ih =>
    simp only [State.dumpFaults]
    split <;> simp [ih]

@[simp] theorem State.writeDump_clock (s : State) (r : ErrRec) (faults : List (Nat × Dma)) :
    (State.writeDump s r faults).clock = s.clock := by
  unfold State.writeDump
  split <;> simp

@[simp] theorem execCorrectableError_clock (code : Fin 4) (mem : BitVec 8) (unit : BitVec 16) (addr : BitVec 64)
    (s : State) :
    resultClock (execCorrectableError code mem unit addr s) = some s.clock := by
  simp [execCorrectableError]

@[simp] theorem State.abandonWork_clock (s : State) (who : Consumer) (t : Instant) (rev : Nat) :
    (State.abandonWork s who t rev).clock = s.clock := by
  simp [State.abandonWork]

@[simp] theorem State.abandonRun_clock (s : State) (id : Nat) : (State.abandonRun s id).clock = s.clock := by
  unfold State.abandonRun
  split <;> simp

@[simp] theorem State.abandonOp_clock (s : State) (o : OpOf) : (s.abandonOp o).clock = s.clock := by
  cases o <;> simp [State.abandonOp]

@[simp] theorem State.struck_clock (s : State) (x : Struck) : (s.struck x).clock = s.clock := by
  cases x <;> simp only [State.struck] <;> (repeat' split) <;> simp

@[simp] theorem execRecoverableError_clock (struck : Struck) (mem : BitVec 8) (unit : BitVec 16) (addr : BitVec 64)
    (safety : Bool) (s : State) :
    resultClock (execRecoverableError struck mem unit addr safety s) = some s.clock := by
  simp [execRecoverableError]

@[simp] theorem State.scrubbed_clock (s : State) (x : Fin 6 × BitVec 64 × Bool) :
    (State.scrubbed s x).clock = s.clock := by
  simp [State.scrubbed]

@[simp] theorem execScrub_clock (found : List (Fin 6 × BitVec 64 × Bool)) (s : State) :
    resultClock (execScrub found s) = some s.clock := by
  simp [execScrub]

@[simp] theorem execErrInjSingle_clock (mem : Fin 8) (s : State) :
    resultClock (execErrInjSingle mem s) = some s.clock := by
  simp [execErrInjSingle]

@[simp] theorem execErrInjDouble_clock (mem : Fin 8) (s : State) :
    resultClock (execErrInjDouble mem s) = some s.clock := by
  simp [execErrInjDouble]

theorem State.readInFlight_clock {s t : State} {c a b d : Nat} (h : s.readInFlight c = some (a, b, d, t)) :
    t.clock = s.clock := by
  simp only [State.readInFlight] at h
  (repeat' split at h) <;> simp only [Option.some.injEq, Prod.mk.injEq, reduceCtorEq] at h <;>
    obtain ⟨-, -, -, rfl⟩ := h <;> simp

@[simp] theorem execPcieErrorCompletion_clock (chan : Fin 65) (s : State) :
    resultClock (execPcieErrorCompletion chan s) = some s.clock := by
  unfold execPcieErrorCompletion
  split
  · rfl
  · split
    · rfl
    · next u h => simp [State.readInFlight_clock h]

/-! ### Translation (Machine/Xlt.lean) -/

@[simp] theorem State.issueInv_clock (s : State) (range : Option (Nat × Nat)) :
    (State.issueInv s range).clock = s.clock := by
  simp [State.issueInv]

@[simp] theorem execXltInvalidateRange_clock (high : BitVec 32) (s : State) :
    resultClock (execXltInvalidateRange high s) = some s.clock := by
  simp [execXltInvalidateRange]

@[simp] theorem execXltInvalidateAll_clock (_high : BitVec 32) (s : State) :
    resultClock (execXltInvalidateAll _high s) = some s.clock := by
  simp [execXltInvalidateAll]

@[simp] theorem execXltInvComplete_clock (s : State) : resultClock (execXltInvComplete s) = some s.clock := by
  unfold execXltInvComplete
  split <;> simp

@[simp] theorem execFringBaseWrite_clock (word : Fin 2) (value : BitVec 32) (s : State) :
    resultClock (execFringBaseWrite word value s) = some s.clock := by
  simp [execFringBaseWrite]

/-! ### Resumption of transfers (Machine/Resume.lean) -/

@[simp] theorem State.unsuspend_clock (s : State) (c : Nat) : (State.unsuspend s c).clock = s.clock := by
  simp [State.unsuspend]

@[simp] theorem State.restartControl_clock (s : State) (u : Susp) (dma : Dma) :
    (State.restartControl s u dma).clock = s.clock := by
  simp [State.restartControl]

@[simp] theorem State.resumeEnds_clock (s : State) (tag : Option Nat) (st : Status) (result : Nat) :
    (State.resumeEnds s tag st result).clock = s.clock := by
  unfold State.resumeEnds
  split <;> simp

@[simp] theorem State.retry_clock (s : State) (tag : Option Nat) (c : Nat) (u : Susp) (dma : Dma) :
    (s.retry tag c u dma).clock = s.clock := by
  have hx := State.translate_clock (s.unsuspend c) u.dva u.write dma.walk
  simp only [State.retry, State.resumeEnds_clock]
  split <;> simp_all

@[simp] theorem State.acceptRetry_clock (s : State) (tag : Option Nat) (c : Nat) (u : Susp) :
    (State.acceptRetry s tag c u).clock = s.clock := by
  simp [State.acceptRetry]

@[simp] theorem State.mmioRetry_clock (s : State) (c : Nat) : (State.mmioRetry s c).clock = s.clock := by
  unfold State.mmioRetry
  split <;> simp

@[simp] theorem execResumeRetry_clock (tag : Option (BitVec 16)) (chan : BitVec 16) (dma : Dma) (s : State) :
    resultClock (execResumeRetry tag chan dma s) = some s.clock := by
  simp only [execResumeRetry]
  (repeat' split) <;> simp

@[simp] theorem State.skipItem_clock (s : State) (c : Nat) (u : Susp) : (State.skipItem s c u).clock = s.clock := by
  simp only [State.skipItem]
  (repeat' split) <;> simp

@[simp] theorem execResumeSkip_clock (tag : Option (BitVec 16)) (chan : BitVec 16) (s : State) :
    resultClock (execResumeSkip tag chan s) = some s.clock := by
  simp only [execResumeSkip]
  (repeat' split) <;> simp

@[simp] theorem State.cmdf_clock (s : State) (e cmd : Nat) : (State.cmdf s e cmd).clock = s.clock := by
  simp [State.cmdf]

@[simp] theorem execCmdfTurnOff_clock (entry : Fin 8192) (s : State) :
    resultClock (execCmdfTurnOff entry s) = some s.clock := by
  simp [execCmdfTurnOff]

@[simp] theorem execCmdfTurnOn_clock (entry : Fin 8192) (s : State) :
    resultClock (execCmdfTurnOn entry s) = some s.clock := by
  simp [execCmdfTurnOn]

@[simp] theorem execCmdfSendCfg2_clock (entry : Fin 8192) (s : State) :
    resultClock (execCmdfSendCfg2 entry s) = some s.clock := by
  simp [execCmdfSendCfg2]

@[simp] theorem execCmdfSendCfg3_clock (entry : Fin 8192) (s : State) :
    resultClock (execCmdfSendCfg3 entry s) = some s.clock := by
  simp [execCmdfSendCfg3]

/-! ### Register writes (Machine/RegWrite.lean) -/

@[simp] theorem State.writeField_clock (s : State) (a v : Nat) (f : Fld) :
    (State.writeField s a v f).clock = s.clock := by
  unfold State.writeField
  split <;> simp

@[simp] theorem State.stage_clock (s : State) (a v : Nat) : (State.stage s a v).clock = s.clock := by
  simp [State.stage]

@[simp] theorem State.writeFields_clock (s : State) (a v : Nat) : (State.writeFields s a v).clock = s.clock := by
  simp [State.writeFields]

theorem State.discarded_clock {s t : State} {who : Requester} {a : Nat} (h : s.discarded who a = some t) :
    t.clock = s.clock := by
  simp only [State.discarded] at h
  (repeat' split at h) <;> cases h <;> simp

@[simp] theorem State.writeUtc_clock (s : State) (v : Nat) : (State.writeUtc s v).clock = s.clock := by
  simp [State.writeUtc]

@[simp] theorem State.clearQueue_clock (s : State) (v : Nat) : (State.clearQueue s v).clock = s.clock := by
  simp [State.clearQueue]

@[simp] theorem State.writeIdle_clock (s : State) (v : Nat) : (State.writeIdle s v).clock = s.clock := by
  simp [State.writeIdle]

@[simp] theorem State.qtest_clock (s t : State) : (s.qtest t).clock = t.clock := by
  unfold State.qtest
  split <;> simp

@[simp] theorem State.logSelected_clock (s : State) : (State.logSelected s).clock = s.clock := by
  simp only [State.logSelected]
  (repeat' split) <;> simp

@[simp] theorem State.linkWritten_clock (s t : State) (l : Nat) : (s.linkWritten t l).clock = t.clock := by
  simp [State.linkWritten]

theorem State.follow_clock {s t : State} (h : t.clock = s.clock) (a v : Nat) : (s.follow t a v).clock = s.clock := by
  unfold State.follow
  split <;> simp [h]

@[simp] theorem State.writePlain_clock (s : State) (who : Requester) (a v : Nat) :
    (s.writePlain who a v).clock = s.clock := by
  unfold State.writePlain
  split
  · next t h => exact State.discarded_clock h
  · exact State.follow_clock (by simp) a v

@[simp] theorem State.writeMsix_clock (s : State) (k v : Nat) : (State.writeMsix s k v).clock = s.clock := by
  simp [State.writeMsix]

theorem State.keepLow_clock {s t : State} (h : t.clock = s.clock) (who : Requester) :
    (s.keepLow t who).clock = s.clock := by
  simp [State.keepLow, h]

@[simp] theorem State.writeCmdf_clock (s : State) (v : Nat) : (State.writeCmdf s v).clock = s.clock := by
  simp [State.writeCmdf]

@[simp] theorem State.writeCal_clock (s : State) (who : Requester) (w : BitVec 32) :
    resultClock (State.writeCal s who w) = some s.clock := by
  simp [State.writeCal]

@[simp] theorem State.writeInj_clock (s : State) (v : Nat) : resultClock (State.writeInj s v) = some s.clock := by
  simp [State.writeInj]

@[simp] theorem State.writeResume_clock (s : State) (v : Nat) :
    resultClock (State.writeResume s v) = some s.clock := by
  simp [State.writeResume]

@[simp] theorem State.breakSequence_clock (s : State) (a : Nat) : (State.breakSequence s a).clock = s.clock := by
  simp [State.breakSequence]

end Sys2Proof.Machine

namespace Sys2Proof.Machine
open Sys2Proof

/-! ## The clock stays legal (R44, R45)

What ticks, steps the time base, writes its increment or resets the device leaves a legal clock. -/

theorem State.reset_clock_legal : State.reset.clock.Legal := State.timeBaseLegal_iff _ |>.mp State.reset_timeBaseLegal

theorem State.tickWith_clock_legal {s : State} (h : s.clock.Legal) (delta : Int) : (s.tickWith delta).clock.Legal :=
  (State.timeBaseLegal_iff _).mp (State.tickWith_timeBaseLegal ((State.timeBaseLegal_iff _).mpr h) delta)

theorem State.tick_clock_legal {s : State} (h : s.clock.Legal) : s.tick.clock.Legal := State.tickWith_clock_legal h 0

/-! ### Resets, which leave the clock of the reset state -/

@[simp] theorem State.restart_clock (s : State) (lost : Bool) : (s.restart lost).clock = State.reset.clock := by
  simp only [State.restart, State.wr_clock, State.wrB_clock]
  rfl

@[simp] theorem State.powerOn_clock (s : State) (cause : Nat) (lost : Bool) :
    (s.powerOn cause lost).clock = State.reset.clock := by
  simp [State.powerOn]

@[simp] theorem State.systemReset_clock (s : State) (cause : Nat) : (s.systemReset cause).clock = State.reset.clock := by
  simp [State.systemReset]

@[simp] theorem State.trialFails_clock (s : State) (code : Nat) : (s.trialFails code).clock = State.reset.clock :=
  State.systemReset_clock _ _

@[simp] theorem State.cairnReset_clock (s : State) : s.cairnReset.clock = State.reset.clock := by
  simp [State.cairnReset]

theorem State.fatal_clock_legal {s : State} (h : s.clock.Legal) (code mem unit addr : Nat) :
    (s.fatal code mem unit addr).clock.Legal := by
  simp only [State.fatal]
  (repeat' split) <;> simp [h, State.reset_clock_legal]

theorem State.trialWatch_clock_legal {s : State} (h : s.clock.Legal) : s.trialWatch.clock.Legal := by
  unfold State.trialWatch
  split
  · exact h
  · split
    · simp [State.reset_clock_legal]
    · extract_lets since upd u v
      have hu : u.clock = s.clock := State.wr_clock _ _ _
      have hv : v.clock = s.clock := by simp [v, hu]
      clear_value since upd u v
      split
      · split
        · simpa [hv] using h
        · rwa [hv]
      · rwa [hv]

/-! ### Bivouac's end, a step of the time base and the idle step -/

theorem State.loadTime_clock (s : State) (x : Sleep) (n : Nat) :
    (s.loadTime x n).clock = ⟨(s.now + s.edgesNs n) % instantModulus, 0, s.tb.incr, s.tb.incrNext⟩ := by
  unfold State.loadTime
  extract_lets d tb u grown v
  have hv : v.clock = u.clock := by simp [v]
  split
  · rw [State.raise_clock, hv]
    rfl
  · rw [hv]
    rfl

theorem State.loadTime_clock_legal {s : State} (h : s.clock.Legal) (x : Sleep) (n : Nat) : (s.loadTime x n).clock.Legal := by
  rw [State.loadTime_clock]
  exact ⟨Nat.mod_lt _ instantModulus_pos, Nat.two_pow_pos 32, h.increment, h.waiting⟩

theorem State.stepped_clock (s : State) (delta : Int) : (s.stepped delta).clock = (s.tickWith delta).clock := by
  simp [State.stepped]

theorem State.idle_clock_legal {s : State} (h : s.clock.Legal) : s.idle.clock.Legal := by
  unfold State.idle
  split
  · exact h
  · rw [State.needShow_clock, State.wdtWatch_clock]
    refine State.trialWatch_clock_legal ?_
    simpa using State.tick_clock_legal h

/-! ### Commands -/

/-- A step whose state, where it leaves one, has a legal clock. -/
def ResultLegal (r : Result) : Prop := ∀ c, resultClock r = some c → c.Legal

@[simp] theorem resultLegal_next (t : State) : ResultLegal (.next t) ↔ t.clock.Legal := by
  simp [ResultLegal]

theorem ResultLegal.of_clock_eq {s : State} {r : Result} (h : s.clock.Legal) (hr : resultClock r = some s.clock) :
    ResultLegal r :=
  fun _ hc => Option.some.inj (hr.symm.trans hc) ▸ h

theorem ResultLegal.when {g : Bool} {s t : State} (hs : s.clock.Legal) (ht : t.clock.Legal) : ResultLegal (when g s t) := by
  cases g
  · exact (resultLegal_next s).mpr hs
  · exact (resultLegal_next t).mpr ht

theorem execTbIncrWrite_clock_legal {s : State} (h : s.clock.Legal) (who : Requester) (high : BitVec 32) :
    ResultLegal (execTbIncrWrite who high s) := by
  simp only [execTbIncrWrite]
  split
  · simpa using h
  · split
    · simpa using h
    · split
      · simpa using h
      · split
        · simpa using h
        · next hrange =>
          refine (resultLegal_next _).mpr ⟨h.instant, h.fraction, h.increment, fun v hv => ?_⟩
          cases hv
          exact ⟨by omega, by omega⟩

theorem execTbStepWrite_clock_legal {s : State} (h : s.clock.Legal) (who : Requester) (high : BitVec 32) :
    ResultLegal (execTbStepWrite who high s) := by
  simp only [execTbStepWrite]
  (repeat' split) <;> simp [h, State.stepped_clock, State.tickWith_clock_legal]

theorem execPwrRstWrite_clock_legal {s : State} (h : s.clock.Legal) (value : BitVec 32) :
    ResultLegal (execPwrRstWrite value s) := by
  simp only [execPwrRstWrite]
  split <;> simp [h, State.reset_clock_legal]

theorem execActivation_clock_legal {s : State} (h : s.clock.Legal) : ResultLegal (execActivation s) := by
  unfold execActivation
  split
  · simpa using h
  · split
    · exact .when h (by simpa using h)
    · split
      · simpa using h
      · simp [State.reset_clock_legal]

theorem execResumption_clock_legal {s : State} (h : s.clock.Legal) (edges : Nat) (imageOk : Bool) (fail : BitVec 16) :
    ResultLegal (execResumption edges imageOk fail s) := by
  simp only [execResumption]
  (repeat' split) <;> simp [h, State.reset_clock_legal, State.loadTime_clock_legal]

theorem execSelftestComplete_clock_legal {s : State} (h : s.clock.Legal) (fail : BitVec 16) :
    ResultLegal (execSelftestComplete fail s) := by
  simp only [execSelftestComplete]
  (repeat' split) <;> simp [h, State.reset_clock_legal]

theorem execTrialTimeout_clock_legal {s : State} (h : s.clock.Legal) : ResultLegal (execTrialTimeout s) :=
  .when h (by simp [State.reset_clock_legal])

theorem execCairnDone_clock_legal {s : State} (h : s.clock.Legal) (faults : List (Nat × Dma)) :
    ResultLegal (execCairnDone faults s) := by
  simp only [execCairnDone]
  (repeat' split) <;> simp [h, State.reset_clock_legal]

theorem execCairnForce_clock_legal {s : State} (h : s.clock.Legal) (tag : BitVec 16) : ResultLegal (execCairnForce tag s) := by
  unfold execCairnForce State.served State.dequeued
  (repeat' split) <;> simp [h, State.fatal_clock_legal]

theorem execCairnTimeout_clock_legal {s : State} (h : s.clock.Legal) : ResultLegal (execCairnTimeout s) := by
  unfold execCairnTimeout
  split
  · simpa using h
  · exact .when h (by simp [State.reset_clock_legal])

theorem execFatalError_clock_legal {s : State} (h : s.clock.Legal) (code : Fin 6) (mem : BitVec 8)
    (unit : BitVec 16) (addr : BitVec 64) :
    ResultLegal (execFatalError code mem unit addr s) := by
  refine (resultLegal_next _).mpr (State.fatal_clock_legal ?_ _ _ _ _)
  split <;> simpa using h

/-! ### Register writes -/

/-- Among the words with an effect of their own only TB_INCR, TB_STEP and PWR_RST (the 9th, 11th and 20th row) reach the clock. -/
theorem State.ownRow_clock_legal {s : State} (h : s.clock.Legal) (who : Requester) (a : Nat) (w : BitVec 32) {r : Result}
    (hr : s.ownRow who a w = some r) : ResultLegal r := by
  unfold State.ownRow at hr
  split at hr
  case h_9 => exact Option.some.inj hr ▸ execTbIncrWrite_clock_legal h who w
  case h_11 => exact Option.some.inj hr ▸ execTbStepWrite_clock_legal h who w
  case h_20 => exact Option.some.inj hr ▸ execPwrRstWrite_clock_legal h w
  case h_23 =>
    refine .of_clock_eq h ?_
    (repeat' split at hr) <;> cases hr <;> simp
  all_goals
    refine .of_clock_eq h ?_
    rw [← Option.some.inj hr]
    simp [State.keepLow_clock]

theorem execRegisterWrite_clock_legal {s : State} (h : s.clock.Legal) (who : Requester) (addr : BitVec 26) (value : BitVec 32) :
    ResultLegal (execRegisterWrite who addr value s) := by
  simp only [execRegisterWrite]
  split
  · simpa using h
  · split
    · next r hr => exact State.ownRow_clock_legal (by simpa using h) _ _ _ hr
    · simpa using h

/-! ### Every command -/

theorem exec_clock_legal {s : State} (h : s.clock.Legal) (i : Instr) : ResultLegal (exec i s) := by
  cases i
  case tbIncrWrite => exact execTbIncrWrite_clock_legal h _ _
  case tbStepWrite => exact execTbStepWrite_clock_legal h _ _
  case registerWrite => exact execRegisterWrite_clock_legal h _ _ _
  case powerOnReset => exact (resultLegal_next _).mpr (by simp [State.reset_clock_legal])
  case brownOut => exact (resultLegal_next _).mpr (by simp [State.reset_clock_legal])
  case pwrRstWrite => exact execPwrRstWrite_clock_legal h _
  case activation => exact execActivation_clock_legal h
  case resumption => exact execResumption_clock_legal h _ _ _
  case selftestComplete => exact execSelftestComplete_clock_legal h _
  case trialTimeout => exact execTrialTimeout_clock_legal h
  case cairnDone => exact execCairnDone_clock_legal h _
  case cairnForce => exact execCairnForce_clock_legal h _
  case cairnTimeout => exact execCairnTimeout_clock_legal h
  case fatalError => exact execFatalError_clock_legal h _ _ _ _
  all_goals exact .of_clock_eq h (by simp only [exec]; simp)

/-- Settles O6: ticks, steps, increments and resets leave a legal clock, and every other command leaves the clock as it was. -/
theorem timeBaseStaysLegal : Obligations.TimeBaseStaysLegal := by
  intro s t hs hstep
  have hclock : s.clock.Legal := (State.timeBaseLegal_iff s).mp hs
  refine (State.timeBaseLegal_iff t).mpr ?_
  unfold step at hstep
  split at hstep
  · cases hstep
    exact State.idle_clock_legal hclock
  · next c rest _ =>
    exact exec_clock_legal (s := { s with pending := rest }) hclock c t.clock (by rw [hstep]; rfl)

end Sys2Proof.Machine

/-! # Proofs of spec/04: counters, event sources, QUENCH, frames, Harnesses and links; waking from Bivouac -/
namespace Sys2Proof.Machine
open Sys2Proof

/-! ## What counting and raising a source leaves (R83, R335) -/

/-- R335: register fields, what waits on the event queues and when sources were last raised are all in which `t` differs from `s`. -/
def State.EventsOnly (s t : State) : Prop :=
  ∃ d w l, t = { s with dev := d, hif := { s.hif with evWait := w, lastRaise := l } }

theorem State.EventsOnly.refl (s : State) : s.EventsOnly s := ⟨_, _, _, rfl⟩

theorem State.EventsOnly.trans {s t u : State} (hst : s.EventsOnly t) (htu : t.EventsOnly u) : s.EventsOnly u := by
  obtain ⟨_, _, _, rfl⟩ := hst
  obtain ⟨d, w, l, rfl⟩ := htu
  exact ⟨d, w, l, rfl⟩

theorem State.EventsOnly.wr {s t : State} (h : s.EventsOnly t) (f : Fld) (v : Nat) : s.EventsOnly (t.wr f v) :=
  h.trans ⟨_, _, _, rfl⟩

theorem State.EventsOnly.orBit {s t : State} (h : s.EventsOnly t) (f : Fld) (k : Nat) : s.EventsOnly (t.orBit f k) :=
  h.wr f _

theorem State.EventsOnly.evWait {s t : State} (h : s.EventsOnly t) (w : List EvWait) :
    s.EventsOnly { t with hif := { t.hif with evWait := w } } :=
  h.trans ⟨_, _, _, rfl⟩

theorem State.EventsOnly.lastRaise {s t : State} (h : s.EventsOnly t) (l : KV Instant) :
    s.EventsOnly { t with hif := { t.hif with lastRaise := l } } :=
  h.trans ⟨_, _, _, rfl⟩

/-- Routing acts on the event queues and on the counters of HIF, which may raise source 243 in turn. -/
theorem State.EventsOnly.routeF {s t : State} (h : s.EventsOnly t) (fuel src : Nat) : s.EventsOnly (State.routeF fuel t src) := by
  induction fuel generalizing t src with
  | zero => exact h
  | succ fuel ih =>
    unfold State.routeF
    extract_lets count
    have hcount {u : State} (hu : s.EventsOnly u) (i : Nat) : s.EventsOnly (count u i) := by
      simp only [count]
      split
      · exact hu.wr _ _
      · exact ih (((hu.wr _ _).orBit _ _).orBit _ _) _
    split
    · split
      · exact hcount h _
      · split
        · exact hcount (h.evWait _) _
        · exact h.evWait _
    · exact h

theorem State.EventsOnly.route {s t : State} (h : s.EventsOnly t) (src : Nat) : s.EventsOnly (t.route src) := h.routeF 4 src

/-- R335: a source whose route is off is not routed. -/
theorem State.route_off {s : State} {src : Nat} (hoff : s.on (Reg.HIF_EVT_ROUTE_EN src) = false) : s.route src = s := by
  simp [State.route, State.routeF, hoff]

/-! ## Raising a source (R113, R335) -/

/-- `s` with the listed fields written, as a raised source writes its index fields. -/
def State.wrList (s : State) (idx : List (Fld × Nat)) : State := idx.foldl (fun y p => y.wr p.1 p.2) s

theorem State.EventsOnly.wrList {s t : State} (h : s.EventsOnly t) (idx : List (Fld × Nat)) : s.EventsOnly (t.wrList idx) := by
  induction idx generalizing t with
  | nil => exact h
  | cons p idx ih => exact ih (h.wr p.1 p.2)

@[simp] theorem State.wrList_hif (s : State) (idx : List (Fld × Nat)) : (s.wrList idx).hif = s.hif := by
  induction idx generalizing s with
  | nil => rfl
  | cons p idx ih => exact ih (s.wr p.1 p.2)

@[simp] theorem State.wrList_now (s : State) (idx : List (Fld × Nat)) : (s.wrList idx).now = s.now := by
  induction idx generalizing s with
  | nil => rfl
  | cons p idx ih => exact ih (s.wr p.1 p.2)

theorem State.wrList_rd_other {s : State} {g : Fld} {idx : List (Fld × Nat)} (h : ∀ p ∈ idx, p.1.key ≠ g.key) :
    (s.wrList idx).rd g = s.rd g := by
  induction idx generalizing s with
  | nil => rfl
  | cons p idx ih =>
    obtain ⟨hp, hidx⟩ := List.forall_mem_cons.mp h
    calc ((s.wr p.1 p.2).wrList idx).rd g = (s.wr p.1 p.2).rd g := ih hidx
      _ = s.rd g := s.rd_wr_other p.2 (Ne.symm hp)

/-- A source limited to one event per millisecond that is raised again within it renews its index fields. -/
theorem State.raise_again {s : State} {src : Nat} {t : Instant} (hlim : rateLimited src = true)
    (hlast : kvGet? s.hif.lastRaise src = some t) (hle : t ≤ s.now) (hlt : s.now < t + 1000000) (idx : List (Fld × Nat)) :
    s.raise src idx = s.wrList idx := by
  simp [State.raise, State.wrList, hlim, hlast, hle, hlt]

/-- A source without a limit: index fields, cause bit, routing. -/
theorem State.raise_unlimited {s : State} {src : Nat} {f : Fld} {k : Nat} (hcause : causeOf src = some (f, k))
    (hlim : rateLimited src = false) (idx : List (Fld × Nat)) :
    s.raise src idx = ((s.wrList idx).orBit f k).route src := by
  simp [State.raise, State.wrList, hcause, hlim]

/-- A limited source not raised within the last millisecond: the limit counts from now on. -/
theorem State.raise_anew {s : State} {src : Nat} {f : Fld} {k : Nat} (hcause : causeOf src = some (f, k))
    (hlim : rateLimited src = true) (hold : ∀ t, kvGet? s.hif.lastRaise src = some t → t + 1000000 ≤ s.now)
    (idx : List (Fld × Nat)) :
    s.raise src idx = (State.orBit { s.wrList idx with
      hif := { s.hif with lastRaise := kvSet s.hif.lastRaise src s.now } } f k).route src := by
  have hhif : (s.wrList idx).hif = s.hif := s.wrList_hif idx
  have hnow : (s.wrList idx).now = s.now := s.wrList_now idx
  unfold State.wrList at hhif hnow ⊢
  cases hlast : kvGet? s.hif.lastRaise src with
  | none => simp [State.raise, hcause, hlim, hlast, hhif, hnow]
  | some t =>
    have hpast : ¬ s.now < t + 1000000 := Nat.not_lt.mpr (hold t hlast)
    simp [State.raise, hcause, hlim, hlast, hhif, hnow, hpast]

theorem State.raise_eventsOnly (s : State) (src : Nat) (idx : List (Fld × Nat)) : s.EventsOnly (s.raise src idx) := by
  unfold State.raise
  extract_lets recent z hif limited caused
  have hz : s.EventsOnly z := (State.EventsOnly.refl s).wrList idx
  have hlimited : s.EventsOnly limited := by
    unfold limited
    split
    · exact hz.lastRaise _
    · exact hz
  have hcaused : s.EventsOnly caused := by
    unfold caused
    split
    · exact hlimited.orBit _ _
    · exact hlimited
  split
  · exact hz
  · exact hcaused.route src

/-- Writing the index fields and the cause bit of a source does not switch its route on. -/
theorem State.route_stays_off {s : State} {src : Nat} {f : Fld} {idx : List (Fld × Nat)}
    (hoff : s.on (Reg.HIF_EVT_ROUTE_EN src) = false) (hf : f.key ≠ (Reg.HIF_EVT_ROUTE_EN src).key)
    (hidx : ∀ p ∈ idx, p.1.key ≠ (Reg.HIF_EVT_ROUTE_EN src).key) (k : Nat) (hif : HifState) :
    (State.orBit { s.wrList idx with hif := hif } f k).on (Reg.HIF_EVT_ROUTE_EN src) = false := by
  have hrd : (State.orBit { s.wrList idx with hif := hif } f k).rd (Reg.HIF_EVT_ROUTE_EN src) =
      s.rd (Reg.HIF_EVT_ROUTE_EN src) :=
    (State.rd_wr_other _ _ (Ne.symm hf)).trans (State.wrList_rd_other hidx)
  rwa [State.on, hrd]

/-- Settles O14: a counter by its definition; what a raised source reaches by following it through its routing, which
does nothing where the route is off. -/
theorem countersAndEventSourcesActLocally : Obligations.CountersAndEventSourcesActLocally := by
  unfold Obligations.CountersAndEventSourcesActLocally
  refine ⟨?counter, fun s src idx => s.raise_eventsOnly src idx, ?source⟩
  case counter =>
    intro s b i d x
    exact ⟨fun hsame => if_pos hsame, fun hchanged => if_neg hchanged⟩
  case source =>
    intro s src idx f k hcause
    refine ⟨?again, fun hoff hf hidx => ⟨fun hlim => ?unlimited, fun hlim hold => ?anew⟩⟩
    case again =>
      rintro hlim ⟨t, hlast, hle, hlt⟩
      exact State.raise_again hlim hlast hle hlt idx
    case unlimited =>
      exact (State.raise_unlimited hcause hlim idx).trans (State.route_off (State.route_stays_off hoff hf hidx k _))
    case anew =>
      exact (State.raise_anew hcause hlim hold idx).trans (State.route_off (State.route_stays_off hoff hf hidx k _))

/-! ## NOP and QUENCH (R80, R330, R331) -/

theorem execQuench_released {s : State} {kind : BitVec 8} {target : BitVec 16} (hs : s.Serving)
    (hq : s.quenchState kind.toNat target.toNat = some false) (tag : BitVec 16) :
    execQuench tag kind target s =
      .next ((s.setQuench kind.toNat target.toNat true).mgmtDone .quench tag.toNat .ok) := by
  simp [execQuench, State.served_of_serving hs, hq]

theorem execQuench_quenched {s : State} {kind : BitVec 8} {target : BitVec 16} (hs : s.Serving)
    (hq : s.quenchState kind.toNat target.toNat = some true) (tag : BitVec 16) :
    execQuench tag kind target s = .next (s.mgmtDone .quench tag.toNat .quenched) := by
  simp [execQuench, State.served_of_serving hs, hq]

theorem execQuench_noTarget {s : State} {kind : BitVec 8} {target : BitVec 16} (hs : s.Serving)
    (hq : s.quenchState kind.toNat target.toNat = none) (tag : BitVec 16) :
    execQuench tag kind target s = .next (s.mgmtDone .quench tag.toNat .invalid) := by
  simp [execQuench, State.served_of_serving hs, hq]

theorem execQuenchRelease_target {s : State} {kind : BitVec 8} {target : BitVec 16} {b : Bool} (hs : s.Serving)
    (hq : s.quenchState kind.toNat target.toNat = some b) (tag : BitVec 16) :
    execQuenchRelease tag kind target s =
      .next ((s.setQuench kind.toNat target.toNat false).mgmtDone .quench tag.toNat .ok) := by
  simp [execQuenchRelease, State.served_of_serving hs, hq]

theorem execQuenchRelease_noTarget {s : State} {kind : BitVec 8} {target : BitVec 16} (hs : s.Serving)
    (hq : s.quenchState kind.toNat target.toNat = none) (tag : BitVec 16) :
    execQuenchRelease tag kind target s = .next (s.mgmtDone .quench tag.toNat .invalid) := by
  simp [execQuenchRelease, State.served_of_serving hs, hq]

/-- Settles O16: NOP is served wherever commands are dequeued, QUENCH by the state of its target. -/
theorem nopAndQuenchComplete : Obligations.NopAndQuenchComplete := by
  unfold Obligations.NopAndQuenchComplete
  intro tag kind target s
  refine ⟨?nop, ?released, ?quenched, ?release, ?noTarget⟩
  case nop => exact fun hawake => State.dequeued_awake hawake _
  case released => exact fun hs hq => execQuench_released hs hq tag
  case quenched => exact fun hs hq => execQuench_quenched hs hq tag
  case release => exact fun _ hs hq => execQuenchRelease_target hs hq tag
  case noTarget => exact fun hs hq => ⟨execQuench_noTarget hs hq tag, execQuenchRelease_noTarget hs hq tag⟩

/-! ## Waking from Bivouac (R85, R424, R427) -/

theorem execWakePin_selected {s : State} {rising : Bool} (hen : s.cfOn Reg.PWR_WAKE_CFG_PIN_EN = true)
    (hedge : s.cfOn Reg.PWR_WAKE_CFG_PIN_EDGE = !rising) (edges : Nat) :
    execWakePin rising edges s = .next ((s.wrB Reg.PWR_STAT_WAKE_LVL rising).wake edges 2) := by
  simp [execWakePin, hen, hedge]

theorem execWakePin_disabled {s : State} (hen : s.cfOn Reg.PWR_WAKE_CFG_PIN_EN = false) (rising : Bool) (edges : Nat) :
    execWakePin rising edges s = .next (s.wrB Reg.PWR_STAT_WAKE_LVL rising) := by
  simp [execWakePin, hen]

/-- R424: the first wake event is latched. -/
theorem State.wake_latches {s : State} {x : Sleep} (hx : s.pwr.sleep = some x) (hfirst : x.event = none) (n r : Nat) :
    ∃ y e, (s.wake n r).pwr.sleep = some y ∧ y.event = some e := by
  simp only [State.wake, hx, hfirst]
  split <;> exact ⟨_, _, rfl, rfl⟩

/-- A frame that is the first wake event shows its port and pattern. -/
theorem execWakePatternMatch_first {s : State} {x : Sleep} {port : Fin 48} {pattern : Fin 8} (hx : s.pwr.sleep = some x)
    (hfirst : x.event = none) (hport : port.val ∈ s.wakePorts) (hen : s.cfOn (Reg.PORT_WAKE_EN port pattern) = true)
    (edges : Nat) :
    execWakePatternMatch port pattern edges s =
      .next (((s.wake edges 3).wr Reg.PWR_WAKE_INFO_PORT port).wr Reg.PWR_WAKE_INFO_PATTERN pattern) := by
  obtain ⟨y, e, hy, he⟩ := State.wake_latches hx hfirst edges 3
  simp [execWakePatternMatch, State.sleeping, hx, hfirst, hport, hen, hy, he]

theorem execTimedWake_edge {s : State} {x : Sleep} {w : Instant} {edges : Nat} (hx : s.pwr.sleep = some x)
    (hw : x.wake = some w) (hedge : s.firstEdge x w edges = true) :
    execTimedWake edges s = .next (s.wake edges 4) := by
  simp [execTimedWake, hx, hw, hedge]

theorem execTbAlmWake_edge {s : State} {x : Sleep} {w : Instant} {k : Fin 4} {edges : Nat} (hx : s.pwr.sleep = some x)
    (hw : s.almFrom k = some w) (hasleep : x.stage = .asleep) (hen : bitOf (s.cf Reg.PWR_WAKE_CFG_ALM_EN) k = true)
    (hedge : s.firstEdge x w edges = true) :
    execTbAlmWake k edges s = .next (s.wake edges 5) := by
  simp [execTbAlmWake, hx, hw, hasleep, hen, hedge]

/-! ## Resumption (R425, R426, R428, R429) -/

theorem execResumption_noWait {s : State} {x : Sleep} {edges : Nat} (hx : s.pwr.sleep = some x)
    (hwaking : x.stage = .waking false) (hnowait : (s.loadTime x edges).cfOn Reg.PWR_CFG_WAIT_LOCK = false)
    (fail : BitVec 16) :
    execResumption edges true fail s = .next ((s.loadTime x edges).resume x fail.toNat) := by
  simp [execResumption, hx, hwaking, hnowait]

theorem execResumption_locked {s : State} {x : Sleep} (hx : s.pwr.sleep = some x) (hwaiting : x.stage = .waking true)
    (hlock : s.tbState = tbLOCKED) (edges : Nat) (fail : BitVec 16) :
    execResumption edges true fail s = .next (s.resume x fail.toNat) := by
  simp [execResumption, hx, hwaiting, hlock]

theorem execResumption_imageFails {s : State} {x : Sleep} (hx : s.pwr.sleep = some x) (hwaking : x.stage = .waking false)
    (edges : Nat) (fail : BitVec 16) : execResumption edges false fail s = .next (s.systemReset 4) := by
  simp [execResumption, hx, hwaking]

/-- Settles O30, one lemma for each wake source and for each outcome of the resumption. -/
theorem wakeAndResumptionComplete : Obligations.WakeAndResumptionComplete := by
  unfold Obligations.WakeAndResumptionComplete
  intro rising edges port pattern k fail x w s
  refine ⟨?pin, ?pinOff, ?frame, ?timed, ?alarm, ?noWait, ?locked, ?imageFails⟩
  case pin => exact fun hen hedge => execWakePin_selected hen hedge edges
  case pinOff => exact fun hen => execWakePin_disabled hen rising edges
  case frame => exact fun hx hfirst _ hport hen => ⟨_, execWakePatternMatch_first hx hfirst hport hen edges, rfl⟩
  case timed => exact fun hx hw hedge => execTimedWake_edge hx hw hedge
  case alarm => exact fun hx hw hasleep hen hedge => execTbAlmWake_edge hx hw hasleep hen hedge
  case noWait => exact fun hx hwaking hnowait => execResumption_noWait hx hwaking hnowait fail
  case locked => exact fun hx hwaiting hlock => execResumption_locked hx hwaiting hlock edges fail
  case imageFails => exact fun hx hwaking => execResumption_imageFails hx hwaking edges fail

/-! ## Received frames (R72, R73, R78) -/

section
variable {s u : State} {port : Fin 48} {frame : Frame}

/-- A port without a MODE receives nothing. -/
theorem execFrameReceive_off (hoff : s.cf (Reg.PORT_CFG_MODE port.val) = 0) : execFrameReceive port frame s = .next s := by
  simp [execFrameReceive, hoff]

/-- R72: a frame that is not accepted counts in the counter that names why. -/
theorem execFrameReceive_rejected {i : Nat} (hmode : s.cf (Reg.PORT_CFG_MODE port.val) ≠ 0) (hhears : s.deaf = false)
    (htype : frame.ethType ≠ 0x8808#16)
    (hreject : ((s.capFrame port.val frame).countLine port.val frame).rejectCounter port.val frame = some i) :
    execFrameReceive port frame s = .next (((s.capFrame port.val frame).countLine port.val frame).portCount port.val i) := by
  simp [execFrameReceive, hmode, hhears, htype, hreject]

/-- R72: a PAUSE or PFC frame counts in the counter that names it, and in none of the line's. -/
theorem execFrameReceive_pause {i : Nat} (hmode : s.cf (Reg.PORT_CFG_MODE port.val) ≠ 0) (hhears : s.deaf = false)
    (htype : frame.ethType = 0x8808) (hreject : (s.capFrame port.val frame).rejectCounter port.val frame = some i) :
    execFrameReceive port frame s = .next ((s.capFrame port.val frame).portCount port.val i) := by
  simp [execFrameReceive, hmode, hhears, htype, hreject]

/-- R73: an accepted frame counts, and its duplicate check tells whether it goes on. -/
theorem execFrameReceive_accepted {go : Bool} (hmode : s.cf (Reg.PORT_CFG_MODE port.val) ≠ 0) (hhears : s.deaf = false)
    (htype : frame.ethType ≠ 0x8808#16)
    (haccept : ((s.capFrame port.val frame).countLine port.val frame).rejectCounter port.val frame = none)
    (hprp : (((s.capFrame port.val frame).countLine port.val frame).countAccepted port.val frame).prpStage port.val frame =
      (go, u)) :
    execFrameReceive port frame s = .next (if go then u.stages port.val frame else u) := by
  simp [execFrameReceive, hmode, hhears, htype, haccept, hprp]

end

/-! ## PRP Harnesses (R78, R79) -/

theorem execPrpEntryAge_member {s : State} {harness : Fin 25} {m : Nat} {rest : List Nat}
    (hm : s.act.members harness.val = m :: rest) :
    execPrpEntryAge harness s = .next { s with port := { s.port with dup := (kvPut s.port.dup harness.val
      ((kvGetD s.port.dup harness.val []).filter (fun e => decide (s.now < e.made + s.cf (Reg.PORT_PRP_AGE_MS m) * 1000000)))
        []) } } := by
  simp [execPrpEntryAge, hm]

/-- R79: the first supervision frame of a PRP Harness leaves at once. -/
theorem execPrpSupervision_first {s : State} {harness : Fin 25} {m : Nat} {rest : List Nat}
    (hm : s.act.members harness.val = m :: rest) (hprp : s.cf (Reg.PORT_CFG_HARN_KIND m) = 1) (hlit : s.dark = false)
    (hfirst : kvGet? s.port.prpSupLast harness.val = none) :
    execPrpSupervision harness s = .next (State.send { s with port := { s.port with
      prpSupLast := kvSet s.port.prpSupLast harness.val s.now } } (0x80 + harness.val) 7 (fwFrame .prpSupervision 64)) := by
  simp [execPrpSupervision, hm, hprp, hlit, hfirst]

/-! ## Links and the heads of transmit queues (R70, R71, R81, R82, R87) -/

/-- R70, R421: in Bivouac the wake ports alone train. -/
theorem execLinkUp_trained {s : State} {port : Fin 48} (hmode : s.cf (Reg.PORT_CFG_MODE port.val) ≠ 0)
    (hawake : s.dark = false ∨ (port.val ∈ s.wakePorts ∧ s.rd Reg.PWR_STAT_PHASE ≠ 0)) (hdown : s.linkOn port.val = false)
    (hidle : (s.prt port.val).idleUntil ≤ s.now) (speed : Fin 6) (anDone : Bool) :
    let n := port.val
    let mode := s.cf (Reg.PORT_CFG_MODE n)
    let an := s.cfOn (Reg.PORT_CFG_AN_EN n) && hasAn mode
    execLinkUp port speed anDone s = .next (((((s.wr (Reg.PORT_STAT_LINK n) 1).wr (Reg.PORT_STAT_PCS_LOCK n) 1).wrB
      (Reg.PORT_STAT_AN_DONE n) (an && anDone)).wr (Reg.PORT_STAT_SPEED n) (speedOf mode an speed)).portCause n 0) := by
  rcases hawake with hlit | ⟨hport, hphase⟩
  · simp [execLinkUp, when, hmode, hdown, hidle, hlit]
  · simp [execLinkUp, when, hmode, hdown, hidle, hport, hphase]

theorem execLinkDown_up {s : State} {port : Fin 48} (hup : s.linkOn port.val = true) :
    execLinkDown port s = .next (s.dropLink port.val) := by
  simp [execLinkDown, hup]

theorem execFrameTransmit_linkDown {s : State} {port : Fin 48} {q : Nat} {f : TxFrame} (hlit : s.dark = false)
    (htop : (s.prt port.val).top = some (q, f)) (hdown : s.linkOn port.val = false) :
    execFrameTransmit port s = .next (s.discardTx port.val q f) := by
  simp [execFrameTransmit, hlit, htop, hdown]

theorem execFrameTransmit_single {s : State} {port : Fin 48} {q : Nat} {f : TxFrame} (hlit : s.dark = false)
    (htop : (s.prt port.val).top = some (q, f)) (hup : s.linkOn port.val = true) (hsingle : f.harness = 0) :
    execFrameTransmit port s = .next (s.leave port.val q f none true) := by
  simp [execFrameTransmit, hlit, htop, hup, hsingle]

/-- Settles O43, one lemma for each command under the conditions of its clause. -/
theorem portCommandsComplete : Obligations.PortCommandsComplete := by
  unfold Obligations.PortCommandsComplete
  intro port frame harness speed anDone i q f s u
  refine ⟨?rejected, ?pause, ?goesOn, ?duplicate, ?off, ?age, ?supervision, ?up, ?down, ?discarded, ?leaves⟩
  case rejected => exact fun hmode hhears htype hreject => execFrameReceive_rejected hmode hhears htype hreject
  case pause => exact fun hmode hhears htype hreject => execFrameReceive_pause hmode hhears htype hreject
  case goesOn => exact fun hmode hhears htype haccept hprp => execFrameReceive_accepted hmode hhears htype haccept hprp
  case duplicate => exact fun hmode hhears htype haccept hprp => execFrameReceive_accepted hmode hhears htype haccept hprp
  case off => exact fun hoff => execFrameReceive_off hoff
  case age => exact fun _ _ hm => execPrpEntryAge_member hm
  case supervision => exact fun _ _ hm hprp hlit hfirst => execPrpSupervision_first hm hprp hlit hfirst
  case up => exact fun hmode hawake hdown hidle => execLinkUp_trained hmode hawake hdown hidle speed anDone
  case down => exact fun hup => execLinkDown_up hup
  case discarded => exact fun hlit htop hdown => execFrameTransmit_linkDown hlit htop hdown
  case leaves => exact fun hlit htop hup hsingle => execFrameTransmit_single hlit htop hup hsingle

end Sys2Proof.Machine

/-! # Proofs of spec/05: frames taken and matched, connections, configuration, command and data frames -/
namespace Sys2Proof.Machine
open Sys2Proof

/-! ## Frames that wait for ING and parsed frames that wait for their step (R93) -/

/-- ING has taken frame `i` from its queue, of which `rest` remains, and counted it. -/
def State.ingTaken (s : State) (i : InFrame) (rest : List InFrame) : State :=
  State.bump { s with port := { s.port with inq := rest } } .ing C.ING_FRAMES (i.entry.getD 0)

/-- `s` with `ps` as the parsed frames that wait. -/
def State.withParsed (s : State) (ps : List Parsed) : State := { s with ing := { s.ing with parsed := ps } }

/-- The oldest parsed frame is taken where it is of the kind sought. -/
theorem State.takeParsed_head {s : State} {p : Parsed} {ps : List Parsed} {kind : Frame → Bool}
    (hparsed : s.ing.parsed = p :: ps) (hkind : kind p.frame = true) :
    s.takeParsed kind = some (p, s.withParsed ps) := by
  simp [State.takeParsed, State.withParsed, hparsed, hkind]

/-! ## ING_PARSE (R93 to R95, R97) -/

section
variable {s : State} {i : InFrame} {rest : List InFrame}

/-- R95: a frame that fails its transport is discarded. -/
theorem execIngParse_transportFails {c : Nat} (hqueue : s.port.inq = i :: rest)
    (hfail : (s.ingTaken i rest).transport i.port i.frame = some c) :
    execIngParse s = .next (((s.ingTaken i rest).freeCells i).discard i.entry c) := by
  unfold State.ingTaken at hfail ⊢
  simp [execIngParse, hqueue, hfail]

/-- R93, R94: a sampled-value frame is parsed for the entry that it matches, where its port is one of the entry's. -/
theorem execIngParse_svMatched {v : SvFrame} {n e : Nat} (hqueue : s.port.inq = i :: rest)
    (hpass : (s.ingTaken i rest).transport i.port i.frame = none) (hbody : i.frame.body = .sv v)
    (hreader : (s.ingTaken i rest).reader i.ts i.frame = .ok (n, e))
    (hports : ((s.ingTaken i rest).cfgOf n).portAdmits (((s.ingTaken i rest).cfgOf n).tab 1 e) i.port = true) :
    execIngParse s = .next (((s.ingTaken i rest).freeCells i).parse i e n i.frame) := by
  unfold State.ingTaken at hpass hreader hports ⊢
  simp [execIngParse, hqueue, hpass, hbody, hreader, hports]

/-- R84, R94: a frame of no stream protocol goes to the unmatched ring. -/
theorem execIngParse_rawUnmatched (hqueue : s.port.inq = i :: rest)
    (hpass : (s.ingTaken i rest).transport i.port i.frame = none) (hbody : i.frame.body = .raw) :
    execIngParse s = .next ((s.ingTaken i rest).copyToRing Reg.ING_RING_UNM_EN Reg.ING_RING_UNM_RING 0 i) := by
  unfold State.ingTaken at hpass ⊢
  simp [execIngParse, hqueue, hpass, hbody]

end

/-! ## Connections (R96) -/

section
variable {s : State} {entry : Fin 8192}

/-- The source of an established connection is started, with AUTOCFG 1 after it was asked for its configuration. -/
theorem execTcpEstablished_connecting (hst : (s.conn entry).st = 1) (next : BitVec 32) :
    let z := s.setConn entry { s.conn entry with st := 2, next := next.toNat, retryAt := 0, wait := 0, unacked := [] }
    execTcpEstablished entry next s =
      .next ((if (z.act.tab 1 entry).bitAt 0 6 then z.sendTcp entry 2 5 else z).sendTcp entry 2 2) := by
  simp [execTcpEstablished, when, hst]

/-- The first retry comes after one second. -/
theorem execTcpConnectionLoss_first (hst : (s.conn entry).st = 2) (hwait : (s.conn entry).wait = 0) :
    execTcpConnectionLoss entry s =
      .next (s.setConn entry { s.conn entry with st := 3, wait := 1, retryAt := s.now + 1 * nsPerS }) := by
  simp [execTcpConnectionLoss, when, hst, hwait]

theorem execTcpRetry_due (hst : (s.conn entry).st = 3) (hdue : (s.conn entry).retryAt ≤ s.now) :
    execTcpRetry entry s = .next (s.openConn entry) := by
  simp [execTcpRetry, when, hst, hdue]

end

section
variable {s : State} {p : Parsed} {ps : List Parsed} {seq ack : BitVec 32} {payload : List Byte} {frames : List C37}

theorem execTcpSegment_inOrder {buf : List Byte} {fs : List (List Byte)} (hparsed : s.ing.parsed = p :: ps)
    (hbody : p.frame.body = .tcp seq ack payload frames) :
    let w := s.withParsed ps
    let k := (w.conn p.entry).acked ack.toNat
    k.st = 2 → seq.toNat = k.next →
    tcpFrames (if (w.act.tab 1 p.entry).bitsAt 3 0 2 = 0 then 0 else 17) (k.buf ++ payload).length (k.buf ++ payload) = (fs, buf) →
    execTcpSegment s = .next ((fs.foldl (fun s b => s.tcpFrame p frames b) (w.setConn p.entry
      { k with next := (k.next + payload.length) % 2 ^ 32, buf })).sendTcp p.entry 1 0) := by
  intro w k hst hseq hframes
  simp only [w, k] at hst hseq hframes ⊢
  simp only [execTcpSegment, State.takeParsed_head hparsed, hbody, hst, hseq, hframes, ne_eq, not_true_eq_false, if_false]

theorem execTcpSegment_outOfOrder (hparsed : s.ing.parsed = p :: ps)
    (hbody : p.frame.body = .tcp seq ack payload frames) :
    let w := s.withParsed ps
    let k := (w.conn p.entry).acked ack.toNat
    k.st = 2 → seq.toNat ≠ k.next →
    execTcpSegment s = .next (((w.setConn p.entry k).bump .ing C.ING_TCP_OOO p.entry).sendTcp p.entry 1 0) := by
  intro w k hst hseq
  simp only [w, k] at hst hseq ⊢
  simp [execTcpSegment, State.takeParsed_head hparsed, hbody, hst, hseq]

end

/-! ## Configuration and command frames (R97, R112, R259) -/

section
variable {s v : State} {p : Parsed} {ps : List Parsed} {m : C37} {o : Nat} {r : Rec}

/-- R112: with FW_STAGE 1, firmware stages a CFG-2 frame of an entry with AUTOCFG 1. -/
theorem execCfgFrame_staged {info : CfgInfo} (hparsed : s.ing.parsed = p :: ps) (hbody : p.frame.body = .c37 m)
    (htyp : m.typ = .cfg2) (hcfg : m.cfg = some info) (hchk : m.chkOk = true)
    (hstage : (s.withParsed ps).cfOn Reg.ING_CTL_FW_STAGE = true) (hentry : p.entry < noEntry)
    (hauto : ((s.withParsed ps).act.tab 1 p.entry).bitAt 0 6 = true) :
    execCfgFrame s = .next ((s.withParsed ps).stageCfg p.entry info false false) := by
  have hcfg2 : (C37Type.cfg2 == C37Type.cfg3) = false := rfl
  simp [execCfgFrame, State.takeParsed_head hparsed, hbody, htyp, hcfg, hchk, hstage, hentry, hauto, hcfg2]

/-- R259: outside a pair, an on command turns on the output that it addresses. -/
theorem execC37118CmdFrame_turnsOn (hparsed : s.ing.parsed = p :: ps) (hbody : p.frame.body = .c37 m)
    (htyp : m.typ = .command) (haddr : (s.withParsed ps).addressed p.port p.frame m = some (o, r))
    (htrailer : (s.withParsed ps).cmdTrailer r m = (true, v)) (hcmd : m.cmd = 2) :
    let u := (v.bump .pub C.PUB_CMD_RX).freeCells ⟨p.port, none, p.ts, p.cells, p.frame⟩
    u.pairMode = false → execC37118CmdFrame s = .next (u.turn o true) := by
  intro u hpair
  simp only [u] at hpair ⊢
  simp [execC37118CmdFrame, State.takeParsed_head hparsed, hbody, htyp, haddr, htrailer, hcmd, hpair]

/-- R259: a command frame whose trailer does not verify is rejected. -/
theorem execC37118CmdFrame_rejected (hparsed : s.ing.parsed = p :: ps) (hbody : p.frame.body = .c37 m)
    (htyp : m.typ = .command) (haddr : (s.withParsed ps).addressed p.port p.frame m = some (o, r))
    (htrailer : (s.withParsed ps).cmdTrailer r m = (false, v)) :
    execC37118CmdFrame s =
      .next ((v.freeCells ⟨p.port, none, p.ts, p.cells, p.frame⟩).bump .pub C.PUB_CMD_REJECTED) := by
  simp [execC37118CmdFrame, State.takeParsed_head hparsed, hbody, htyp, haddr, htrailer]

end

/-- Settles O45, one lemma for each command under the conditions of its clause. -/
theorem ingestControlCompletes : Obligations.IngestControlCompletes := by
  unfold Obligations.IngestControlCompletes
  intro i rest c e entry next p ps m info seq ack payload buf frames fs n o r s v
  refine ⟨?discarded, ?matched, ?unmatched, ?established, ?lost, ?retry, ?inOrder, ?outOfOrder, ?staged, ?turnsOn, ?rejected⟩
  case discarded => exact fun hqueue hfail => execIngParse_transportFails hqueue hfail
  case matched => exact fun _ hqueue hpass hbody hreader hports => execIngParse_svMatched hqueue hpass hbody hreader hports
  case unmatched => exact fun hqueue hpass hbody => execIngParse_rawUnmatched hqueue hpass hbody
  case established =>
    intro hst z
    have hz := execTcpEstablished_connecting hst next
    exact ⟨fun hauto => hz.trans (by rw [if_neg (ne_true_of_eq_false hauto)]), fun hauto => hz.trans (by rw [if_pos hauto])⟩
  case lost => exact fun hst hwait => execTcpConnectionLoss_first hst hwait
  case retry => exact fun hst hdue => execTcpRetry_due hst hdue
  case inOrder => exact fun hparsed hbody hst hseq hframes => execTcpSegment_inOrder hparsed hbody hst hseq hframes
  case outOfOrder => exact fun hparsed hbody hst hseq => execTcpSegment_outOfOrder hparsed hbody hst hseq
  case staged =>
    exact fun hparsed hbody htyp hcfg hchk hstage hentry hauto =>
      execCfgFrame_staged hparsed hbody htyp hcfg hchk hstage hentry hauto
  case turnsOn =>
    exact fun hparsed hbody htyp haddr htrailer hcmd hpair =>
      execC37118CmdFrame_turnsOn hparsed hbody htyp haddr htrailer hcmd hpair
  case rejected =>
    exact fun hparsed hbody htyp haddr htrailer => execC37118CmdFrame_rejected hparsed hbody htyp haddr htrailer

/-! ## C37.118.2 data frames (R97 to R100, R107 to R111) -/

/-- The time of a data frame `m` as its entry's TIME_BASE gives it (R98). -/
def State.c37Raw (u : State) (p : Parsed) (m : C37) : Instant := u.c37Instant (((u.parseCfg p).tab 1 p.entry).at 60 4) m

/-- The grid instant of a data frame `m` (R98). -/
def State.c37Grid (u : State) (p : Parsed) (m : C37) : Instant := snap (((u.parseCfg p).tab 1 p.entry).at 40 2) (u.c37Raw p m)

/-- The data frame `m`, parsed as `p`, passes the checks that come before that of its position, in their order; its
authentication gives quality `q`. -/
structure State.C37Passes (u : State) (p : Parsed) (m : C37) (q : Nat) : Prop where
  sound : m.sound = true
  size : m.framesize = ((u.parseCfg p).tab 1 p.entry).at 72 2
  blocks : m.blocks.length = ((u.parseCfg p).tab 1 p.entry).at 46 1
  fit : blocksFit (u.parseCfg p) p.entry m.blocks = true
  auth : u.endAuth (((u.parseCfg p).tab 1 p.entry).bitsAt 3 0 2) p.key m.iv m.bytes m.tag = .ok q
  onGrid : (if u.c37Grid p m ≤ u.c37Raw p m then u.c37Raw p m - u.c37Grid p m else u.c37Grid p m - u.c37Raw p m) ≤
    (u.parseCfg p).fld Reg.ING_CTL_GRID_TOL_US * 1000
  notFuture : u.tooFar (u.c37Grid p m) = false

section
variable {s w z : State} {p : Parsed} {ps : List Parsed} {m : C37}

theorem execC37118DataFrame_unsound (hparsed : s.ing.parsed = p :: ps) (hbody : p.frame.body = .c37 m) (htyp : m.typ = .data)
    (hsound : m.sound = false) :
    execC37118DataFrame s = .next ((s.withParsed ps).discard (some p.entry) C.ING_PARSE_ERR) := by
  simp [execC37118DataFrame, State.takeParsed_head hparsed, hbody, htyp, hsound]

/-- A frame that passes, at a position not yet seen and without a fault of its time, hands its blocks on; the first one with
STAT bit 10 asks for the configuration. -/
theorem execC37118DataFrame_passes {q : Nat} {first : Bool} (hparsed : s.ing.parsed = p :: ps)
    (hbody : p.frame.body = .c37 m) (htyp : m.typ = .data) (hpass : (s.withParsed ps).C37Passes p m q) :
    let u := s.withParsed ps
    let r := (u.parseCfg p).tab 1 p.entry
    u.fresh p.entry (r.at 40 2) (u.c37Grid p m) (r.bitsAt 3 0 2 != 0) = (true, w) →
    w.tqFault (r.bitsAt 47 0 4) (u.c37Grid p m) m.tqFlags.toNat = false →
    m.blocks.any (fun b => bitOf b.stat.toNat 13) = false →
    State.c37Blocks (u.parseCfg p) p (u.c37Grid p m) q false w p.entry (r.bitsAt 48 0 17) m.blocks = (first, z) →
    execC37118DataFrame s = .next (if first then z.autoCfg p.entry else z) := by
  intro u r hfresh hfault hclean hblocks
  obtain ⟨hsound, hsize, hlen, hfit, hauth, hgrid, hfuture⟩ := hpass
  simp only [u, r, State.c37Grid, State.c37Raw] at hfresh hfault hblocks hfuture
  simp only [execC37118DataFrame, State.takeParsed_head hparsed, hbody, htyp, hsound, hsize, hlen, hfit, hauth,
    hfuture, hfresh, hfault, hclean, hblocks, beq_self_eq_true, Bool.not_true, Bool.false_eq_true, Bool.or_false, ne_eq,
    not_true_eq_false, or_false, if_false]
  exact if_neg (Nat.not_lt.mpr hgrid)

end

/-! ## Sampled values (R103, R104) -/

/-- The ASDUs of a frame hand their samples on in turn; some sample accepted counts the frame. -/
theorem execSvFrame_handsOn {s z : State} {p : Parsed} {ps : List Parsed} {v : SvFrame} {got : Bool}
    (hparsed : s.ing.parsed = p :: ps) (hbody : p.frame.body = .sv v) :
    let u := s.withParsed ps
    let c := u.parseCfg p
    let r := c.tab 1 p.entry
    v.noAsdu = r.bitsAt 45 0 4 → v.asdus.length = v.noAsdu → (∀ a ∈ v.asdus, a.values.length = r.at 54 1) →
    r.at 32 4 = crc32 v.svId → r.at 56 4 = v.confRev.toNat →
    v.asdus.foldl (fun (x : Bool × State) a => ((x.1 || (x.2.asdu c p v.simulated a).1), (x.2.asdu c p v.simulated a).2))
      (false, u.setEnt p.entry { u.ent p.entry with mismatch := false }) = (got, z) →
    execSvFrame s =
      .next (if got then z.setEnt p.entry { z.ent p.entry with accepted := ((z.ent p.entry).accepted + 1) % 2 ^ 32 } else z) := by
  intro u c r hasdus hlen hshape hname hrev hfold
  have hvalues : v.asdus.any (fun a => a.values.length ≠ r.at 54 1) = false := by simpa using hshape
  simp only [u, c, r] at hasdus hvalues hname hrev hfold
  simp only [execSvFrame, State.takeParsed_head hparsed, hbody, hlen, ← hasdus, hvalues, hname, hrev, hfold, ne_eq,
    not_true_eq_false, Bool.false_eq_true, or_false, and_false, if_false]

/-! ## GOOSE and IEC 61850-90-5 (R101, R102, R105, R106) -/

section
variable {s : State} {p : Parsed} {ps : List Parsed} {x : Spdu} {g : GoosePdu}

theorem execGooseFrame_taken (hparsed : s.ing.parsed = p :: ps) (hbody : p.frame.body = .goose g) :
    execGooseFrame s = .next ((s.withParsed ps).goose ((s.withParsed ps).parseCfg p) p g (2 ^ 8)) := by
  simp [execGooseFrame, State.takeParsed_head hparsed, hbody]

/-- An SPDU of an entry without AUTH passes with quality bit 8 and hands its GOOSE message on. -/
theorem execIec905Spdu_goose {q : Nat} (hparsed : s.ing.parsed = p :: ps) (hbody : p.frame.body = .spdu x)
    (hone : x.nApdus = 1) (hplain : x.encrypted = false)
    (halg : x.sigAlg = (((s.withParsed ps).parseCfg p).tab 1 p.entry).bitsAt 3 0 2)
    (hnone : (((s.withParsed ps).parseCfg p).tab 1 p.entry).bitsAt 3 0 2 = 0) (hsession : x.sessionId ≠ 0xA1#8)
    (hapdu : x.apdu = .goose g) (hauth : (s.withParsed ps).endAuth 0 p.key [] x.bytes x.tag = .ok q) :
    execIec905Spdu s = .next ((s.withParsed ps).goose ((s.withParsed ps).parseCfg p) p g q) := by
  simp [execIec905Spdu, State.takeParsed_head hparsed, hbody, hone, hplain, halg, hnone,
    beq_eq_false_iff_ne.mpr hsession, hapdu, hauth]

theorem execIec905Spdu_encrypted (hparsed : s.ing.parsed = p :: ps) (hbody : p.frame.body = .spdu x)
    (hone : x.nApdus = 1) (henc : x.encrypted = true) :
    execIec905Spdu s = .next ((s.withParsed ps).discard (some p.entry) C.ING_ENCRYPTED) := by
  simp [execIec905Spdu, State.takeParsed_head hparsed, hbody, hone, henc]

end

/-- R106: the last values are handed on as INVALID when timeAllowedToLive is over. -/
theorem execGooseTtlExpiry_expired {s : State} {entry : Fin 8192} {st sq : Nat} {exp : Instant} {last : Meas}
    (hgoose : (s.ent entry).goose = some ⟨st, sq, some exp, last⟩) (hexp : exp ≤ s.now) :
    let z := s.setEnt entry { s.ent entry with goose := some ⟨st, sq, none, last⟩, flags := (s.ent entry).flags ||| 1 }
    execGooseTtlExpiry entry s =
      .next ((z.toStitcher { last with instant := exp, quality := last.quality ||| 1 }).ingEvent 4 entry) := by
  simp [execGooseTtlExpiry, when, hgoose, hexp]

/-- Settles O46, one lemma for each command under the conditions of its clause. -/
theorem ingestDataCompletes : Obligations.IngestDataCompletes := by
  unfold Obligations.IngestDataCompletes
  intro p ps m v g x q st sq exp last first got entry s w z
  refine ⟨?data, ?unsound, ?samples, ?goose, ?spdu, ?encrypted, ?expired⟩
  case data =>
    intro hparsed hbody htyp hsound hsize hlen hfit hauth hgrid hfuture hfresh hfault hclean hblocks
    exact execC37118DataFrame_passes hparsed hbody htyp ⟨hsound, hsize, hlen, hfit, hauth, hgrid, hfuture⟩
      hfresh hfault hclean hblocks
  case unsound => exact fun hparsed hbody htyp hsound => execC37118DataFrame_unsound hparsed hbody htyp hsound
  case samples =>
    exact fun hparsed hbody hasdus hlen hshape hname hrev hfold =>
      execSvFrame_handsOn hparsed hbody hasdus hlen hshape hname hrev hfold
  case goose => exact fun hparsed hbody => execGooseFrame_taken hparsed hbody
  case spdu =>
    exact fun hparsed hbody hone hplain halg hnone hsession hapdu hauth =>
      execIec905Spdu_goose hparsed hbody hone hplain halg hnone hsession hapdu hauth
  case encrypted => exact fun hparsed hbody hone henc => execIec905Spdu_encrypted hparsed hbody hone henc
  case expired => exact fun hgoose hexp => execGooseTtlExpiry_expired hgoose hexp

end Sys2Proof.Machine

namespace Sys2Proof.Machine
open Sys2Proof

/-! ## Phasor estimation (R117 to R128) -/

/-- R122 to R124: with no started window on record no sample is late. The sample joins those held, which are kept 1 s (log entry
43), and every window that it completes starts. -/
theorem execPheSample_held {s : State} {p : PheSmp} {rest : List PheSmp} {t0 : Instant} (hinbox : s.phe.inbox = p :: rest)
    (hchan : p.chan < 1024) :
    let u := State.bump { s with phe := { s.phe with inbox := rest } } .phe C.PHE_SAMPLES p.chan
    let x := u.pheChan p.chan
    let v := u.setPheChan p.chan { x with samples := x.samples.filter (fun q => decide (u.now ≤ q.instant + nsPerS)) ++ [p] }
    x.done = [] → x.next = some t0 →
    execPheSample s = .next (((v.pheCandidates p.chan p.pos 1024 t0).filter (fun t => v.pheActive p.chan t)).foldl
      (fun s t => if s.pheComplete p.chan t then s.pheStart p.chan t else s) v) := by
  intro u x v hdone hnext
  simp only [u, x] at hdone hnext
  simp only [execPheSample, hinbox, if_neg (Nat.not_le.mpr hchan), hdone, hnext, List.any_nil, Bool.false_eq_true, if_false,
    List.contains_nil, Bool.not_false, Bool.true_and, u, x, v]

/-- R123: the wait after the last sample instant of the earliest window is over. -/
theorem execPheWaitExpiry_due {s : State} {ch : Fin 1024} {t : Instant} {rate len : Nat} {a : Int}
    (hnext : (s.pheChan ch).next = some t) (hactive : s.pheActive ch t = true) (hwindow : s.pheWindow ch t = (rate, len, a))
    (hdue : (2 * (a + len - 1).toNat * nsPerS + rate) / (2 * rate) + s.cf Reg.PHE_CTL_WAIT_US * 1000 ≤ s.now) :
    execPheWaitExpiry ch s = .next (s.pheStart ch t) := by
  simp only [execPheWaitExpiry, when, hnext, hactive, hwindow, hdue, Bool.not_true, Bool.false_eq_true, if_false, decide_true,
    if_true]

/-- R117, R128: the oldest computation leaves the channel and ends with its output or without one. -/
theorem execPheOutput_ends {s : State} {ch : Fin 1024} {run : PheRun} {runs : List PheRun}
    (hruns : (s.pheChan ch).runs = run :: runs) (agree : Bool) :
    execPheOutput ch agree s = .next ((s.popRun ch).pheFinish ch run agree) := by
  simp only [execPheOutput, hruns]

/-- R128: a result missing 20 us after the start counts as a mismatch. -/
theorem execPheDualTimeout_missing {s : State} {ch : Fin 1024} {run : PheRun} {runs : List PheRun}
    (hruns : (s.pheChan ch).runs = run :: runs) (hdual : (s.cfgAt run.t).fld Reg.PHE_CTL_DUAL = 1)
    (hdue : run.start + 20000 ≤ s.now) : execPheDualTimeout ch s = .next ((s.popRun ch).pheMismatch ch run.t) := by
  simp [execPheDualTimeout, when, hruns, hdual, hdue]

/-- Settles O47, one lemma for each command under the conditions of its clause. -/
theorem phasorCommandsComplete : Obligations.PhasorCommandsComplete := by
  unfold Obligations.PhasorCommandsComplete
  intro p rest ch agree run runs t t0 rate len a s u x v
  refine ⟨?sample, ?waitExpiry, ?output, ?dualTimeout⟩
  case sample => exact fun hinbox hchan hdone hnext => execPheSample_held hinbox hchan hdone hnext
  case waitExpiry => exact fun hnext hactive hwindow hdue => execPheWaitExpiry_due hnext hactive hwindow hdue
  case output => exact fun hruns => execPheOutput_ends hruns agree
  case dualTimeout => exact fun hruns hdual hdue => execPheDualTimeout_missing hruns hdual hdue

end Sys2Proof.Machine

/-! # Proofs of spec/07: slices open, take measurements, release their revisions and close -/
namespace Sys2Proof.Machine
open Sys2Proof

/-! ## Slices open and take measurements (R133, R140 to R143) -/

/-- R133: a slice opens when its opening is due. -/
theorem execSliceOpen_due {s : State} (hdue : s.openDue = true) : execSliceOpen s = .next s.openNext := by
  rw [execSliceOpen, hdue, when_true]

/-- R140: the oldest measurement handed on leaves the inbox and reaches its place. -/
theorem execMeasurementPlace_oldest {s : State} {m : Meas} {rest : List Meas} (hinbox : s.stch.inbox = m :: rest) :
    execMeasurementPlace s = .next (State.place { s with stch := { s.stch with inbox := rest } } m) := by
  simp only [execMeasurementPlace, hinbox]

/-! ## Revision 0 (R137 to R139) -/

/-- R137: the deadline is noted on the first OPEN slice where it is reached and a stream is missing, whatever slices follow. -/
theorem execSliceDeadline_first {s : State} {x : Slice} {later : List Slice} (hopen : s.openSlices = x :: later)
    (hnew : x.deadline = false) (hdue : s.deadlineOf x ≤ s.now) (hreached : x.instant ≤ s.now)
    (hmissing : (s.expectedIn x).all (s.presentIn x) = false) :
    execSliceDeadline s = .next (s.setSlice { x with deadline := true }) := by
  rw [execSliceDeadline, hopen, List.find?_cons_of_pos (by simp [hnew, hdue, hreached, hmissing])]

/-- R138: the first OPEN slice is released when it meets its conditions. -/
theorem execRevision0Release_ready {s : State} {x : Slice} {later : List Slice} (hopen : s.openSlices = x :: later)
    (hready : s.sliceReady x = true) : execRevision0Release s = .next (s.releaseOpen x) := by
  simp only [execRevision0Release, State.releaseFirst, hopen, if_pos hready]

/-- R138: release is in instant order, so that a first OPEN slice that is not ready holds the later ones back. -/
theorem execRevision0Release_waits {s : State} {x : Slice} {later : List Slice} (hopen : s.openSlices = x :: later)
    (hready : s.sliceReady x = false) : execRevision0Release s = .next s := by
  simp only [execRevision0Release, State.releaseFirst, hopen, if_neg (Bool.eq_false_iff.mp hready)]

/-! ## Later revisions and the horizon (R144 to R147) -/

section
variable {s : State} {x : Slice} {later : List Slice}

/-- R144: the gathering time of the first slice is over. -/
theorem execRevGatherExpiry_first (hslices : s.stch.slices = x :: later) (hphase : x.phase = .gathering)
    (hnew : x.gatherDue = false) (hdue : x.gatherAt + 1000 * (s.sliceCfg x).fld Reg.STCH_CTL2_REV_GATHER_US ≤ s.now) :
    execRevGatherExpiry s = .next (s.setSlice { x with gatherDue := true }) := by
  rw [execRevGatherExpiry, hslices, List.find?_cons_of_pos (by simp [hphase, hnew, hdue])]

/-- R144, R145: with its gathering time over, the first slice releases its next revision unless that waits for space. -/
theorem execRevisionRelease_first (hslices : s.stch.slices = x :: later) (hphase : x.phase = .gathering)
    (hfree : x.stalled = false) (hdue : x.gatherDue = true) : execRevisionRelease s = .next (s.releaseNext x) := by
  rw [execRevisionRelease, hslices, List.find?_cons_of_pos (by simp [hphase, hfree, hdue])]

/-- R146, R147: the first slice, past OPEN, reaches its horizon. -/
theorem execSliceHorizon_first (hslices : s.stch.slices = x :: later) (hphase : x.phase ≠ .opened)
    (hdue : s.horizonOf x ≤ s.now) : execSliceHorizon s = .next (s.finish x) := by
  rw [execSliceHorizon, hslices, List.find?_cons_of_pos (by simp [hphase, hdue])]

/-- R151: with room for it, the stalled release of the first slice proceeds: revision 0 of an OPEN slice, the next
revision of any other. -/
theorem execStoreStallClear_first (hslices : s.stch.slices = x :: later) (hstalled : x.stalled = true)
    (hroom : (makeRoom s.revFrozen s.storeCap (s.sliceCfg x).sliceLength s.stch.store.length s.stch.store).isSome = true) :
    execStoreStallClear s = .next (if x.phase = .opened then s.releaseOpen x else s.releaseNext x) := by
  simp only [execStoreStallClear, hslices, List.find?_cons_of_pos hstalled, hroom, when_true]

end

/-- Settles O48, one lemma for each command under the conditions of its clause; a stalled release by the slice's phase. -/
theorem stitcherCommandsComplete : Obligations.StitcherCommandsComplete := by
  unfold Obligations.StitcherCommandsComplete
  intro m rest x later s
  refine ⟨?opens, ?place, ?deadline, ?ready, ?waits, ?gathered, ?release, ?horizon, ?stalledOpen, ?stalledGathering⟩
  case opens => exact fun hdue => execSliceOpen_due hdue
  case place => exact fun hinbox => execMeasurementPlace_oldest hinbox
  case deadline => exact fun hopen hnew hdue hreached hmissing => execSliceDeadline_first hopen hnew hdue hreached hmissing
  case ready => exact fun hopen hready => execRevision0Release_ready hopen hready
  case waits => exact fun hopen hready => execRevision0Release_waits hopen hready
  case gathered => exact fun hslices hphase hnew hdue => execRevGatherExpiry_first hslices hphase hnew hdue
  case release => exact fun hslices hphase hfree hdue => execRevisionRelease_first hslices hphase hfree hdue
  case horizon => exact fun hslices hphase hdue => execSliceHorizon_first hslices (by simp [hphase]) hdue
  case stalledOpen =>
    intro hslices hstalled hphase hroom
    have hclear := execStoreStallClear_first hslices hstalled hroom
    rwa [if_pos hphase] at hclear
  case stalledGathering =>
    intro hslices hstalled hphase hroom
    have hclear := execStoreStallClear_first hslices hstalled hroom
    rwa [if_neg (by simp [hphase])] at hclear

end Sys2Proof.Machine

/-! # Proofs of spec/09: samples and revisions enter every set, and updates end with their results -/
namespace Sys2Proof.Machine
open Sys2Proof

/-! ## Samples and revisions that wait for the tracker (R180 to R183, R189, R190) -/

section
variable {s : State} {w : Work}

/-- The only waiting revision, when it waits for the tracker, is the next one of the tracker. -/
theorem find_osc_only (hwho : w.who = .osc) : [w].find? (fun v => v.who == .osc) = some w :=
  List.find?_cons_of_pos (by simp [hwho])

/-- R180: the only waiting revision, a revision 0 for the tracker, leaves the queue and enters every set that runs. -/
theorem execOscSample_only (hwork : s.stch.work = [w]) (hwho : w.who = .osc) (hrev : w.rev.rev = 0) :
    execOscSample s = .next ((List.range 16).foldl (State.oscTake (s.cfgRev w.rev) w.rev)
      { s with stch := { s.stch with work := [] } }) := by
  simp only [execOscSample, hwork, find_osc_only hwho, hrev, ne_eq, not_true, if_false, List.erase_cons_head]

/-- R189: the only waiting revision, a later one for the tracker, leaves the queue and is taken up by every set that runs. -/
theorem execOscRevision_only (hwork : s.stch.work = [w]) (hwho : w.who = .osc) (hrev : w.rev.rev ≠ 0) :
    execOscRevision s = .next ((List.range 16).foldl (State.oscRevise (s.cfgRev w.rev) w.rev)
      { s with stch := { s.stch with work := [] } }) := by
  simp only [execOscRevision, hwork, find_osc_only hwho, if_neg hrev, List.erase_cons_head]

end

/-! ## The end of an update (R184 to R187, R190, R191, R195, R196) -/

/-- `s` once the update in progress of `set` has left it and counted, as `execOscUpdate` begins. -/
def State.endOscRun (s : State) (set : Fin 16) : State :=
  (s.setOsc set { s.oscSet set with run := none }).bump .osc C.OSC_UPDATES set

section
variable {s x y : State} {set : Fin 16} {r : OscRun} {restarted : Bool} {g : OscSet} {modes : List OscMode}

/-- R190, R196: while the set warms up, an update that declares and ends no forced oscillation results in status WARMUP, without
modes. -/
theorem execOscUpdate_warmup (hrun : (s.oscSet set).run = some r)
    (hwarm : (s.endOscRun set).oscWarm (s.cfgOf r.epoch) set r.sample = (true, restarted, x))
    (htrack : (x.oscSet set).track (s.cfgOf r.epoch) set
      ((x.oscSet set).window ((s.cfgOf r.epoch).oscWindow set) r.sample) = ([], [], g)) :
    execOscUpdate set s = .next ((x.setOsc set g).produceOsc ((x.setOsc set g).oscResult (s.cfgOf r.epoch) set 0 r.instant
      r.epoch r.sample r.release 1 restarted false [] g.fos) r.k) := by
  rw [State.endOscRun] at hwarm
  simp only [execOscUpdate, hrun, hwarm, htrack, List.foldl_nil, if_true, ne_eq, one_ne_zero, not_false_iff]

/-- R184 to R187, R195: after warm-up and with a live reference signal, an update that declares and ends no forced oscillation
and leaves every alarm as it was results in status OK with its modes, each with the alarm that holds it. -/
theorem execOscUpdate_modes (hrun : (s.oscSet set).run = some r)
    (hwarm : (s.endOscRun set).oscWarm (s.cfgOf r.epoch) set r.sample = (false, restarted, x))
    (htrack : (x.oscSet set).track (s.cfgOf r.epoch) set
      ((x.oscSet set).window ((s.cfgOf r.epoch).oscWindow set) r.sample) = ([], [], g))
    (href : g.noRef (s.cfgOf r.epoch) set = false)
    (hmodes : (x.setOsc set g).oscModes (s.cfgOf r.epoch) set r.sample true = (modes, y)) :
    let q := y.oscAlarms (s.cfgOf r.epoch) set modes g.fos
    (List.range 64).map q.oscActive = (List.range 64).map y.oscActive →
    execOscUpdate set s = .next (q.produceOsc (q.oscResult (s.cfgOf r.epoch) set 0 r.instant r.epoch r.sample r.release 0
      restarted false (modes.map (fun m => { m with alarm := q.oscHolds (s.cfgOf r.epoch) set m })) g.fos) r.k) := by
  intro q halarms
  rw [State.endOscRun] at hwarm
  simp only [execOscUpdate, hrun, hwarm, htrack, href, hmodes, if_pos halarms, List.foldl_nil, Bool.false_eq_true, if_false,
    ne_eq, not_true, q]

end

/-- Settles O50, one lemma for each command; an update by whether its set is still warming up. -/
theorem modeTrackingCommandsComplete : Obligations.ModeTrackingCommandsComplete := by
  unfold Obligations.ModeTrackingCommandsComplete
  intro w set r s u
  refine ⟨?sample, ?revision, ?warmup, ?modes⟩
  case sample => exact fun hwork hwho hrev => execOscSample_only hwork hwho hrev
  case revision => exact fun hwork hwho hrev => execOscRevision_only hwork hwho hrev
  case warmup => exact fun hrun _ _ hwarm _ htrack => execOscUpdate_warmup hrun hwarm htrack
  case modes =>
    exact fun hrun _ _ hwarm _ htrack href _ _ hmodes halarms => execOscUpdate_modes hrun hwarm htrack href hmodes halarms

end Sys2Proof.Machine

/-! # Proofs of spec/10: rules, clusters, GOOSE repetition, alarm pins, and the comparison of two instances -/
namespace Sys2Proof.Machine
open Sys2Proof

/-! ## Rules and island states (R148, R205 to R214) -/

/-- R148, R205: the only waiting revision, when it waits for the rules and so for no labels, leaves the queue and is evaluated. -/
theorem execRuleEval_only {s : State} {w : Work} (hwork : s.stch.work = [w]) (hwho : w.who = .rules) :
    execRuleEval s = .next (State.evalRules { s with stch := { s.stch with work := [] } } w.rev) := by
  have hnext : [w].find? (fun v => v.who == .rules) = some w := List.find?_cons_of_pos (by simp [hwho])
  have hlabels : [w].any (fun v => v.who == .topo && v.rev.instant == w.rev.instant && v.rev.rev == w.rev.rev) = false := by
    simp [hwho]
  simp only [execRuleEval, hwork, hnext, hlabels, Bool.false_eq_true, if_false, List.erase_cons_head]

/-- R214: the oldest state that has lasted CONF_WIN slices counts and raises event 118. -/
theorem execConfMiss_oldest {s : State} {k : Nat} {ks : List Nat} (hdue : s.isl.confDue = k :: ks) :
    execConfMiss s =
      .next ((State.bump { s with isl := { s.isl with confDue := ks } } .isl C.ISL_CONF_MISS).islEvent 6 (k / 2)) := by
  simp only [execConfMiss, hdue]

/-! ## Re-clustering (R212) -/

/-- R212: re-clustering of the slice that is due starts where none is in progress. -/
theorem execRecluster_due {s : State} {t : Instant} (hdue : s.isl.cluDue = some t) (hidle : s.isl.reclust = none) :
    execRecluster s = .next { s with isl := { s.isl with cluDue := none, reclust := some t } } := by
  simp only [execRecluster, hdue, hidle]

/-- The groups that re-clustering of slice `t` forms, each by its number and its members. -/
def State.clustersAt (s : State) (t : Instant) : List (Nat × List Nat) :=
  let n := (s.cfgAt t).fld Reg.ISL_COH_A_CLU_WIN
  cohComponents ((s.isl.coh.filter (fun x => decide (x.t ≤ t))).take n) n ((s.cfgAt t).fld Reg.ISL_COH_B_DF_COH)

/-- `s` once re-clustering has formed the groups `new`: they wait for the next revision 0, and the re-clustering counts. -/
def State.endRecluster (s : State) (new : List (Nat × List Nat)) : State :=
  State.bump { s with isl := { s.isl with reclust := none, newGroups := some (s.now, new.map (fun g : Nat × List Nat =>
    (⟨g.1, g.2, RuleState.init, 0, 0⟩ : CohGroup))) } } .isl C.ISL_RECLUSTERS

/-- The groups of `new` whose members are those of no present group. -/
def State.changedGroups (s : State) (new : List (Nat × List Nat)) : List (Nat × List Nat) :=
  new.filter (fun g => !s.isl.groups.any (fun o => o.members == g.2))

section
variable {s : State} {t : Instant}

/-- R212: event 119 names the first group that changed. -/
theorem execReclusterDone_changed {h : Nat × List Nat} {hs : List (Nat × List Nat)} (hreclust : s.isl.reclust = some t)
    (hchanged : (s.endRecluster (s.clustersAt t)).changedGroups (s.clustersAt t) = h :: hs) :
    execReclusterDone s = .next ((s.endRecluster (s.clustersAt t)).islEvent 7 h.1) := by
  rw [State.changedGroups, State.endRecluster, State.clustersAt] at hchanged
  simp only [execReclusterDone, hreclust, hchanged, State.endRecluster, State.clustersAt]

/-- R212: no event where the groups are those before. -/
theorem execReclusterDone_unchanged (hreclust : s.isl.reclust = some t)
    (hchanged : (s.endRecluster (s.clustersAt t)).changedGroups (s.clustersAt t) = [])
    (hcount : (s.clustersAt t).length = (s.endRecluster (s.clustersAt t)).isl.groups.length) :
    execReclusterDone s = .next (s.endRecluster (s.clustersAt t)) := by
  rw [State.changedGroups, State.endRecluster, State.clustersAt] at hchanged
  rw [State.endRecluster, State.clustersAt] at hcount
  simp only [execReclusterDone, hreclust, hchanged, hcount, if_true, State.endRecluster, State.clustersAt]

end

/-! ## Alarm pins and GOOSE repetition (R217, R222, R223) -/

/-- R217: a pin whose half-period is over toggles, and its next half-period begins at the end of this one. -/
theorem execAlmOutHalfPeriod_over {s : State} {pin : Fin 16} {a : AlmPin} (hpin : kvGet? s.pins pin = some a)
    (hover : a.edge + a.half ≤ s.now) :
    execAlmOutHalfPeriod pin s =
      .next { s with pins := kvSet s.pins pin { a with level := !a.level, edge := a.edge + a.half } } := by
  simp only [execAlmOutHalfPeriod, hpin, decide_eq_true hover, when_true]

section
variable {s : State} {p : Fin 8} {g : GooseState}

/-- R223: an enabled publisher that is not silent repeats its message when its interval is over. -/
theorem execGooseRepeat_over (hpub : kvGet? s.isl.pubs p = some g) (hmode : s.gooseMode ≠ 0) (hon : s.pubOn p = true)
    (hover : g.next ≤ s.now) : execGooseRepeat p s = .next (s.sendGoose p g) := by
  simp only [execGooseRepeat, hpub, if_neg hmode, hon, decide_eq_true hover, Bool.and_self, when_true]

/-- R222: a silence ends the states of the publishers. -/
theorem execGooseRepeat_silent (hpub : kvGet? s.isl.pubs p = some g) (hmode : s.gooseMode = 0) :
    execGooseRepeat p s = .next s.gooseSilence := by
  simp only [execGooseRepeat, hpub, if_pos hmode]

end

/-! ## The comparison of two instances (R14, R383) -/

section
variable {s : State} {x : Compare} {xs : List Compare}

/-- R14: the oldest comparison leaves the queue, and what the two instances agree on is shown. -/
theorem execSafetyCompare_equal (hcompare : s.isl.compare = x :: xs) (hequal : s.equal x = true) :
    execSafetyCompare true s = .next (State.compared { s with isl := { s.isl with compare := xs } } x) := by
  simp only [execSafetyCompare, hcompare, hequal, Bool.and_self, if_true]

/-- R14: the oldest comparison leaves the queue, and is a mismatch where the engines gave two decisions or where the state
shows a difference. -/
theorem execSafetyCompare_differs {agree : Bool} (hcompare : s.isl.compare = x :: xs)
    (hdiffers : (agree && s.equal x) = false) :
    execSafetyCompare agree s = .next (State.mismatch { s with isl := { s.isl with compare := xs } } x) := by
  simp only [execSafetyCompare, hcompare, hdiffers, Bool.false_eq_true, if_false]

/-- R14: an overdue run of a SAFETY graph is a mismatch of that run, whatever else is late. -/
theorem execSafetyDeadlineMiss_run {r : GRun} (hrun : s.overdue = some r) :
    execSafetyDeadlineMiss s = .next (State.mismatch
      { s with isl := { s.isl with compare := s.isl.compare.erase (.graph r.g r.id) } } (.graph r.g r.id)).schedShow := by
  simp only [execSafetyDeadlineMiss, hrun]

/-- R14, R216: with no graph run and no undecided rules overdue, a late decision at the head of the queue is a mismatch. -/
theorem execSafetyDeadlineMiss_decision (hruns : s.overdue = none) (hrules : s.overdueRules = none)
    (hlate : s.lateDecision = some x) (hcompare : s.isl.compare = x :: xs) :
    execSafetyDeadlineMiss s = .next (State.mismatch { s with isl := { s.isl with compare := xs } } x) := by
  simp only [execSafetyDeadlineMiss, hruns, hrules, hlate, hcompare, List.erase_cons_head]

end

/-- Settles O51, one lemma for each command under the conditions of its clause; a comparison by whether everything agrees. -/
theorem islandingCommandsComplete : Obligations.IslandingCommandsComplete := by
  unfold Obligations.IslandingCommandsComplete
  intro w t k ks p g pin a x xs s u
  refine ⟨?ruleEval, ?recluster, ?reclusterDone, ?confMiss, ?repeats, ?silence, ?halfPeriod, ?agree, ?differ, ?disagree,
    ?lateDecision, ?lateRun⟩
  case ruleEval => exact fun hwork hwho => execRuleEval_only hwork hwho
  case recluster => exact fun hdue hidle => execRecluster_due hdue hidle
  case reclusterDone =>
    exact fun hreclust => ⟨fun _ _ hchanged => execReclusterDone_changed hreclust hchanged,
      fun hchanged hcount => execReclusterDone_unchanged hreclust hchanged hcount⟩
  case confMiss => exact fun hdue => execConfMiss_oldest hdue
  case repeats => exact fun hpub hmode hon hover => execGooseRepeat_over hpub hmode hon hover
  case silence => exact fun hpub hmode => execGooseRepeat_silent hpub hmode
  case halfPeriod => exact fun hpin hover => execAlmOutHalfPeriod_over hpin hover
  case agree => exact fun hcompare hequal => execSafetyCompare_equal hcompare hequal
  case differ => exact fun hcompare hequal => execSafetyCompare_differs hcompare (by rw [hequal, Bool.and_false])
  case disagree => exact fun hcompare => execSafetyCompare_differs hcompare (Bool.false_and _)
  case lateDecision => exact fun hruns hrules hlate hcompare => execSafetyDeadlineMiss_decision hruns hrules hlate hcompare
  case lateRun => exact fun _ hrun => execSafetyDeadlineMiss_run hrun

end Sys2Proof.Machine

/-! # Proofs of spec/11: triggers and calibration, and the channels that record and drain -/
namespace Sys2Proof.Machine
open Sys2Proof

/-! ## Edges on TRIG_IN and XFIRE (R231, R232, R234, R235) -/

/-- R235: trigger `k` at instant `t` reaches every channel. -/
def State.fireAll (s : State) (k : Nat) (t : Instant) : State := s.trigger [⟨t, k, 0, false⟩] (s.trigPoint t)

/-- R231: the instant of an edge on TRIG_IN[n] whose level has persisted for `held` ns, with the input's calibration. -/
def State.tinInstant (s : State) (n : Fin 8) (held : Nat) : Instant :=
  (((s.now - held : Nat) : Int) - signed (s.cf (Reg.CAP_TIN_CAL_NS n)) 16).toNat

/-- R231: `s` with an edge on TRIG_IN[n] at `t` counted and time-stamped. -/
def State.tinSeen (s : State) (n : Fin 8) (t : Instant) : State :=
  (s.bump .cap C.CAP_TIN_EDGES n).wrInstant (Reg.CAP_TIN_TS_S n) (Reg.CAP_TIN_TS_NS n) t

section
variable {s : State} {n : Fin 8} {held : Nat} {t : Instant} {own : Bool}

/-- R231: a selected falling edge that lasted fires as its trigger. -/
theorem execTrigInEdge_falling (hdark : s.dark = false) (hedge : s.cf (Reg.CAP_TIN_EDGE n) = 2)
    (hheld : s.cf (Reg.CAP_TIN_MIN_NS n) ≤ held) :
    execTrigInEdge n false held s = .next ((s.tinSeen n (s.tinInstant n held)).fireAll n (s.tinInstant n held)) := by
  simp only [execTrigInEdge, hdark, hedge, beq_self_eq_true, Bool.or_true, decide_eq_true hheld, Bool.not_false, Bool.and_self, when_true,
    Bool.false_eq_true, if_false, State.fireAll, State.tinSeen, State.tinInstant]

/-- R231, R232: a selected rising edge that lasted is besides taken by a measurement in progress. -/
theorem execTrigInEdge_rising (hdark : s.dark = false) (hedge : s.cf (Reg.CAP_TIN_EDGE n) = 1)
    (hheld : s.cf (Reg.CAP_TIN_MIN_NS n) ≤ held) :
    execTrigInEdge n true held s =
      .next (((s.tinSeen n (s.tinInstant n held)).calEdge n (s.now - held)).fireAll n (s.tinInstant n held)) := by
  simp only [execTrigInEdge, hdark, hedge, beq_self_eq_true, Bool.or_true, decide_eq_true hheld, Bool.not_false, Bool.and_self, when_true,
    if_true, State.fireAll, State.tinSeen, State.tinInstant]

/-- R231: an input with EDGE 0 sees no edge. -/
theorem execTrigInEdge_off {rising : Bool} (hedge : s.cf (Reg.CAP_TIN_EDGE n) = 0) :
    execTrigInEdge n rising held s = .next s := by
  have hselected : ((0 == 3 || 0 == if rising = true then 1 else 2) : Bool) = false := by cases rising <;> decide
  simp only [execTrigInEdge, hedge, hselected, Bool.false_and, when_false]

/-- R234: a rising edge on an idle XFIRE shows the line high for 1 us, counts and fires as trigger 8, with its delay taken off. -/
theorem execXfireEdge_idle (hdark : s.dark = false) (hidle : s.cap.xfire = none) :
    execXfireEdge s = .next (((State.wr { s with cap := { s.cap with xfire := some (s.now + 1000, false) } } Reg.CAP_X_XFIRE_IN 1).bump
      .cap C.CAP_XFIRE_EDGES).fireAll 8 (s.now - s.cf Reg.CAP_X_XFIRE_DLY_NS)) := by
  simp only [execXfireEdge, hidle, hdark, Bool.not_false, Bool.and_self, when_true, State.fireAll]

/-- R234: an edge that begins while this unit drives the line is its own pulse. -/
theorem execXfireEdge_own (hown : s.cap.xfire = some (t, true)) (hdrives : s.now < t) : execXfireEdge s = .next s := by
  simp only [execXfireEdge, hown, decide_eq_true hdrives, Bool.not_true, Bool.false_and, when_false]

/-! ## Ends of pulses and the level at XARM (R234, R253) -/

theorem execXfirePulseEnd_over (hpulse : s.cap.xfire = some (t, own)) (hover : t ≤ s.now) :
    execXfirePulseEnd s = .next (State.wr { s with cap := { s.cap with xfire := none } } Reg.CAP_X_XFIRE_IN 0) := by
  simp only [execXfirePulseEnd, hpulse, decide_eq_true hover, when_true]

theorem execTrigOutPulseEnd_over {k : Fin 4} (hpulse : kvGet? s.cap.tout k = some t) (hover : t ≤ s.now) :
    execTrigOutPulseEnd k s = .next { s with cap := { s.cap with tout := kvDel s.cap.tout k } } := by
  simp only [execTrigOutPulseEnd, hpulse, decide_eq_true hover, when_true]

/-- R234: where this unit is not the master of XARM, it takes whatever level it does not show yet. -/
theorem execXarmChange_follows {level : Bool} (hmaster : s.cfOn Reg.CAP_X_XARM_MASTER = false)
    (hlevel : s.on Reg.CAP_X_XARM_IN ≠ level) : execXarmChange level s = .next (s.xarmChange level) := by
  simp only [execXarmChange, hmaster, Bool.not_false, Bool.true_or, bne_iff_ne.mpr hlevel, Bool.and_self, when_true]

end

/-! ## Calibration (R232) -/

/-- What a state emits at its present instant leaves that instant, so that a series of outputs is timed from the first state. -/
theorem State.foldl_emit_now (f : Instant → Nat → Out) (ps : List Nat) (s : State) :
    ps.foldl (fun z p => z.emit (f z.now p)) s = ps.foldl (fun z p => z.emit (f s.now p)) s := by
  induction ps generalizing s with
  | nil => rfl
  | cons p ps ih => exact ih (s.emit (f s.now p))

/-- R232: `s` with the fields of the CAP_CAL word taken, and BUSY. -/
def State.calBusy (s : State) (word : BitVec 32) : State :=
  ((s.wr Reg.CAP_CAL_OUT (bits word.toNat 24 2)).wr Reg.CAP_CAL_IN_MASK (bits word.toNat 16 8)).wr Reg.CAP_CAL_BUSY 1

/-- R232: a measurement that may start has its 16 pulses on its pin, 10 us apart, and takes the pin from a pulse in progress. -/
theorem execCapCalStart_free {s : State} {word : BitVec 32} (hopen : s.barOpen 0x1500D0 = true)
    (hfree : s.on Reg.CAP_CAL_BUSY = false) :
    let k := bits word.toNat 24 2
    let u := s.calBusy word
    execCapCalStart word s = .next ((List.range 16).foldl (fun z p => z.emit (.trigOut k (u.now + 10000 * p)))
      { u with cap := { u.cap with cal := some (u.now, []), tout := kvDel u.cap.tout k } }) := by
  have hstarts : (!s.barOpen 0x1500D0 || s.on Reg.CAP_CAL_BUSY) = false := by rw [hopen, hfree]; rfl
  simp only [execCapCalStart, hstarts, Bool.false_eq_true, if_false]
  exact congrArg Host.Outcome.next (State.foldl_emit_now (fun i p => .trigOut (bits word.toNat 24 2) (i + 10000 * p)) _ _)

/-- R232: `s` with the result of input `n` written, where the measurement selects it. -/
def State.calResult (s : State) (sums : KV (Int × Nat)) (n : Nat) : State :=
  if bitOf (s.rd Reg.CAP_CAL_IN_MASK) n = false then s
  else if (kvGetD sums n (0, 0)).2 = 2 ^ 16 - 1 then
    (s.wr (Reg.CAP_CAL_RES_DELAY n) ((kvGetD sums n (0, 0)).1 % 2 ^ 24).toNat).wr (Reg.CAP_CAL_RES_VALID n) 1
  else s.wr (Reg.CAP_CAL_RES_VALID n) 0

/-- R232: after the 16 pulses every selected input has its result, and event 135 names the pin. -/
theorem execCapCalDone_over {s : State} {t : Instant} {sums : KV (Int × Nat)} (hcal : s.cap.cal = some (t, sums))
    (hover : t + 160000 ≤ s.now) :
    let y := (List.range 8).foldl (fun z n => z.calResult sums n) s
    execCapCalDone s = .next ((State.wr { y with cap := { y.cap with cal := none } } Reg.CAP_CAL_BUSY 0).capEvent 7
      (s.rd Reg.CAP_CAL_OUT)) := by
  simp only [execCapCalDone, hcal, decide_eq_true hover, when_true, Bool.not_eq_true', State.calResult]

/-- Settles O52, one lemma for each command under the conditions of its clause; an edge on TRIG_IN by its direction, an edge on
XFIRE by whether this unit drives the line. -/
theorem triggerCommandsComplete : Obligations.TriggerCommandsComplete := by
  unfold Obligations.TriggerCommandsComplete
  intro n rising held k word level own t sums s c x
  refine ⟨?falling, ?rising, ?off, ?xfire, ?ownXfire, ?xfireEnd, ?pulseEnd, ?calStart, ?calDone, ?xarm⟩
  case falling => exact fun hdark hedge hheld => execTrigInEdge_falling hdark hedge hheld
  case rising => exact fun hdark hedge hheld => execTrigInEdge_rising hdark hedge hheld
  case off => exact fun hedge => execTrigInEdge_off hedge
  case xfire => exact fun hdark hidle => execXfireEdge_idle hdark hidle
  case ownXfire => exact fun hown hdrives => execXfireEdge_own hown hdrives
  case xfireEnd => exact fun hpulse hover => execXfirePulseEnd_over hpulse hover
  case pulseEnd => exact fun hpulse hover => execTrigOutPulseEnd_over hpulse hover
  case calStart => exact fun hopen hfree => execCapCalStart_free hopen hfree
  case calDone => exact fun hcal hover => execCapCalDone_over hcal hover
  case xarm => exact fun hmaster hlevel => execXarmChange_follows hmaster hlevel

/-! ## The end of a hold-off (R236, R238) -/

section
variable {s : State} {ch : Fin 8} {r : CapRec}

/-- R236, R238: a satisfied hold-off of a channel that is not GUARANTEED, and so keeps no space free, ends with event 134; it waits
for XARM where it has XARM_EN and the level is low. -/
theorem execHoldoffSatisfied_ends (hphase : (s.capChan ch).phase = .holdoff) (hheld : (s.capChan ch).satisfied = true)
    (hguar : (s.capCfg ch).capGuar = false) :
    execHoldoffSatisfied ch s = .next (State.capEvent
      (if ((s.capCfg ch).capXarm && !s.on Reg.CAP_X_XARM_IN) = true then
        s.setCapChan ch { s.capChan ch with phase := .waitXarm } else s.capArmed ch) 6 ch) := by
  simp only [execHoldoffSatisfied, hphase, hheld, hguar, beq_self_eq_true, Bool.true_or, Bool.not_false, Bool.and_self, when_true]

theorem execHoldoffSatisfied_arms (hphase : (s.capChan ch).phase = .holdoff) (hheld : (s.capChan ch).satisfied = true)
    (hguar : (s.capCfg ch).capGuar = false) (hxarm : (s.capCfg ch).capXarm = false) :
    execHoldoffSatisfied ch s = .next ((s.capArmed ch).capEvent 6 ch) := by
  rw [execHoldoffSatisfied_ends hphase hheld hguar, hxarm, Bool.false_and, if_neg Bool.false_ne_true]

theorem execHoldoffSatisfied_waits (hphase : (s.capChan ch).phase = .holdoff) (hheld : (s.capChan ch).satisfied = true)
    (hguar : (s.capCfg ch).capGuar = false) (hxarm : (s.capCfg ch).capXarm = true) (hlow : s.on Reg.CAP_X_XARM_IN = false) :
    execHoldoffSatisfied ch s = .next ((s.setCapChan ch { s.capChan ch with phase := .waitXarm }).capEvent 6 ch) := by
  rw [execHoldoffSatisfied_ends hphase hheld hguar, hxarm, hlow, Bool.not_false, Bool.and_self, if_pos rfl]

/-! ## Copying, and the end of a window (R240) -/

/-- R240: the next slice of a record is copied once it settled and no earlier one of the window is still to come; it may be the last. -/
theorem execCaptureCopy_slice {v : Revision} (hlive : s.on Reg.ERR_STAT_FATAL = false) (hrcd : (s.capChan ch).rcd = some r)
    (hsource : r.cfg.capSource = 0) (hnext : s.nextSliceItem ch = some v) (hsettled : v.instant + r.cfg.capSettle ≤ s.now)
    (hfirst : s.slicesToCome r v.instant = false) :
    execCaptureCopy ch s = .next ((s.capTake ch (8192 * v.instant) (.slice v)).capFinish ch) := by
  simp only [execCaptureCopy, hlive, Bool.false_eq_true, if_false, hrcd, hsource, hnext, decide_eq_true hsettled, hfirst,
    Bool.not_false, Bool.and_self, when_true]

/-- R240: a record of frames completes once its window has passed. -/
theorem execCaptureWindowEnd_frames (hlive : s.on Reg.ERR_STAT_FATAL = false) (hrcd : (s.capChan ch).rcd = some r)
    (hsource : r.cfg.capSource = 2) (hover : r.stop < s.now) :
    execCaptureWindowEnd ch s = .next (s.capComplete ch false false) := by
  simp only [execCaptureWindowEnd, hlive, Bool.false_eq_true, if_false, hrcd, hsource, decide_eq_true hover, when_true]

end

/-! ## The drain (R246, R316) -/

/-- The ring that a record drains to (R246). -/
def CapRec.ring (r : CapRec) : Nat := r.cfg.at 1 1

/-- The buffers that a record needs (R246). -/
def State.capNeed (s : State) (r : CapRec) : Nat := (r.len + s.bufSize r.ring - 1) / s.bufSize r.ring

/-- Channel `c` has its turn to drain `r`, with `rest` behind it, to a capture ring whose channel to the host works (R246). -/
structure State.Drains (s : State) (c : Nat) (r : CapRec) (rest : List CapRec) : Prop where
  live : s.on Reg.ERR_STAT_FATAL = false
  oldest : (s.capChan c).queue = r :: rest
  captures : s.ringIs r.ring 4 = true
  host : s.hostUp = true
  free : s.chanFree r.ring = true
  turn : s.drainer r.ring = some c

/-- The access to host memory for a record of which nothing is drained yet, into `need` buffers (R246). -/
def State.drainDma (s : State) (r : CapRec) (need : Nat) (dma : Dma) : Bool × State :=
  s.dma r.ring 1 true ((s.rd (Reg.HIF_RING_STAT_SQ_HEAD r.ring) + 65536) % 65536) (min need (dma.offset / s.bufSize r.ring + 1))
    (s.bufferAddr r.ring (dma.offset / s.bufSize r.ring)) ⟨dma.offset % s.bufSize r.ring, dma.walk⟩

section
variable {s : State} {ch : Fin 8} {dma : Dma} {r : CapRec} {rest : List CapRec}

/-- R246, R316: the oldest record is discarded where its ring serves no capture. -/
theorem execCaptureDrain_misrouted (hlive : s.on Reg.ERR_STAT_FATAL = false) (holdest : (s.capChan ch).queue = r :: rest)
    (hring : s.ringIs r.ring 4 = false) :
    execCaptureDrain ch dma s = .next ((s.setCapChan ch
      { s.capChan ch with queue := rest, drained := 0, waiting := false }).bump .hif C.HIF_MISROUTED r.ring) := by
  rw [CapRec.ring] at hring ⊢
  simp only [execCaptureDrain, hlive, Bool.false_eq_true, if_false, holdest, hring, Bool.not_false, if_true]

/-- R246: a drain whose ring has no buffer waits. -/
theorem execCaptureDrain_waits (hdrains : s.Drains ch r rest) (hnone : s.buffers r.ring = 0) :
    execCaptureDrain ch dma s = .next (s.drainWaits ch) := by
  obtain ⟨hlive, holdest, hring, hhost, hfree, hturn⟩ := hdrains
  rw [CapRec.ring] at hring hfree hturn hnone
  simp only [execCaptureDrain, hlive, Bool.false_eq_true, if_false, holdest, hring, hhost, hfree, hturn, bne_self_eq_false,
    Bool.not_true, Bool.or_self, hnone, if_true]

/-- R246: a record that its ring's buffers hold whole is complete with the last of them. -/
theorem execCaptureDrain_whole {u : State} (hdrains : s.Drains ch r rest) (hsome : 0 < s.buffers r.ring)
    (hfresh : (s.capChan ch).drained = 0) (hfits : s.capNeed r ≤ s.buffers r.ring)
    (hdma : s.drainDma r (s.capNeed r) dma = (true, u)) :
    let need := s.capNeed r
    let t := (u.takeBuffers r.ring need).setCapChan ch
      { s.capChan ch with queue := rest, drained := 0, waiting := false, sent := (s.capChan ch).sent ++ [r] }
    execCaptureDrain ch dma s =
      .next ((t.emit (.capture r.ring need ch (r.image ch))).complete r.ring (captureCpl ch need r.len)) := by
  obtain ⟨hlive, holdest, hring, hhost, hfree, hturn⟩ := hdrains
  have hbuffers : s.buffers r.ring ≠ 0 := Nat.ne_of_gt hsome
  have hall : min (s.capNeed r) (s.buffers r.ring) = s.capNeed r := Nat.min_eq_left hfits
  rw [State.drainDma] at hdma
  simp only [CapRec.ring, State.capNeed] at hring hfree hturn hbuffers hall hdma ⊢
  simp only [execCaptureDrain, hlive, Bool.false_eq_true, if_false, holdest, hring, hhost, hfree, hturn, bne_self_eq_false,
    Bool.not_true, Bool.or_self, hbuffers, hfresh, Nat.zero_mod, Nat.sub_zero, Nat.zero_add, hall, hdma, Nat.lt_irrefl]

end

/-- Settles O53, one lemma for each command under the conditions of its clause; the drain by what its ring serves and by its
buffers. -/
theorem captureRecordCommandsComplete : Obligations.CaptureRecordCommandsComplete := by
  unfold Obligations.CaptureRecordCommandsComplete
  intro ch dma r rest v s u c x ring need
  refine ⟨?arms, ?waitsXarm, ?copy, ?windowEnd, ?misrouted, ?waits, ?whole⟩
  case arms => exact fun hphase hheld hguar hxarm => execHoldoffSatisfied_arms hphase hheld hguar hxarm
  case waitsXarm => exact fun hphase hheld hguar hxarm hlow => execHoldoffSatisfied_waits hphase hheld hguar hxarm hlow
  case copy => exact fun hlive hrcd hsource hnext hsettled hfirst =>
    execCaptureCopy_slice hlive hrcd hsource hnext hsettled hfirst
  case windowEnd => exact fun hlive hrcd hsource hover => execCaptureWindowEnd_frames hlive hrcd hsource hover
  case misrouted => exact fun hlive holdest hring => execCaptureDrain_misrouted hlive holdest hring
  case waits => exact fun hlive holdest hring hhost hfree hturn hnone =>
    execCaptureDrain_waits ⟨hlive, holdest, hring, hhost, hfree, hturn⟩ hnone
  case whole => exact fun hlive holdest hring hhost hfree hturn hsome hfresh hfits hdma =>
    execCaptureDrain_whole ⟨hlive, holdest, hring, hhost, hfree, hturn⟩ hsome hfresh hfits hdma

end Sys2Proof.Machine

/-! # Proofs of spec/12: revisions framed for the outputs, and items delivered to publication rings -/
namespace Sys2Proof.Machine
open Sys2Proof

/-! ## Frames of the output streams (R255 to R258, R363) -/

section
variable {s : State} {w : Work}

/-- The only waiting revision, when it waits for the outputs, is the next one that is framed. -/
theorem find_outputs_only (hwho : w.who = .outputs) : [w].find? (fun v => v.who == .outputs) = some w :=
  List.find?_cons_of_pos (by simp [hwho])

/-- R255 to R258: where the outputs run, the only waiting revision leaves the queue and is framed for each output that sends it. -/
theorem execOutputFrame_runs (hwork : s.stch.work = [w]) (hwho : w.who = .outputs)
    (hrun : State.outputsRun { s with stch := { s.stch with work := [] } } = true) :
    let c := s.cfgRev w.rev
    let z : State := { s with stch := { s.stch with work := [] } }
    execOutputFrame s = .next (((c.listed 16).filter (fun e => z.outputTakes c e.1 e.2 w.rev)).foldl
      (fun s e => s.sendOutput c e.1 e.2 w.rev) z) := by
  simp only [execOutputFrame, hwork, find_outputs_only hwho, List.erase_cons_head, hrun, Bool.not_true, Bool.false_eq_true,
    if_false]

/-- R363: where the outputs do not run, the only waiting revision leaves the queue and no frame is sent. -/
theorem execOutputFrame_stopped (hwork : s.stch.work = [w]) (hwho : w.who = .outputs)
    (hstop : State.outputsRun { s with stch := { s.stch with work := [] } } = false) :
    execOutputFrame s = .next { s with stch := { s.stch with work := [] } } := by
  simp only [execOutputFrame, hwork, find_outputs_only hwho, List.erase_cons_head, hstop, Bool.not_false, if_true]

end

/-! ## Delivery to host rings (R260, R261, R316) -/

/-- The oldest item whose kind names ring `r` (R260). -/
def State.nextItem (s : State) (r : Nat) : Option PubItem :=
  s.pub.items.find? (fun i => s.cf (Reg.PUB_KIND_RING i.kind) == r)

/-- The buffers of ring `r` that item `i` needs (R260). -/
def State.pubNeed (s : State) (r : Nat) (i : PubItem) : Nat := (i.length + s.bufSize r - 1) / s.bufSize r

/-- The access to host memory that writes item `i` into fresh buffers of ring `r` (R260). -/
def State.pubDma (s : State) (r : Nat) (i : PubItem) (dma : Dma) : Bool × State :=
  s.dma r 1 true (s.rd (Reg.HIF_RING_STAT_SQ_HEAD r)) (min (s.pubNeed r i) (dma.offset / s.bufSize r + 1))
    (s.bufferAddr r (dma.offset / s.bufSize r)) ⟨dma.offset % s.bufSize r, dma.walk⟩

section
variable {s u : State} {ring : Fin 64} {dma : Dma} {i : PubItem}

/-- R261, R316: the oldest item is discarded where its ring is no publication ring. -/
theorem execPubDeliver_misrouted (hnext : s.nextItem ring = some i) (hring : s.ringIs ring 3 = false) :
    execPubDeliver ring dma s = .next ((s.dropItem i).bump .hif C.HIF_MISROUTED ring) := by
  rw [State.nextItem] at hnext
  simp only [execPubDeliver, hnext, hring, Bool.not_false, if_true]

/-- R260, R261: the oldest item goes into fresh buffers that hold it whole; its completion counts the items of its kind dropped
before it, and says OVERFLOW where there are any. -/
theorem execPubDeliver_whole (hnext : s.nextItem ring = some i) (hring : s.ringIs ring 3 = true) (hhost : s.hostUp = true)
    (hfree : s.chanFree ring = true) (hfits : s.pubNeed ring i ≤ s.buffers ring) (hdma : s.pubDma ring i dma = (true, u)) :
    let need := s.pubNeed ring i
    let dropped := kvGetD s.pub.dropped i.kind 0
    execPubDeliver ring dma s = .next (((((u.takeBuffers ring need).takeItem i).bump .pub C.PUB_ITEMS).emit
      (.published ring need i.kind i.body.bytes)).complete ring
      (pubCpl (if dropped = 0 then .ok else .overflow) i.kind need i.length dropped)) := by
  rw [State.nextItem] at hnext
  rw [State.pubDma] at hdma
  simp only [State.pubNeed] at hfits hdma ⊢
  simp only [execPubDeliver, hnext, hring, hhost, hfree, decide_eq_false (Nat.not_lt.mpr hfits), hdma, Bool.not_true,
    Bool.or_self, Bool.false_eq_true, if_false]

end

/-- Settles O54, one lemma for each command under the conditions of its clause; a revision by whether the outputs run, an item by
what its ring serves. -/
theorem publicationCommandsComplete : Obligations.PublicationCommandsComplete := by
  unfold Obligations.PublicationCommandsComplete
  intro w ring dma i s u r c z need dropped
  refine ⟨?runs, ?stopped, ?misrouted, ?whole⟩
  case runs => exact fun hwork hwho hrun => execOutputFrame_runs hwork hwho hrun
  case stopped => exact fun hwork hwho hstop => execOutputFrame_stopped hwork hwho hstop
  case misrouted => exact fun hnext hring => execPubDeliver_misrouted hnext hring
  case whole => exact fun hnext hring hhost hfree hfits hdma => execPubDeliver_whole hnext hring hhost hfree hfits hdma

end Sys2Proof.Machine

/-! # Proofs of spec/17: resynchronisation of a pair, on and off changes of the Active, and time messages -/
namespace Sys2Proof.Machine
open Sys2Proof

/-! ## Resynchronisation (R371) -/

section
variable {s : State}

/-- R371: the Active answers its peer's request with its configuration and the boundary, which it chooses from the instant of the
request (DESIGN CHOICE, notes/assumptions/58.md). -/
theorem execSyncReq_active {unit : Fin 16} (hactive : s.rd Reg.PAIR_STAT_STATE = 4) (hpeer : s.peer = unit.val)
    (hlive : s.on Reg.ERR_STAT_FATAL = false) :
    execSyncReq unit s = .next (s.toPeer 3 (.resync ⟨s.act, s.shd, s.rd Reg.GLB_EPOCH_EPOCH, s.claim, s.rd Reg.PUB_OUT_ON_ON,
      gridFrom s.act.fs (s.now + 5000000)⟩)) := by
  simp only [execSyncReq, hactive, hpeer, hlive, beq_self_eq_true, Bool.not_false, Bool.and_self, when_true]

/-- R371: the syncing unit keeps an image in whose configuration it finds nothing inconsistent. -/
theorem execResyncImage_consistent {image : ResyncImage} (hsync : s.rd Reg.PAIR_STAT_STATE = 2)
    (hgood : firstInc (s.inconsistencies image.act (image.act.look [])) = none) :
    execResyncImage image s = .next { s with pair := { s.pair with resync := some image } } := by
  simp only [execResyncImage, hsync, beq_self_eq_true, when_true, hgood, Option.isSome_none, Bool.false_eq_true, if_false]

/-- R371: the syncing unit refuses an inconsistent image and tries again after 10 s. -/
theorem execResyncImage_inconsistent {image : ResyncImage} (hsync : s.rd Reg.PAIR_STAT_STATE = 2)
    (hbad : firstInc (s.inconsistencies image.act (image.act.look [])) ≠ none) :
    execResyncImage image s = .next ((State.wr { s with pair := { s.pair with retryAt := some (s.now + 10 * nsPerS) } }
      Reg.PAIR_STAT_RESYNC_FAIL 1).pairEvent 11) := by
  simp only [execResyncImage, hsync, beq_self_eq_true, when_true, Option.isSome_iff_ne_none.mpr hbad, if_true]

/-- R371: a unit that still syncs asks again once the instant of its retry has come. -/
theorem execResyncRetry_due {t : Instant} (hretry : s.pair.retryAt = some t) (hsync : s.rd Reg.PAIR_STAT_STATE = 2)
    (hdue : t ≤ s.now) :
    execResyncRetry s = .next (State.toPeer { s with pair := { s.pair with retryAt := none } } 0 .syncReq) := by
  simp only [execResyncRetry, hretry, hsync, beq_self_eq_true, decide_eq_true hdue, Bool.and_self, when_true]

/-- R371: at the boundary of the image it keeps, the syncing unit takes configuration, shadow, epoch and on and off states, and
enters BELAY; a CINCH on which it had diverged ends (DESIGN CHOICE, notes/assumptions/57.md). -/
theorem execResyncBoundary_due {r : ResyncImage} (hkept : s.pair.resync = some r) (hsync : s.rd Reg.PAIR_STAT_STATE = 2)
    (hdue : r.boundary ≤ s.now) :
    let z := (State.memberAbort { s with pair := { s.pair with resync := none } }).switchTo r.act r.epoch r.boundary
    let y := State.setClaim { z with shd := r.shd } (r.claim / 16 + 4095)
    execResyncBoundary s = .next (((y.wr Reg.PUB_OUT_ON_ON r.outOn).goPair 3).pairEvent 10) := by
  simp only [execResyncBoundary, hkept, hsync, beq_self_eq_true, decide_eq_true hdue, Bool.and_self, when_true]

/-! ## On and off changes (R259) -/

/-- R259: a Belay follows an on or off change of the Active. -/
theorem execOnoffForward_belay {o : Fin 64} {on : Bool} (hbelay : s.belay = true) :
    execOnoffForward o on s = .next (s.turn o on) := by
  rw [execOnoffForward, hbelay, when_true]

/-! ## Time messages (R373) -/

/-- R373: 1 ms after its last time message the time master sends the next. -/
theorem execTimeMessageSend_due (hmaster : s.timeMaster = true) (hpairing : s.pairing = true)
    (hdue : s.pair.timeAt + 1000000 ≤ s.now) :
    execTimeMessageSend s =
      .next (State.toUnits { s with pair := { s.pair with timeAt := s.now } } s.partners 1 (.time s.now)) := by
  simp only [execTimeMessageSend, hmaster, hpairing, decide_eq_true hdue, Bool.and_self, when_true]

/-- `s` once it has received a time message now, the `n`-th of consecutive ones (R373). -/
def State.timeCounted (s : State) (n : Nat) : State :=
  { s with tb := { s.tb with refs := { s.tb.refs with hjelMsgs := n, hjelLast := s.now } } }

/-- `s` receives time messages from `unit`, its time master (R373). -/
structure State.TimedBy (s : State) (unit : Fin 16) : Prop where
  pairing : s.pairing = true
  follows : s.timeMaster = false
  other : unit.val ≠ 0
  master : s.timeMasterUnit = unit.val

variable {unit : Fin 16} {offset : Int}

/-- R373: a message of the time master counts on where it is consecutive, counts as the first where it is not, and is measured. -/
theorem execTimeMessage_counted (htimed : s.TimedBy unit) :
    execTimeMessage unit offset s = .next ((s.timeCounted
      (if s.now ≤ s.tb.refs.hjelLast + 1100000 then s.tb.refs.hjelMsgs + 1 else 1)).measured refHJEL offset) := by
  obtain ⟨hpairing, hfollows, hother, hmaster⟩ := htimed
  simp only [execTimeMessage, hpairing, hfollows, bne_iff_ne.mpr hother, hmaster, beq_self_eq_true, Bool.not_false, Bool.and_self,
    when_true, State.timeCounted]

theorem execTimeMessage_consecutive (htimed : s.TimedBy unit) (hsoon : s.now ≤ s.tb.refs.hjelLast + 1100000) :
    execTimeMessage unit offset s = .next ((s.timeCounted (s.tb.refs.hjelMsgs + 1)).measured refHJEL offset) := by
  rw [execTimeMessage_counted htimed, if_pos hsoon]

theorem execTimeMessage_first (htimed : s.TimedBy unit) (hlate : s.tb.refs.hjelLast + 1100000 < s.now) :
    execTimeMessage unit offset s = .next ((s.timeCounted 1).measured refHJEL offset) := by
  rw [execTimeMessage_counted htimed, if_neg (Nat.not_le.mpr hlate)]

end

/-- Settles O59, one lemma for each command under the conditions of its clause; an image by whether it is consistent, a time
message by whether it is consecutive. -/
theorem resynchronisationAndTimeComplete : Obligations.ResynchronisationAndTimeComplete := by
  unfold Obligations.ResynchronisationAndTimeComplete
  intro unit image t o on offset s
  refine ⟨?syncReq, ?consistent, ?inconsistent, ?retry, ?boundary, ?onoff, ?timeSend, ?consecutive, ?first⟩
  case syncReq => exact fun hactive hpeer hlive => execSyncReq_active hactive hpeer hlive
  case consistent => exact fun hsync hgood => execResyncImage_consistent hsync hgood
  case inconsistent => exact fun hsync hbad => execResyncImage_inconsistent hsync hbad
  case retry => exact fun hretry hsync hdue => execResyncRetry_due hretry hsync hdue
  case boundary => exact fun hkept hsync hdue => execResyncBoundary_due hkept hsync hdue
  case onoff => exact fun hbelay => execOnoffForward_belay hbelay
  case timeSend => exact fun hmaster hpairing hdue => execTimeMessageSend_due hmaster hpairing hdue
  case consecutive => exact fun hpairing hfollows hother hmaster hsoon =>
    execTimeMessage_consecutive ⟨hpairing, hfollows, hother, hmaster⟩ hsoon
  case first => exact fun hpairing hfollows hother hmaster hlate =>
    execTimeMessage_first ⟨hpairing, hfollows, hother, hmaster⟩ hlate

end Sys2Proof.Machine

/-! # Proofs of spec/20 and spec/18: block restarts and the proof test of the safe state -/
namespace Sys2Proof.Machine
open Sys2Proof

/-! ## Block restarts (R306, R415, R420) -/

section
variable {s : State} {word : BitVec 32}

/-- R415, R420: a write with GO of an assigned UNIT stops the unit at once, and BUSY shows it until it is done. -/
theorem execBlockRestart_free (hgo : bitOf word.toNat 31 = true) (hfree : s.on Reg.PWR_BLK_STAT_BUSY = false)
    (hunit : restartUnit (word.toNat % 256) = true) :
    let t := State.wr { s with pwr := { s.pwr with armed := false, unit := some (word.toNat % 256) } } Reg.PWR_BLK_STAT_BUSY 1
    execBlockRestart word s = .next (((t.wr Reg.PWR_BLK_STAT_UNIT (word.toNat % 256)).setIdle
      (distinct (s.sched.idle ++ unitQueues (word.toNat % 256)))).stopUnit (word.toNat % 256)) := by
  have hfree' : (s.pwrWrite false).on Reg.PWR_BLK_STAT_BUSY = false := hfree
  simp only [execBlockRestart, hgo, hfree', hunit, Bool.not_true, Bool.false_eq_true, if_false]
  rfl

/-- R420: a write with GO while a restart runs only sets BUSY_WR. -/
theorem execBlockRestart_busy (hgo : bitOf word.toNat 31 = true) (hbusy : s.on Reg.PWR_BLK_STAT_BUSY = true) :
    execBlockRestart word s = .next ((s.pwrWrite false).wr Reg.PWR_BLK_STAT_BUSY_WR 1) := by
  have hbusy' : (s.pwrWrite false).on Reg.PWR_BLK_STAT_BUSY = true := hbusy
  simp only [execBlockRestart, hgo, hbusy', Bool.not_true, Bool.false_eq_true, if_false, if_true]

/-- R306, R420: when the restart of a port is done, BUSY falls and the queues that the port consumes leave idle mode. -/
theorem execBlockRestartDone_port {u : Nat} (hunit : s.pwr.unit = some u) (hport : u < 0x30) :
    execBlockRestartDone s = .next ((State.wr { s with pwr := { s.pwr with unit := none } } Reg.PWR_BLK_STAT_BUSY 0).setIdle
      (s.sched.idle.filter (fun q => !(unitQueues u).contains q))) := by
  have hnotFsl : ¬ 0x30 ≤ u := Nat.not_le.mpr hport
  simp only [execBlockRestartDone, hunit, hnotFsl, false_and, if_false, State.wr_sched]

end

/-! ## SAFE_FORCE (R389) -/

/-- R389: unless the second value follows the first, a write only arms the sequence with the first value or breaks it. -/
theorem execSafeForceWrite_unforced {s : State} {value : BitVec 32} (hopen : s.barOpen 0x1A001C = true)
    (hbroken : ¬ (value = 0xAF5E ∧ s.safety.armed = true)) :
    execSafeForceWrite value s = .next (s.safeWrite (value == 0x5AFE)) := by
  simp only [execSafeForceWrite, hopen, hbroken, Bool.not_true, Bool.false_eq_true, if_false]

/-- Settles O31: a restart by whether another one runs, a write of SAFE_FORCE by whether it completes the sequence. -/
theorem blockRestartAndSafeForceComplete : Obligations.BlockRestartAndSafeForceComplete := by
  unfold Obligations.BlockRestartAndSafeForceComplete
  intro word u s
  refine ⟨?free, ?busy, ?done, ?first, ?second⟩
  case free => exact fun hgo hfree hunit => execBlockRestart_free hgo hfree hunit
  case busy => exact fun hgo hbusy => execBlockRestart_busy hgo hbusy
  case done => exact fun hunit hport => execBlockRestartDone_port hunit hport
  case first => exact fun hopen => execSafeForceWrite_unforced hopen fun hboth => absurd hboth.1 (by decide)
  case second =>
    exact fun hopen hidle => execSafeForceWrite_unforced hopen fun hboth => Bool.false_ne_true (hidle.symm.trans hboth.2)

end Sys2Proof.Machine

/-! # Proofs of spec/13: beacons, frames of sensors, downlinks and the transceiver -/
namespace Sys2Proof.Machine
open Sys2Proof

section
variable {s u : State} {x : Fin 2}

/-! ## Beacons (R270, R281) -/

/-- The next beacon instant of an enabled interface has come (R270). -/
structure State.BeaconDue (s : State) (x : Fin 2) : Prop where
  enabled : s.cfOn (Reg.FSL_CTL_EN x) = true
  reached : s.act.beaconAt x (s.fslIf x).next ≤ s.now

/-- R281: at an instant at which the interface is not able to send, the beacon is missed. -/
theorem execBeacon_unable (hdue : s.BeaconDue x) (hunable : (s.fslWatch1 x).fslAble x = false) :
    execBeacon x s = .next ((s.fslWatch1 x).beaconMissed x (s.fslIf x).next) := by
  obtain ⟨henabled, hreached⟩ := hdue
  simp only [execBeacon, henabled, decide_eq_false (Nat.not_lt.mpr hreached), hunable, Bool.not_true, Bool.or_self, Bool.false_and,
    Bool.false_eq_true, if_false]

/-- R270, R281: an interface that is able to send, missed fewer than two beacons and has not passed the beacon interval sends. -/
theorem execBeacon_able (hdue : s.BeaconDue x) (hable : (s.fslWatch1 x).fslAble x = true)
    (hsoon : (s.fslWatch1 x).now < s.act.beaconAt x (s.fslIf x).next + (s.fslWatch1 x).act.fslBi x)
    (hsteady : ((s.fslWatch1 x).fslIf x).missed < 2) :
    execBeacon x s = .next ((s.fslWatch1 x).sendBeacon x (s.fslIf x).next) := by
  obtain ⟨henabled, hreached⟩ := hdue
  simp only [execBeacon, henabled, decide_eq_false (Nat.not_lt.mpr hreached), hable, decide_eq_true hsoon,
    decide_eq_false (Nat.not_le.mpr hsteady), Bool.not_true, Bool.or_self, Bool.false_and, Bool.not_false, Bool.and_self,
    Bool.false_eq_true, if_false, if_true]

/-! ## Frames of sensors (R268, R269, R274 to R277, R280) -/

section
variable {frame : FslFrame} {n : Nat} {r : Rec}

/-- Interface `x` receives: it is enabled and up, and the device is not deaf (R268, R421). -/
structure State.Hears (s : State) (x : Fin 2) : Prop where
  enabled : s.cfOn (Reg.FSL_CTL_EN x) = true
  up : s.on (Reg.FSL_STAT_IF_UP x) = true
  hearing : s.deaf = false

/-- The instant of a frame's SFD (R274). -/
def State.frameSfd (s : State) (x : Fin 2) (frame : FslFrame) : Instant :=
  s.now - frame.age - s.cf (Reg.FSL_LAT_RX_LAT_NS x)

/-- The configuration under which a frame is read (R274). -/
def State.frameCfg (s : State) (x : Fin 2) (frame : FslFrame) : Cfg := s.cfgAt (s.frameSfd x frame)

/-- A frame that the interface supports names its network and no single device (R275). -/
structure FslFrame.ForNetwork (frame : FslFrame) (c : Cfg) (x : Fin 2) : Prop where
  supported : frame.supported = true
  pan : frame.dstPan.toNat = c.fld (Reg.FSL_ADDR_PAN_ID x)
  undirected : frame.dst = none

/-- A frame is secured as sensor record `r` asks, with the key of its interface and without encryption (R275). -/
structure FslFrame.SecuredFor (frame : FslFrame) (c : Cfg) (x : Fin 2) (r : Rec) : Prop where
  secured : frame.secured = true
  level : r.at 13 1 ≤ frame.level.toNat
  keyMode : frame.keyMode = 1
  keyIdx : frame.keyIdx.toNat = c.fld (Reg.FSL_SEC_KEY_IDX x)
  plain : frame.level.toNat < 4

/-- The MIC of a frame without encryption is the one of its bytes (R275). -/
def FslFrame.MicGood (frame : FslFrame) (r : Rec) (k : KeyUse) : Prop :=
  ccmMic k.key (micSize frame.level.toNat) (fslNonce r.senExt frame.counter.toNat frame.level.toNat) (frame.header ++ frame.body) []
    = frame.mic

/-- R269, R275: a frame of a kind that the interface does not support counts as FOREIGN. -/
theorem execFslFrameReceive_foreign (hhears : s.Hears x) (hforeign : frame.supported = false) :
    execFslFrameReceive x frame s = .next ((s.bump .fsl C.FSL_RX_FRAMES x).bump .fsl C.FSL_FOREIGN x) := by
  obtain ⟨henabled, hup, hhearing⟩ := hhears
  simp only [execFslFrameReceive, henabled, hup, hhearing, hforeign, Bool.not_true, Bool.not_false, Bool.or_self, Bool.true_or,
    Bool.false_eq_true, if_false, if_true]

/-- R275: a frame for the network whose source is no sensor counts as NO_SENSOR. -/
theorem execFslFrameReceive_noSensor (hhears : s.Hears x) (hframe : frame.ForNetwork (s.frameCfg x frame) x)
    (hnone : (s.frameCfg x frame).senMatch x frame.src = none) :
    execFslFrameReceive x frame s = .next ((s.bump .fsl C.FSL_RX_FRAMES x).bump .fsl C.FSL_NO_SENSOR x) := by
  obtain ⟨henabled, hup, hhearing⟩ := hhears
  obtain ⟨hsupported, hpan, hundirected⟩ := hframe
  rw [State.frameCfg, State.frameSfd] at hpan hnone
  simp only [execFslFrameReceive, henabled, hup, hhearing, hsupported, hpan, hundirected, hnone, bne_self_eq_false, Bool.not_true,
    Bool.or_self, Bool.false_eq_true, if_false]

/-- R274 to R277: a data frame of a heard sensor, secured as its record asks, with a usable key, a good MIC and a counter that is
accepted, is noted and its reading goes to ING. -/
theorem execFslFrameReceive_reading {k : KeyUse} {stale : Bool} (hhears : s.Hears x)
    (hframe : frame.ForNetwork (s.frameCfg x frame) x) (hsensor : (s.frameCfg x frame).senMatch x frame.src = some (n, r))
    (hnoAck : frame.ackRequest = false) (hsecured : frame.SecuredFor (s.frameCfg x frame) x r)
    (hkey : (s.bump .fsl C.FSL_RX_FRAMES x).keyBegan ((s.frameCfg x frame).fld (Reg.FSL_SEC_KEY_SLOT x)) 2 useFsl
      ((s.bump .fsl C.FSL_RX_FRAMES x).now - frame.began) = (k, stale, u))
    (husable : k.usable = true) (hmic : frame.MicGood r k)
    (hctr : ctrRule (r.at 20 4) (u.sensor n) frame.counter.toNat frame.dsn.toNat = .accepted) (hheard : (u.sensor n).st = 2)
    (hdata : frame.request = false) :
    let y := (u.setSensor n ⟨2, frame.counter.toNat, frame.dsn.toNat, true, 0⟩).bump .fsl C.FSL_ACCEPTED n
    execFslFrameReceive x frame s = .next (y.fslReading (s.frameCfg x frame) (y.epochAt (s.frameSfd x frame)) x r
      (s.frameSfd x frame) frame.body stale) := by
  obtain ⟨henabled, hup, hhearing⟩ := hhears
  obtain ⟨hsupported, hpan, hundirected⟩ := hframe
  obtain ⟨hsec, hlevel, hmode, hidx, hplain⟩ := hsecured
  rw [State.frameCfg, State.frameSfd] at *
  rw [FslFrame.MicGood] at hmic
  simp only [execFslFrameReceive, henabled, hup, hhearing, hsupported, hpan, hundirected, hsensor, hnoAck, hsec,
    decide_eq_false (Nat.not_lt.mpr hlevel), hmode, hidx, hkey, husable, Nat.not_le.mpr hplain, hmic, hctr, hheard, hdata,
    bne_self_eq_false, Bool.not_true, Bool.or_self, Bool.false_and, Bool.false_eq_true, if_false, if_true]

/-- R280: a sensor in use that stayed silent for its cycles of beacons is shown as silent, with its event. -/
theorem execSensorSilent_due {sensor : Fin 1024} (hused : (s.sensor sensor).st = 2)
    (hwatched : (s.act.tab 17 sensor).at 17 1 ≠ 0)
    (hsilent : (s.act.tab 17 sensor).at 17 1 * 2 ^ (s.act.tab 17 sensor).senCycle ≤ (s.sensor sensor).beacons) :
    execSensorSilent sensor s = .next ((s.setSensor sensor { s.sensor sensor with st := 3 }).fslEvent 2 sensor) := by
  simp only [execSensorSilent, hused, bne_iff_ne.mpr hwatched, decide_eq_true hsilent, beq_self_eq_true, Bool.and_self, when_true]

end

/-! ## Downlinks (R278, R281, R283) -/

section
variable {a : InAir} {d : Downlink}

/-- Interface `x` may send a downlink now: none is in the air, fewer than 200 secured frames went out in the last second, there is a
key, the interface is up and no beacon is near (R278, R281, R283). -/
structure State.DownlinkFree (s : State) (x : Fin 2) : Prop where
  quiet : (s.fslIf x).air = none
  rate : s.fslRate x = true
  secure : s.fslCanSecure x = true
  up : s.on (Reg.FSL_STAT_IF_UP x) = true
  clear : s.fslSilent x = false

/-- What an interface keeps is no part of the time base. -/
@[simp] theorem State.setFslIf_now (s : State) (i : Nat) (f : FslIf) : (s.setFslIf i f).now = s.now := rfl

/-- R278: the oldest payload of the sensor that polled first is sent. -/
theorem execDownlinkSend_free {n ctr : Nat} {later : List Nat} {ds : List Downlink} (hpolled : (s.fslIf x).polled = n :: later)
    (hqueued : s.queuedFor n = d :: ds) (hfree : s.DownlinkFree x) (hctr : s.fslCounter x = (some ctr, u)) :
    let g := u.fslIf x
    let v := u.setFslIf x { g with polled := later, dsn := (g.dsn + 1) % 256, air := some ⟨d, ctr, g.dsn, 0, u.now⟩ }
    execDownlinkSend x s = .next ((v.bump .fsl C.FSL_DL_SENT n).emit (v.dlFrame x ⟨d, ctr, g.dsn, 0, u.now⟩)) := by
  obtain ⟨hquiet, hrate, hsecure, hup, hclear⟩ := hfree
  simp only [execDownlinkSend, hpolled, hqueued, hquiet, hrate, hsecure, hup, hclear, hctr, Option.isSome_none, Bool.not_true,
    Bool.or_self, Bool.false_eq_true, if_false, State.setFslIf_now]

/-- R278: the acknowledgement of the downlink in the air completes its payload, where that is still queued. -/
theorem execDownlinkAckReceive_queued {dsn : BitVec 8} (hair : (s.fslIf x).air = some a) (hdsn : a.dsn = dsn.toNat)
    (hqueued : (s.setFslIf x { s.fslIf x with air := none }).fsl.dls.contains a.dl = true) :
    execDownlinkAckReceive x dsn s = .next ((s.setFslIf x { s.fslIf x with air := none }).dlDone a.dl .ok) := by
  simp only [execDownlinkAckReceive, hair, hdsn, ne_eq, not_true_eq_false, hqueued, if_false, if_true]

/-- The downlink `a` is in the air, its acknowledgement is overdue and the interface may send (R278, R281). -/
structure State.AckOverdue (s : State) (x : Fin 2) (a : InAir) : Prop where
  air : (s.fslIf x).air = some a
  late : a.sent + s.act.ackWait x ≤ s.now
  clear : s.fslSilent x = false

/-- R278: after three retries the payload stays queued for the next poll. -/
theorem execDownlinkAckTimeout_last (hoverdue : s.AckOverdue x a) (hlast : 3 ≤ a.retries) :
    execDownlinkAckTimeout x s = .next (s.setFslIf x { s.fslIf x with air := none }) := by
  obtain ⟨hair, hlate, hclear⟩ := hoverdue
  simp only [execDownlinkAckTimeout, hair, decide_eq_false (Nat.not_lt.mpr hlate), hclear, Nat.not_lt.mpr hlast, false_and,
    Bool.or_self, Bool.false_eq_true, if_false]

/-- R278: a payload that is still queued is sent again, up to three times, in the same frame. -/
theorem execDownlinkAckTimeout_retry (hoverdue : s.AckOverdue x a) (hmore : a.retries < 3)
    (hqueued : s.fsl.dls.contains a.dl = true) :
    let v := s.setFslIf x { s.fslIf x with air := some { a with retries := a.retries + 1, sent := s.now } }
    execDownlinkAckTimeout x s = .next ((v.bump .fsl C.FSL_DL_SENT a.dl.sensor).emit (v.dlFrame x a)) := by
  obtain ⟨hair, hlate, hclear⟩ := hoverdue
  simp only [execDownlinkAckTimeout, hair, decide_eq_false (Nat.not_lt.mpr hlate), hclear, hmore, hqueued, and_self, Bool.or_self,
    Bool.false_eq_true, if_false, if_true]

/-- R278: the only payload queued is discarded when it has been queued for 30 s. -/
theorem execDownlinkExpiry_only (honly : s.fsl.dls = [d]) (hif : senIf d.sensor = x.val) (hold : d.queued + 30 * nsPerS ≤ s.now) :
    execDownlinkExpiry x s =
      .next (((s.dlDone d .degraded).bump .fsl C.FSL_DL_DISCARDED d.sensor).fslEvent 5 d.sensor) := by
  have hfound : [d].find? (fun e => senIf e.sensor == x.val && decide (e.queued + 30 * nsPerS ≤ s.now)) = some d :=
    List.find?_cons_of_pos (by simp only [hif, hold, beq_self_eq_true, decide_true, Bool.and_self])
  simp only [execDownlinkExpiry, honly, hfound]

end

/-! ## The transceiver (R268) -/

/-- R268: the transceiver of an enabled interface is reset and configured anew, and what was in progress is lost. -/
theorem execTransceiverReset_enabled (henabled : s.cfOn (Reg.FSL_CTL_EN x) = true) (alive : Bool) :
    let t := s.setFslIf x { s.fslIf x with air := none, polled := [] }
    execTransceiverReset x alive s =
      .next (((((t.emit (.fslReset x)).fslConfigure x).wrB (Reg.FSL_STAT_IF_UP x) alive).fslEvent 0 x).fslWatch1 x) := by
  simp only [execTransceiverReset, henabled, Bool.not_true, Bool.false_eq_true, if_false]

end

/-- Settles O55, one lemma for each command under the conditions of its clause; a frame by the first of its checks that decides, an
acknowledgement that does not come by the retries that are left. -/
theorem sensorCommandsComplete : Obligations.SensorCommandsComplete := by
  unfold Obligations.SensorCommandsComplete
  intro x frame sensor alive dsn a d ctr n later ds s u f z
  refine ⟨?missed, ?sent, ?foreign, ?noSensor, ?reading, ?silent, ?downlink, ?acked, ?last, ?retry, ?expiry, ?reset⟩
  case missed => exact fun henabled hreached hunable => execBeacon_unable ⟨henabled, hreached⟩ hunable
  case sent => exact fun henabled hreached hable hsoon hsteady hnow =>
    execBeacon_able ⟨henabled, hreached⟩ hable (hnow.symm ▸ hsoon) hsteady
  case foreign => exact fun henabled hup hhearing hforeign => execFslFrameReceive_foreign ⟨henabled, hup, hhearing⟩ hforeign
  case noSensor => exact fun henabled hup hhearing hsupported hpan hundirected hnone =>
    execFslFrameReceive_noSensor ⟨henabled, hup, hhearing⟩ ⟨hsupported, hpan, hundirected⟩ hnone
  case reading =>
    intro henabled hup hhearing hsupported sfd c r k stale v hpan hundirected hsensor hnoAck hsec hlevel hmode hidx hplain hkey
      husable hmic hctr hheard hdata
    exact execFslFrameReceive_reading ⟨henabled, hup, hhearing⟩ ⟨hsupported, hpan, hundirected⟩ hsensor hnoAck
      ⟨hsec, hlevel, hmode, hidx, hplain⟩ hkey husable hmic hctr hheard hdata
  case silent => exact fun hused hwatched hsilent => execSensorSilent_due hused hwatched hsilent
  case downlink => exact fun hpolled hqueued hquiet hrate hsecure hup hclear hctr =>
    execDownlinkSend_free hpolled hqueued ⟨hquiet, hrate, hsecure, hup, hclear⟩ hctr
  case acked => exact fun hair hdsn hqueued => execDownlinkAckReceive_queued hair hdsn hqueued
  case last => exact fun hair hlate hclear hlast => execDownlinkAckTimeout_last ⟨hair, hlate, hclear⟩ hlast
  case retry => exact fun hair hlate hclear hmore hqueued => execDownlinkAckTimeout_retry ⟨hair, hlate, hclear⟩ hmore hqueued
  case expiry => exact fun honly hif hold => execDownlinkExpiry_only honly hif hold
  case reset => exact fun henabled => execTransceiverReset_enabled henabled alive

end Sys2Proof.Machine

/-! # What lasts: the queue of waiting commands and the fuses -/
namespace Sys2Proof.Machine
open Sys2Proof

/-! ## The queue and the fuses, per operation (R398, R400, R433, R443)

No command touches the queue of waiting commands, and the fuses are burned by three commands alone. Both are one fact about every
operation of the model: its `lasting` part is what it was. One lemma `…_lasting` says so per operation, and the lemmas of the
operations that call it use that. -/

/-- What fuses hold: the life-cycle state, the owner root, the device's number, SEC_VER and the revoked keys. -/
structure Fuses where
  lcs : Nat
  owner : Option Nat
  devid : Nat
  secVer : Nat
  revoked : Nat

/-- What outlasts every operation but the burning of a fuse. -/
structure Lasting where
  queue : List Instr
  fuses : Fuses

def KeyState.fuses (k : KeyState) : Fuses := ⟨k.lcs, k.owner, k.devid, k.secVer, k.revoked⟩

def State.lasting (s : State) : Lasting := ⟨s.pending, s.key.fuses⟩

/-- What lasts in the state that a step leaves; a step that leaves no state has nothing. -/
def resultLasting : Result → Option Lasting
  | .next t => some t.lasting
  | _ => none

/-! The proofs `(rfl)` below are in parentheses so that `simp` keeps them as rewriting steps, as those of the clock are. -/

@[simp] theorem State.lasting_eta (s : State) : (⟨s.pending, s.key.fuses⟩ : Lasting) = s.lasting := (rfl)

@[simp] theorem KeyState.fuses_eta (k : KeyState) : (⟨k.lcs, k.owner, k.devid, k.secVer, k.revoked⟩ : Fuses) = k.fuses := (rfl)

@[simp] theorem KeyState.fuses_mk (lcs owner devid secVer revoked a b c d) :
    (KeyState.mk lcs owner devid secVer revoked a b c d).fuses = ⟨lcs, owner, devid, secVer, revoked⟩ := (rfl)

@[simp] theorem State.lasting_mk (pending dev act shd ret glb tb port pair safety key pwr upd err sched fsl ing slots bound
    phe rawSv stch pins lse osc isl cap pub hif xlt freeCtr out) :
    (State.mk pending dev act shd ret glb tb port pair safety key pwr upd err sched fsl ing slots bound
      phe rawSv stch pins lse osc isl cap pub hif xlt freeCtr out).lasting = ⟨pending, key.fuses⟩ := (rfl)

@[simp] theorem State.lasting_ite (c : Prop) [Decidable c] (s t : State) :
    (if c then s else t).lasting = if c then s.lasting else t.lasting :=
  apply_ite _ _ _ _

theorem State.lasting_of_snd_eq {α : Type} {s t : State} {p : α × State} {a : α} (hp : p.2.lasting = s.lasting)
    (h : p = (a, t)) : t.lasting = s.lasting := by
  rw [h] at hp
  exact hp

@[simp] theorem resultLasting_next (t : State) : resultLasting (.next t) = some t.lasting := (rfl)

@[simp] theorem resultLasting_ite (c : Prop) [Decidable c] (r q : Result) :
    resultLasting (if c then r else q) = if c then resultLasting r else resultLasting q :=
  apply_ite _ _ _ _

@[simp] theorem resultLasting_when (g : Bool) (s t : State) :
    resultLasting (when g s t) = some (if g then t.lasting else s.lasting) := by
  cases g <;> rfl

@[simp] theorem State.dequeued_lasting (s : State) (t : Result) :
    resultLasting (s.dequeued t) = if s.pwr.sleep.isSome then some s.lasting else resultLasting t := by
  simp [State.dequeued]

/-! ### Folds over the state -/

@[simp] theorem State.foldl_lasting {α : Type} {f : State → α → State} (h : ∀ s a, (f s a).lasting = s.lasting) (l : List α)
    (s : State) : (l.foldl f s).lasting = s.lasting := by
  induction l generalizing s with
  | nil => rfl
  | cons a l ih => rw [List.foldl_cons, ih, h]

@[simp] theorem State.foldl_snd_lasting {α β : Type} {f : β × State → α → β × State}
    (h : ∀ x a, (f x a).2.lasting = x.2.lasting) (l : List α) (x : β × State) : (l.foldl f x).2.lasting = x.2.lasting := by
  induction l generalizing x with
  | nil => rfl
  | cons a l ih => rw [List.foldl_cons, ih, h]

@[simp] theorem State.foldl_fst_lasting {α β : Type} {f : State × β → α → State × β}
    (h : ∀ x a, (f x a).1.lasting = x.1.lasting) (l : List α) (x : State × β) : (l.foldl f x).1.lasting = x.1.lasting := by
  induction l generalizing x with
  | nil => rfl
  | cons a l ih => rw [List.foldl_cons, ih, h]

/-! ### The state's own writes (Machine/State.lean) -/

@[simp] theorem State.wr_lasting (s : State) (f v) : (s.wr f v).lasting = s.lasting := (rfl)

@[simp] theorem State.wrB_lasting (s : State) (f v) : (s.wrB f v).lasting = s.lasting := (rfl)

@[simp] theorem State.orBit_lasting (s : State) (f v) : (s.orBit f v).lasting = s.lasting := (rfl)

@[simp] theorem State.wrInstant_lasting (s : State) (f v t) : (s.wrInstant f v t).lasting = s.lasting := (rfl)

@[simp] theorem State.free_lasting (s : State) : s.free.2.lasting = s.lasting := (rfl)

@[simp] theorem State.emit_lasting (s : State) (o) : (s.emit o).lasting = s.lasting := (rfl)

@[simp] theorem State.setRing_lasting (s : State) (f v) : (s.setRing f v).lasting = s.lasting := (rfl)

@[simp] theorem State.backlog_lasting (s : State) (f) : (s.backlog f).lasting = s.lasting := (rfl)

@[simp] theorem State.mgmtStart_lasting (s : State) (f v) : (s.mgmtStart f v).lasting = s.lasting := (rfl)


/-! ### Counters, events and records (Machine/Ops.lean) -/

@[simp] theorem State.routeF_lasting (fuel : Nat) (s : State) (src : Nat) :
    (State.routeF fuel s src).lasting = s.lasting := by
  induction fuel generalizing s src with
  | zero => rfl
  | succ fuel ih =>
    simp only [State.routeF]
    (repeat' split) <;> simp [ih]

@[simp] theorem State.route_lasting (s : State) (src : Nat) : (State.route s src).lasting = s.lasting := by
  simp [State.route]

@[simp] theorem State.raise_lasting (s : State) (src : Nat) (idx : List (Fld × Nat)) :
    (State.raise s src idx).lasting = s.lasting := by
  rcases hc : causeOf src with _ | ⟨f, k⟩ <;> simp [State.raise, hc]

@[simp] theorem State.portCause_lasting (s : State) (n k : Nat) : (State.portCause s n k).lasting = s.lasting := by
  simp [State.portCause]

@[simp] theorem State.bumpBy_lasting (s : State) (b : Blk) (i d : Nat) (x : Nat) :
    (State.bumpBy s b i d x).lasting = s.lasting := by
  simp [State.bumpBy]

@[simp] theorem State.bump_lasting (s : State) (b : Blk) (i : Nat) (x : Nat) :
    (State.bump s b i x).lasting = s.lasting := by
  simp [State.bump]

@[simp] theorem State.portCount_lasting (s : State) (n i : Nat) (d : Nat) :
    (State.portCount s n i d).lasting = s.lasting := by
  simp [State.portCount]

@[simp] theorem State.complete_lasting (s : State) (r c : Nat) : (State.complete s r c).lasting = s.lasting := by
  simp [State.complete]

@[simp] theorem State.mgmtDone_lasting (s : State) (op : Opcode) (tag : Nat) (st : Status) (result : Nat) :
    (State.mgmtDone s op tag st result).lasting = s.lasting := by
  simp [State.mgmtDone]

@[simp] theorem State.faultRecord_lasting (s : State) (cls access chan item level flags dva entry : Nat) :
    (State.faultRecord s cls access chan item level flags dva entry).lasting = s.lasting := by
  simp [State.faultRecord]

@[simp] theorem State.chShow_lasting (s : State) : (State.chShow s).lasting = s.lasting := by
  unfold State.chShow
  split <;> simp

@[simp] theorem State.suspMark_lasting (s : State) (chan : Nat) (u : Susp) :
    (State.suspMark s chan u).lasting = s.lasting := by
  simp [State.suspMark]

@[simp] theorem State.suspend_lasting (s : State) (chan stream : Nat) (write : Bool)
    (item taken dva cls level entry : Nat) :
    (State.suspend s chan stream write item taken dva cls level entry).lasting = s.lasting := by
  unfold State.suspend
  split <;> simp

@[simp] theorem State.translate_lasting (s : State) (dva : Nat) (write : Bool) (w : Walk) :
    (State.translate s dva write w).2.lasting = s.lasting := by
  simp only [State.translate]
  (repeat' split) <;> simp

@[simp] theorem State.dma_lasting (s : State) (chan stream : Nat) (write : Bool) (item taken dva : Nat) (d : Dma) :
    (s.dma chan stream write item taken dva d).2.lasting = s.lasting := by
  unfold State.dma
  split
  · next h => exact State.lasting_of_snd_eq (State.translate_lasting _ _ _ _) h
  · next h => simpa using State.lasting_of_snd_eq (State.translate_lasting _ _ _ _) h

@[simp] theorem State.cmdDma_lasting (s : State) (write : Bool) (item dva : Nat) (d : Dma) :
    (s.cmdDma write item dva d).2.lasting = s.lasting := by
  unfold State.cmdDma
  split
  · next h => exact State.lasting_of_snd_eq (State.translate_lasting _ _ _ _) h
  · next h => simpa using State.lasting_of_snd_eq (State.translate_lasting _ _ _ _) h

@[simp] theorem State.msi_lasting (s : State) (v : Nat) : (State.msi s v).lasting = s.lasting := by
  simp [State.msi]

@[simp] theorem State.served_lasting (s : State) (op : Opcode) (tag : BitVec 16) (t : Result) :
    resultLasting (s.served op tag t) =
    if s.pwr.sleep.isSome then some s.lasting else if s.quarantine then some s.lasting else resultLasting t := by
  simp [State.served]

@[simp] theorem State.pairEvent_lasting (s : State) (k : Nat) : (State.pairEvent s k).lasting = s.lasting := by
  simp [State.pairEvent]

@[simp] theorem State.routeDiscard_lasting (s : State) : (State.routeDiscard s).lasting = s.lasting := by
  simp [State.routeDiscard]

@[simp] theorem State.emitHjel_lasting (s : State) (unit vc : Nat) (m : Hjel) :
    (State.emitHjel s unit vc m).lasting = s.lasting := by
  simp [State.emitHjel]

@[simp] theorem State.sendHjel_lasting (s : State) (unit vc : Nat) (m : Hjel) :
    (State.sendHjel s unit vc m).lasting = s.lasting := by
  unfold State.sendHjel
  split <;> simp

@[simp] theorem State.toPeer_lasting (s : State) (vc : Nat) (m : Hjel) : (State.toPeer s vc m).lasting = s.lasting := by
  simp [State.toPeer]

@[simp] theorem State.toUnits_lasting (s : State) (us : List Nat) (vc : Nat) (m : Hjel) :
    (State.toUnits s us vc m).lasting = s.lasting := by
  simp [State.toUnits]

/-! ### Delivery (Machine/Deliver.lean) -/

@[simp] theorem State.dropItem_lasting (s : State) (i : PubItem) : (State.dropItem s i).lasting = s.lasting := by
  simp [State.dropItem]

@[simp] theorem State.dropOldest_lasting (s : State) (kind : Nat) : (State.dropOldest s kind).lasting = s.lasting := by
  unfold State.dropOldest
  split <;> simp

@[simp] theorem State.produce_lasting (s : State) (i : PubItem) : (State.produce s i).lasting = s.lasting := by
  simp [State.produce]

@[simp] theorem State.revisionGone_lasting (s : State) (r : Revision) : (State.revisionGone s r).lasting = s.lasting := by
  unfold State.revisionGone
  split <;> simp

/-! ### Diagnosis (Machine/Diag.lean) -/

@[simp] theorem State.enterSafe_lasting (s : State) (cause : Nat) : (State.enterSafe s cause).lasting = s.lasting := by
  simp [State.enterSafe]

@[simp] theorem State.report_lasting (s : State) (cause : Nat) : (State.report s cause).lasting = s.lasting := by
  simp [State.report]

@[simp] theorem State.reportFree_lasting (s : State) : (State.reportFree s).lasting = s.lasting := by
  simp [State.reportFree]

@[simp] theorem State.logShow_lasting (s : State) : (State.logShow s).lasting = s.lasting := by
  simp [State.logShow]

@[simp] theorem State.logError_lasting (s : State) (cls mem unit code addr : Nat) :
    (State.logError s cls mem unit code addr).lasting = s.lasting := by
  unfold State.logError
  split <;> simp

@[simp] theorem State.correctable_lasting (s : State) (mem unit code addr : Nat) :
    (State.correctable s mem unit code addr).lasting = s.lasting := by
  simp [State.correctable]

@[simp] theorem State.recoverable_lasting (s : State) (mem unit code addr : Nat) :
    (State.recoverable s mem unit code addr).lasting = s.lasting := by
  simp [State.recoverable]

@[simp] theorem State.keyStart_lasting (s : State) (i alg use : Nat) :
    (State.keyStart s i alg use).2.lasting = s.lasting := by
  simp only [State.keyStart]
  (repeat' split) <;> simp

@[simp] theorem State.keyBegan_lasting (s : State) (i alg use : Nat) (t : Instant) :
    (State.keyBegan s i alg use t).2.2.lasting = s.lasting := by
  simp only [State.keyBegan]
  (repeat' split) <;> simp

/-! ### Triggers and outputs (Machine/Trigger.lean) -/

@[simp] theorem State.setCapChan_lasting (s : State) (c : Nat) (x : CapChan) :
    (State.setCapChan s c x).lasting = s.lasting := by
  simp [State.setCapChan]

@[simp] theorem State.capEvent_lasting (s : State) (k c : Nat) : (State.capEvent s k c).lasting = s.lasting := by
  simp [State.capEvent]

@[simp] theorem State.capComplete_lasting (s : State) (c : Nat) (overflow aborted : Bool) :
    (State.capComplete s c overflow aborted).lasting = s.lasting := by
  simp only [State.capComplete]
  (repeat' split) <;> simp

@[simp] theorem State.capTake_lasting (s : State) (c : Nat) (key : Nat) (i : CapItem) :
    (State.capTake s c key i).lasting = s.lasting := by
  simp only [State.capTake]
  (repeat' split) <;> simp

@[simp] theorem State.sliceOverwritten_lasting (s : State) (t : Instant) :
    (State.sliceOverwritten s t).lasting = s.lasting := by
  simp [State.sliceOverwritten]

@[simp] theorem State.pruneRaw_lasting (s : State) : (State.pruneRaw s).lasting = s.lasting := by
  simp [State.pruneRaw]

@[simp] theorem State.trigOut_lasting (s : State) (k : Nat) : (State.trigOut s k).lasting = s.lasting := by
  simp [State.trigOut]

@[simp] theorem State.almPulse_lasting (s : State) (k : Nat) : (State.almPulse s k).lasting = s.lasting := by
  simp [State.almPulse]

@[simp] theorem State.driveXfire_lasting (s : State) : (State.driveXfire s).lasting = s.lasting := by
  simp [State.driveXfire]

@[simp] theorem State.capFire_lasting (s : State) (c : Nat) (causes : List CapCause) (tp : Instant) :
    (State.capFire s c causes tp).lasting = s.lasting := by
  unfold State.capFire
  split <;> simp

@[simp] theorem State.capMiss_lasting (s : State) (c : Nat) : (State.capMiss s c).lasting = s.lasting := by
  simp [State.capMiss]

@[simp] theorem State.capTrigger_lasting (s : State) (c : Nat) (causes : List CapCause) (tp : Instant) :
    (State.capTrigger s c causes tp).2.lasting = s.lasting := by
  simp only [State.capTrigger]
  (repeat' split) <;> simp

@[simp] theorem State.trigger_lasting (s : State) (causes : List CapCause) (tp : Instant) :
    (State.trigger s causes tp).lasting = s.lasting := by
  simp [State.trigger]

@[simp] theorem State.capFrame_lasting (s : State) (n : Nat) (f : Frame) : (s.capFrame n f).lasting = s.lasting := by
  simp only [State.capFrame]
  refine State.foldl_lasting (fun s e => ?_) _ _
  (repeat' split) <;> simp

@[simp] theorem State.captureWritten_lasting (s : State) (cs : List Nat) (written : Bool) :
    (State.captureWritten s cs written).lasting = s.lasting := by
  simp [State.captureWritten]

@[simp] theorem State.capArmed_lasting (s : State) (c : Nat) : (State.capArmed s c).lasting = s.lasting := by
  simp [State.capArmed]

@[simp] theorem State.xarmChange_lasting (s : State) (level : Bool) : (State.xarmChange s level).lasting = s.lasting := by
  simp [State.xarmChange]

@[simp] theorem State.capIdle_lasting (s : State) (c : Nat) (abort : Bool) :
    (State.capIdle s c abort).lasting = s.lasting := by
  simp [State.capIdle]

@[simp] theorem State.capApply_lasting (s : State) (old : Cfg) : (State.capApply s old).lasting = s.lasting := by
  simp [State.capApply]

@[simp] theorem State.capBivouac_lasting (s : State) : (State.capBivouac s).lasting = s.lasting := by
  simp [State.capBivouac]

/-! ### References, pulses and holdover (Machine/TimeBase.lean) -/

@[simp] theorem State.setTq_lasting (s : State) : (State.setTq s).lasting = s.lasting := by
  simp [State.setTq]

@[simp] theorem State.setTbState_lasting (s : State) (st : Nat) : (State.setTbState s st).lasting = s.lasting := by
  simp [State.setTbState]

@[simp] theorem execTbAlmArm_lasting (k : Fin 4) (word : BitVec 32) (s : State) :
    resultLasting (execTbAlmArm k word s) = some s.lasting := by
  simp [execTbAlmArm]

@[simp] theorem State.almFire_lasting (s : State) (k : Nat) (late : Bool) :
    (State.almFire s k late).lasting = s.lasting := by
  unfold State.almFire
  split <;> simp

@[simp] theorem execTbAlmFire_lasting (k : Fin 4) (s : State) : resultLasting (execTbAlmFire k s) = some s.lasting := by
  simp [execTbAlmFire]

@[simp] theorem State.missing_lasting (s : State) (r : Nat) : (State.missing s r).lasting = s.lasting := by
  simp [State.missing]

@[simp] theorem State.voidRef_lasting (s : State) (r : Nat) : (State.voidRef s r).lasting = s.lasting := by
  simp [State.voidRef]

@[simp] theorem State.loseRef_lasting (s : State) (hw : Bool) : (State.loseRef s hw).lasting = s.lasting := by
  simp [State.loseRef]

@[simp] theorem execRefQualify_lasting (s : State) : resultLasting (execRefQualify s) = some s.lasting := by
  simp [execRefQualify]

@[simp] theorem execRefLoss_lasting (s : State) : resultLasting (execRefLoss s) = some s.lasting := by
  simp [execRefLoss]

@[simp] theorem State.hwLoss_lasting (s : State) (r : Nat) : (State.hwLoss s r).lasting = s.lasting := by
  simp [State.hwLoss]

@[simp] theorem execHwLossDetect_lasting (s : State) : resultLasting (execHwLossDetect s) = some s.lasting := by
  simp [execHwLossDetect]

@[simp] theorem State.measured_lasting (s : State) (r : Nat) (off : Int) :
    (State.measured s r off).lasting = s.lasting := by
  simp [State.measured]

@[simp] theorem execTbLock_lasting (s : State) : resultLasting (execTbLock s) = some s.lasting := by
  simp [execTbLock]

@[simp] theorem execHoldoverSecond_lasting (s : State) : resultLasting (execHoldoverSecond s) = some s.lasting := by
  simp [execHoldoverSecond]

@[simp] theorem execLeapApply_lasting (s : State) : resultLasting (execLeapApply s) = some s.lasting := by
  simp [execLeapApply]

@[simp] theorem execLsoExpiry_lasting (s : State) : resultLasting (execLsoExpiry s) = some s.lasting := by
  simp [execLsoExpiry]

@[simp] theorem State.setLeapPend_lasting (s : State) (v : Nat) : (State.setLeapPend s v).lasting = s.lasting := by
  simp [State.setLeapPend]

@[simp] theorem State.ptpAfresh_lasting (s : State) : (State.ptpAfresh s).lasting = s.lasting := by
  simp [State.ptpAfresh]

@[simp] theorem State.announce_lasting (s : State) (m : PtpMsg) : (State.announce s m).lasting = s.lasting := by
  simp [State.announce]

@[simp] theorem State.sync_lasting (s : State) (n : Nat) (m : PtpMsg) : (State.sync s n m).lasting = s.lasting := by
  simp [State.sync]

@[simp] theorem State.toRing_lasting (s : State) (src ring port : Nat) (ts : Instant) (cells : Nat) (f : Frame) :
    (State.toRing s src ring port ts cells f).lasting = s.lasting := by
  simp [State.toRing]

@[simp] theorem execPtpMessage_lasting (port : Fin 48) (msg : PtpMsg) (bytes : List Byte) (s : State) :
    resultLasting (execPtpMessage port msg bytes s) = some s.lasting := by
  unfold execPtpMessage
  split <;> simp

@[simp] theorem execAnnounceReceiptTimeout_lasting (s : State) :
    resultLasting (execAnnounceReceiptTimeout s) = some s.lasting := by
  unfold execAnnounceReceiptTimeout
  split <;> simp

@[simp] theorem execIrigbFrame_lasting (frame : IrigFrame) (s : State) :
    resultLasting (execIrigbFrame frame s) = some s.lasting := by
  simp [execIrigbFrame]

@[simp] theorem execPpsInEdge_lasting (s : State) : resultLasting (execPpsInEdge s) = some s.lasting := by
  simp [execPpsInEdge]

@[simp] theorem execPpsOutPulse_lasting (s : State) : resultLasting (execPpsOutPulse s) = some s.lasting := by
  simp [execPpsOutPulse]

@[simp] theorem execPpsOutEnd_lasting (s : State) : resultLasting (execPpsOutEnd s) = some s.lasting := by
  simp [execPpsOutEnd]

@[simp] theorem execRef10mLoss_lasting (s : State) : resultLasting (execRef10mLoss s) = some s.lasting := by
  simp [execRef10mLoss]

@[simp] theorem execRef10mReturn_lasting (s : State) : resultLasting (execRef10mReturn s) = some s.lasting := by
  simp [execRef10mReturn]

/-! ### Ports and frames (Machine/Ports.lean) -/

@[simp] theorem State.setPrt_lasting (s : State) (n : Nat) (p : Port) : (State.setPrt s n p).lasting = s.lasting := by
  simp [State.setPrt]

@[simp] theorem State.prpStage_lasting (s : State) (n : Nat) (f : Frame) :
    (State.prpStage s n f).2.lasting = s.lasting := by
  simp only [State.prpStage]
  (repeat' split) <;> simp

@[simp] theorem State.countAccepted_lasting (s : State) (n : Nat) (f : Frame) :
    (State.countAccepted s n f).lasting = s.lasting := by
  simp [State.countAccepted]

@[simp] theorem State.police_lasting (s : State) (n : Nat) (entry : Option Nat) :
    (State.police s n entry).2.lasting = s.lasting := by
  unfold State.police
  split <;> simp

@[simp] theorem State.stages_lasting (s : State) (n : Nat) (f : Frame) : (State.stages s n f).lasting = s.lasting := by
  simp [State.stages]

@[simp] theorem State.countLine_lasting (s : State) (n : Nat) (f : Frame) :
    (State.countLine s n f).lasting = s.lasting := by
  simp [State.countLine]

@[simp] theorem execFrameReceive_lasting (port : Fin 48) (frame : Frame) (s : State) :
    resultLasting (execFrameReceive port frame s) = some s.lasting := by
  simp only [execFrameReceive]
  (repeat' split) <;> simp

@[simp] theorem execPrpEntryAge_lasting (harness : Fin 25) (s : State) :
    resultLasting (execPrpEntryAge harness s) = some s.lasting := by
  simp [execPrpEntryAge]

@[simp] theorem State.dropTx_lasting (s : State) (n : Nat) (f : TxFrame) : (State.dropTx s n f).lasting = s.lasting := by
  unfold State.dropTx
  split <;> simp

@[simp] theorem State.enqueue1_lasting (s : State) (n q : Nat) (f : TxFrame) :
    (State.enqueue1 s n q f).lasting = s.lasting := by
  simp [State.enqueue1]

@[simp] theorem State.send_lasting (s : State) (dest q : Nat) (f : TxFrame) :
    (State.send s dest q f).lasting = s.lasting := by
  simp [State.send]

@[simp] theorem State.twoStep_lasting (s : State) (n : Nat) (ts : Instant) (f : TxFrame) (tag : Nat) :
    (State.twoStep s n ts f tag).2.lasting = s.lasting := by
  simp only [State.twoStep]
  (repeat' split) <;> simp

@[simp] theorem State.txDone_lasting (s : State) (f : TxFrame) (st : Status) (record : Option Nat) :
    (State.txDone s f st record).lasting = s.lasting := by
  simp only [State.txDone]
  (repeat' split) <;> simp

@[simp] theorem State.discardTx_lasting (s : State) (n q : Nat) (f : TxFrame) :
    (State.discardTx s n q f).lasting = s.lasting := by
  simp [State.discardTx]

@[simp] theorem State.discardQueued_lasting (s : State) (n : Nat) : (State.discardQueued s n).lasting = s.lasting := by
  simp [State.discardQueued]

@[simp] theorem State.leave_lasting (s : State) (n q : Nat) (f : TxFrame) (prp : Option (List Byte)) (first : Bool) :
    (State.leave s n q f prp first).lasting = s.lasting := by
  simp only [State.leave]
  (repeat' split) <;> simp

@[simp] theorem State.copiesDone_lasting (s : State) (f : TxFrame) : (State.copiesDone s f).lasting = s.lasting := by
  simp [State.copiesDone]

@[simp] theorem execFrameTransmit_lasting (port : Fin 48) (s : State) :
    resultLasting (execFrameTransmit port s) = some s.lasting := by
  simp only [execFrameTransmit]
  (repeat' split) <;> simp

@[simp] theorem execPrpSupervision_lasting (harness : Fin 25) (s : State) :
    resultLasting (execPrpSupervision harness s) = some s.lasting := by
  simp [execPrpSupervision]

@[simp] theorem execLinkUp_lasting (port : Fin 48) (speed : Fin 6) (anDone : Bool) (s : State) :
    resultLasting (execLinkUp port speed anDone s) = some s.lasting := by
  simp [execLinkUp]

@[simp] theorem State.dropLink_lasting (s : State) (n : Nat) : (State.dropLink s n).lasting = s.lasting := by
  simp [State.dropLink]

@[simp] theorem execLinkDown_lasting (port : Fin 48) (s : State) :
    resultLasting (execLinkDown port s) = some s.lasting := by
  simp [execLinkDown]

@[simp] theorem State.setQuench_lasting (s : State) (kind target : Nat) (b : Bool) :
    (State.setQuench s kind target b).lasting = s.lasting := by
  unfold State.setQuench
  split <;> simp

@[simp] theorem execQuench_lasting (tag : BitVec 16) (kind : BitVec 8) (target : BitVec 16) (s : State) :
    resultLasting (execQuench tag kind target s) = some s.lasting := by
  unfold execQuench
  split <;> simp

@[simp] theorem execQuenchRelease_lasting (tag : BitVec 16) (kind : BitVec 8) (target : BitVec 16) (s : State) :
    resultLasting (execQuenchRelease tag kind target s) = some s.lasting := by
  unfold execQuenchRelease
  split <;> simp

@[simp] theorem execPtpSend_lasting (port : Fin 48) (kind : PtpKind) (s : State) :
    resultLasting (execPtpSend port kind s) = some s.lasting := by
  simp [execPtpSend]

/-! ### Rings of the host interface (Machine/Hif.lean) -/

@[simp] theorem execNop_lasting (tag : BitVec 16) (s : State) : resultLasting (execNop tag s) = some s.lasting := by
  simp [execNop]

@[simp] theorem State.dueDoorbell_lasting (s : State) (r : Option Nat) : (State.dueDoorbell s r).lasting = s.lasting := by
  simp [State.dueDoorbell]

@[simp] theorem execNudgeMmioOne_lasting (ring : Fin 64) (s : State) :
    resultLasting (execNudgeMmioOne ring s) = some s.lasting := by
  simp [execNudgeMmioOne]

@[simp] theorem execNudgeMmioAll_lasting (s : State) : resultLasting (execNudgeMmioAll s) = some s.lasting := by
  simp [execNudgeMmioAll]

@[simp] theorem execNudgePoll_lasting (value : BitVec 64) (dma : Dma) (s : State) :
    resultLasting (execNudgePoll value dma s) = some s.lasting := by
  simp [execNudgePoll]

@[simp] theorem State.doorbell_lasting (s : State) (r w : Nat) : (State.doorbell s r w).lasting = s.lasting := by
  simp [State.doorbell]

@[simp] theorem State.doorbells_lasting (s : State) (r : Nat) (ws : List (BitVec 32)) :
    (s.doorbells r ws).lasting = s.lasting := by
  induction ws generalizing s r with
  | nil => rfl
  | cons w ws ih => simp [State.doorbells, ih]

@[simp] theorem execDoorbellRead_lasting (words : List (BitVec 32)) (dma : Dma) (s : State) :
    resultLasting (execDoorbellRead words dma s) = some s.lasting := by
  simp only [execDoorbellRead]
  (repeat' split) <;> simp

@[simp] theorem execDescriptorFetch_lasting (ring : Fin 64) (desc : BitVec 256) (dma : Dma) (s : State) :
    resultLasting (execDescriptorFetch ring desc dma s) = some s.lasting := by
  simp [execDescriptorFetch]

@[simp] theorem State.takeBuffers_lasting (s : State) (r n : Nat) : (State.takeBuffers s r n).lasting = s.lasting := by
  simp [State.takeBuffers]

@[simp] theorem State.dropRx_lasting (s : State) (i : RxItem) : (State.dropRx s i).lasting = s.lasting := by
  simp [State.dropRx]

@[simp] theorem execRxRingDeliver_lasting (ring : Fin 64) (dma : Dma) (s : State) :
    resultLasting (execRxRingDeliver ring dma s) = some s.lasting := by
  simp only [execRxRingDeliver]
  (repeat' split) <;> simp

@[simp] theorem State.signal_lasting (s : State) (r : Nat) : (State.signal s r).lasting = s.lasting := by
  simp [State.signal]

@[simp] theorem State.progressed_lasting (s : State) (r n : Nat) (progress : Dma) :
    (State.progressed s r n progress).lasting = s.lasting := by
  simp [State.progressed]

@[simp] theorem State.freeStamps_lasting (s : State) (kind : Nat) (cs : List Nat) :
    (State.freeStamps s kind cs).lasting = s.lasting := by
  simp [State.freeStamps]

@[simp] theorem State.settle_lasting (s : State) (r : Nat) : (State.settle s r).lasting = s.lasting := by
  simp [State.settle]

@[simp] theorem execCompletionWrite_lasting (ring : Fin 64) (dma : Dma) (progress : Dma) (s : State) :
    resultLasting (execCompletionWrite ring dma progress s) = some s.lasting := by
  simp [execCompletionWrite]

@[simp] theorem execIrqCoalTimeout_lasting (ring : Fin 64) (s : State) :
    resultLasting (execIrqCoalTimeout ring s) = some s.lasting := by
  simp [execIrqCoalTimeout]

@[simp] theorem State.settleRings_lasting (s : State) : (State.settleRings s).lasting = s.lasting := by
  simp [State.settleRings]

@[simp] theorem execEventEntryWrite_lasting (q : Fin 4) (dma : Dma) (s : State) :
    resultLasting (execEventEntryWrite q dma s) = some s.lasting := by
  unfold execEventEntryWrite
  split <;> simp

@[simp] theorem State.ringCfg_lasting (s : State) (r v : Nat) : (State.ringCfg s r v).lasting = s.lasting := by
  simp [State.ringCfg]

@[simp] theorem execRingEnable_lasting (ring : Fin 64) (value : BitVec 32) (s : State) :
    resultLasting (execRingEnable ring value s) = some s.lasting := by
  simp [execRingEnable]

@[simp] theorem execRingDisable_lasting (ring : Fin 64) (value : BitVec 32) (s : State) :
    resultLasting (execRingDisable ring value s) = some s.lasting := by
  simp only [execRingDisable]
  (repeat' split) <;> simp

@[simp] theorem State.restartHif_lasting (s : State) : (State.restartHif s).lasting = s.lasting := by
  simp [State.restartHif]

@[simp] theorem execFlr_lasting (s : State) : resultLasting (execFlr s) = some s.lasting := by
  simp [execFlr]

@[simp] theorem execBusMasterDisable_lasting (s : State) : resultLasting (execBusMasterDisable s) = some s.lasting := by
  simp [execBusMasterDisable]

@[simp] theorem execBusMasterEnable_lasting (s : State) : resultLasting (execBusMasterEnable s) = some s.lasting := by
  simp [execBusMasterEnable]

@[simp] theorem execPerst_lasting (s : State) : resultLasting (execPerst s) = some s.lasting := by
  simp [execPerst]

@[simp] theorem execPcieLinkDown_lasting (s : State) : resultLasting (execPcieLinkDown s) = some s.lasting := by
  simp [execPcieLinkDown]

@[simp] theorem execPcieLinkUp_lasting (s : State) : resultLasting (execPcieLinkUp s) = some s.lasting := by
  simp [execPcieLinkUp]

/-! ### Stream ingest (Machine/Ingest.lean) -/

@[simp] theorem State.setEnt_lasting (s : State) (e : Nat) (x : EntStat) : (State.setEnt s e x).lasting = s.lasting := by
  simp [State.setEnt]

@[simp] theorem State.ingEvent_lasting (s : State) (k e : Nat) : (State.ingEvent s k e).lasting = s.lasting := by
  simp [State.ingEvent]

@[simp] theorem State.discard_lasting (s : State) (e : Option Nat) (c : Nat) :
    (State.discard s e c).lasting = s.lasting := by
  simp only [State.discard]
  (repeat' split) <;> simp

@[simp] theorem State.sendCommand_lasting (s : State) (e cmd : Nat) : (State.sendCommand s e cmd).lasting = s.lasting := by
  simp [State.sendCommand]

@[simp] theorem State.setConn_lasting (s : State) (e : Nat) (c : Conn) : (State.setConn s e c).lasting = s.lasting := by
  simp [State.setConn]

@[simp] theorem State.putTcp_lasting (s : State) (e kind cmd seq : Nat) :
    (State.putTcp s e kind cmd seq).lasting = s.lasting := by
  simp [State.putTcp]

@[simp] theorem State.sendTcp_lasting (s : State) (e kind cmd : Nat) :
    (State.sendTcp s e kind cmd).lasting = s.lasting := by
  simp [State.sendTcp]

@[simp] theorem State.tcpResend_lasting (s : State) : s.tcpResend.lasting = s.lasting := by
  unfold State.tcpResend
  refine State.foldl_lasting (fun s e => ?_) _ _
  (repeat' split) <;> simp

@[simp] theorem State.command_lasting (s : State) (e cmd : Nat) : (State.command s e cmd).lasting = s.lasting := by
  simp [State.command]

@[simp] theorem State.autoCfg_lasting (s : State) (e : Nat) : (State.autoCfg s e).lasting = s.lasting := by
  simp [State.autoCfg]

@[simp] theorem State.discardFormat_lasting (s : State) (e c : Nat) : (State.discardFormat s e c).lasting = s.lasting := by
  simp [State.discardFormat]

@[simp] theorem State.startAuth_lasting (s : State) (r : Rec) (f : Frame) :
    (State.startAuth s r f).2.lasting = s.lasting := by
  simp only [State.startAuth]
  (repeat' split) <;> simp

@[simp] theorem State.fresh_lasting (s : State) (e rate : Nat) (t : Instant) (auth : Bool) :
    (State.fresh s e rate t auth).2.lasting = s.lasting := by
  simp only [State.fresh]
  (repeat' split) <;> simp

@[simp] theorem State.freeCells_lasting (s : State) (i : InFrame) : (State.freeCells s i).lasting = s.lasting := by
  simp [State.freeCells]

@[simp] theorem State.copyToRing_lasting (s : State) (en : Fld) (ring : Fld) (src : Nat) (i : InFrame) :
    (State.copyToRing s en ring src i).lasting = s.lasting := by
  simp [State.copyToRing]

@[simp] theorem State.parse_lasting (s : State) (i : InFrame) (e n : Nat) (f : Frame) :
    (State.parse s i e n f).lasting = s.lasting := by
  simp [State.parse]

@[simp] theorem State.c37Other_lasting (s : State) (i : InFrame) (m : C37) (e : Option Nat) :
    (State.c37Other s i m e).lasting = s.lasting := by
  simp only [State.c37Other]
  (repeat' split) <;> simp

@[simp] theorem execIngParse_lasting (s : State) : resultLasting (execIngParse s) = some s.lasting := by
  simp only [execIngParse]
  (repeat' split) <;> simp

theorem State.takeParsed_lasting {s t : State} {p : Frame → Bool} {x : Parsed} (h : s.takeParsed p = some (x, t)) :
    t.lasting = s.lasting := by
  unfold State.takeParsed at h
  split at h
  · cases h
  · rw [← (Prod.mk.inj (Option.some.inj h)).2]
    simp

@[simp] theorem State.accept_lasting (s : State) (e : Nat) (p : Parsed) (t : Instant) (seq st : Nat) (q : Nat) :
    (State.accept s e p t seq st q).lasting = s.lasting := by
  simp [State.accept]

@[simp] theorem State.toStitcher_lasting (s : State) (m : Meas) : (State.toStitcher s m).lasting = s.lasting := by
  simp [State.toStitcher]

@[simp] theorem State.c37Blocks_lasting (c : Cfg) (p : Parsed) (t : Instant) (q : Nat) (fault : Bool) (s : State)
    (e base : Nat) (bs : List C37Block) :
    (State.c37Blocks c p t q fault s e base bs).2.lasting = s.lasting := by
  induction bs generalizing s e base with
  | nil => rfl
  | cons b bs ih => simp [State.c37Blocks, ih]

@[simp] theorem execC37118DataFrame_lasting (s : State) : resultLasting (execC37118DataFrame s) = some s.lasting := by
  simp only [execC37118DataFrame]
  split
  · rfl
  · next p u h =>
    rw [← State.takeParsed_lasting h]
    (repeat' split) <;> simp

@[simp] theorem State.goose_lasting (s : State) (c : Cfg) (p : Parsed) (g : GoosePdu) (q : Nat) :
    (State.goose s c p g q).lasting = s.lasting := by
  simp only [State.goose]
  (repeat' split) <;> simp

@[simp] theorem execGooseFrame_lasting (s : State) : resultLasting (execGooseFrame s) = some s.lasting := by
  simp only [execGooseFrame]
  split
  · rfl
  · next p u h =>
    rw [← State.takeParsed_lasting h]
    (repeat' split) <;> simp

@[simp] theorem execGooseTtlExpiry_lasting (entry : Fin 8192) (s : State) :
    resultLasting (execGooseTtlExpiry entry s) = some s.lasting := by
  simp only [execGooseTtlExpiry]
  (repeat' split) <;> simp

@[simp] theorem State.spduSv_lasting (s : State) (c : Cfg) (p : Parsed) (num : Nat) (refrTm : Option Nat)
    (flags : Nat) (datSet : List Byte) (confRev : Nat) (simulated : Bool) (data : Option SpduData) (q : Nat) :
    (State.spduSv s c p num refrTm flags datSet confRev simulated data q).lasting = s.lasting := by
  unfold State.spduSv
  split <;> simp

@[simp] theorem execIec905Spdu_lasting (s : State) : resultLasting (execIec905Spdu s) = some s.lasting := by
  simp only [execIec905Spdu]
  split
  · rfl
  · next p u h =>
    rw [← State.takeParsed_lasting h]
    (repeat' split) <;> simp

@[simp] theorem State.asdu_lasting (s : State) (c : Cfg) (p : Parsed) (sim : Bool) (a : SvAsdu) :
    (State.asdu s c p sim a).2.lasting = s.lasting := by
  simp only [State.asdu]
  (repeat' split) <;> simp

@[simp] theorem execSvFrame_lasting (s : State) : resultLasting (execSvFrame s) = some s.lasting := by
  simp only [execSvFrame]
  split
  · rfl
  · next p u h =>
    rw [← State.takeParsed_lasting h]
    (repeat' split) <;> simp

@[simp] theorem State.openConn_lasting (s : State) (e : Nat) : (State.openConn s e).lasting = s.lasting := by
  simp [State.openConn]

@[simp] theorem execTcpEstablished_lasting (entry : Fin 8192) (next : BitVec 32) (s : State) :
    resultLasting (execTcpEstablished entry next s) = some s.lasting := by
  simp [execTcpEstablished]

@[simp] theorem execTcpConnectionLoss_lasting (entry : Fin 8192) (s : State) :
    resultLasting (execTcpConnectionLoss entry s) = some s.lasting := by
  simp [execTcpConnectionLoss]

@[simp] theorem execTcpRetry_lasting (entry : Fin 8192) (s : State) :
    resultLasting (execTcpRetry entry s) = some s.lasting := by
  simp [execTcpRetry]

@[simp] theorem State.tcpFrame_lasting (s : State) (p : Parsed) (frames : List C37) (bytes : List Byte) :
    (State.tcpFrame s p frames bytes).lasting = s.lasting := by
  simp only [State.tcpFrame]
  (repeat' split) <;> simp

@[simp] theorem execTcpSegment_lasting (s : State) : resultLasting (execTcpSegment s) = some s.lasting := by
  simp only [execTcpSegment]
  split
  · rfl
  · next p u h =>
    rw [← State.takeParsed_lasting h]
    (repeat' split) <;> simp

@[simp] theorem State.forwardRecords_lasting (s : State) (code first n : Nat) :
    (State.forwardRecords s code first n).lasting = s.lasting := by
  simp [State.forwardRecords]

@[simp] theorem State.stageCfg_lasting (s : State) (e : Nat) (info : CfgInfo) (cfg3 again : Bool) :
    (State.stageCfg s e info cfg3 again).lasting = s.lasting := by
  simp [State.stageCfg]

@[simp] theorem State.unseal_lasting (s : State) : (State.unseal s).lasting = s.lasting := by
  simp [State.unseal]

@[simp] theorem execCfgFrame_lasting (s : State) : resultLasting (execCfgFrame s) = some s.lasting := by
  simp only [execCfgFrame]
  split
  · rfl
  · next p u h =>
    rw [← State.takeParsed_lasting h]
    (repeat' split) <;> simp

/-! ### Phasor estimation (Machine/Phe.lean) -/

@[simp] theorem State.setPheChan_lasting (s : State) (ch : Nat) (x : PheChan) :
    (State.setPheChan s ch x).lasting = s.lasting := by
  simp [State.setPheChan]

@[simp] theorem State.pheEvent_lasting (s : State) (k ch : Nat) : (State.pheEvent s k ch).lasting = s.lasting := by
  simp [State.pheEvent]

@[simp] theorem State.pheStart_lasting (s : State) (ch : Nat) (t : Instant) :
    (State.pheStart s ch t).lasting = s.lasting := by
  simp [State.pheStart]

@[simp] theorem execPheSample_lasting (s : State) : resultLasting (execPheSample s) = some s.lasting := by
  simp only [execPheSample]
  (repeat' split) <;> simp

@[simp] theorem execPheWaitExpiry_lasting (ch : Fin 1024) (s : State) :
    resultLasting (execPheWaitExpiry ch s) = some s.lasting := by
  simp only [execPheWaitExpiry]
  (repeat' split) <;> simp

@[simp] theorem State.pheNone_lasting (s : State) (ch : Nat) : (State.pheNone s ch).lasting = s.lasting := by
  simp [State.pheNone]

@[simp] theorem State.pheMismatch_lasting (s : State) (ch : Nat) (t : Instant) :
    (State.pheMismatch s ch t).lasting = s.lasting := by
  simp [State.pheMismatch]

@[simp] theorem State.pheOutOfRange_lasting (s : State) (ch : Nat) : (State.pheOutOfRange s ch).lasting = s.lasting := by
  simp [State.pheOutOfRange]

@[simp] theorem State.pheEmit_lasting (s : State) (ch : Nat) (t : Instant) (entry q : Nat) (bridged : Bool)
    (o : PheResult) :
    (State.pheEmit s ch t entry q bridged o).lasting = s.lasting := by
  simp [State.pheEmit]

@[simp] theorem State.pheFinish_lasting (s : State) (ch : Nat) (run : PheRun) (agree : Bool) :
    (State.pheFinish s ch run agree).lasting = s.lasting := by
  simp only [State.pheFinish]
  (repeat' split) <;> simp

@[simp] theorem State.popRun_lasting (s : State) (ch : Nat) : (State.popRun s ch).lasting = s.lasting := by
  simp [State.popRun]

@[simp] theorem execPheOutput_lasting (ch : Fin 1024) (agree : Bool) (s : State) :
    resultLasting (execPheOutput ch agree s) = some s.lasting := by
  unfold execPheOutput
  split <;> simp

@[simp] theorem execPheDualTimeout_lasting (ch : Fin 1024) (s : State) :
    resultLasting (execPheDualTimeout ch s) = some s.lasting := by
  unfold execPheDualTimeout
  split <;> simp

@[simp] theorem State.pheApply_lasting (s : State) (old : Cfg) (boundary : Instant) :
    (s.pheApply old boundary).lasting = s.lasting := by
  simp only [State.pheApply, State.lasting_ite, ite_self, State.foldl_lasting, implies_true, State.setPheChan_lasting,
    State.wr_lasting]

/-! ### Stitcher (Machine/Stitcher.lean) -/

@[simp] theorem State.setSlice_lasting (s : State) (x : Slice) : (State.setSlice s x).lasting = s.lasting := by
  simp [State.setSlice]

@[simp] theorem State.dropSlice_lasting (s : State) (t : Instant) : (State.dropSlice s t).lasting = s.lasting := by
  simp [State.dropSlice]

@[simp] theorem State.stchEvent_lasting (s : State) (k e : Nat) : (State.stchEvent s k e).lasting = s.lasting := by
  simp [State.stchEvent]

@[simp] theorem State.openNext_lasting (s : State) : (State.openNext s).lasting = s.lasting := by
  simp [State.openNext]

@[simp] theorem execSliceOpen_lasting (s : State) : resultLasting (execSliceOpen s) = some s.lasting := by
  simp [execSliceOpen]

@[simp] theorem State.openTo_lasting (t : Instant) (n : Nat) (s : State) : (State.openTo t n s).lasting = s.lasting := by
  induction n generalizing s with
  | zero => rfl
  | succ n ih => simp [State.openTo, ih]

@[simp] theorem State.keepStore_lasting (s : State) (l : List Revision) : (State.keepStore s l).lasting = s.lasting := by
  simp [State.keepStore]

@[simp] theorem State.setDepth_lasting (s : State) : (State.setDepth s).lasting = s.lasting := by
  simp [State.setDepth]

theorem State.storeRev_lasting {s t : State} {r : Revision} (h : s.storeRev r = some t) : t.lasting = s.lasting := by
  unfold State.storeRev at h
  split at h
  · cases h
  · rw [← Option.some.inj h]
    simp

@[simp] theorem State.setTeam_lasting (s : State) (t : Instant) (x : TeamSlice) :
    (State.setTeam s t x).lasting = s.lasting := by
  simp [State.setTeam]

@[simp] theorem State.assemble_lasting (s : State) (t : Instant) : (s.assemble t).lasting = s.lasting := by
  simp only [State.assemble]
  split
  · simp
  · split
    · simp
    · next u h =>
      rw [← State.storeRev_lasting h]
      simp

@[simp] theorem State.tryAssemble_lasting (s : State) (t : Instant) : (State.tryAssemble s t).lasting = s.lasting := by
  simp [State.tryAssemble]

@[simp] theorem State.toTeam_lasting (s : State) (v : Revision) : (State.toTeam s v).lasting = s.lasting := by
  simp [State.toTeam]

@[simp] theorem State.stall_lasting (s : State) (x : Slice) : (State.stall s x).lasting = s.lasting := by
  simp [State.stall]

@[simp] theorem State.keepHeld_lasting (s : State) (c : Cfg) (n : Nat) (t : Instant) (recs : List (Nat × SRec)) :
    (State.keepHeld s c n t recs).lasting = s.lasting := by
  simp [State.keepHeld]

@[simp] theorem State.countAbsent_lasting (s : State) (c : Cfg) (expected : List Nat) (present : Nat → Bool) :
    (State.countAbsent s c expected present).lasting = s.lasting := by
  simp [State.countAbsent]

@[simp] theorem State.countFallbacks_lasting (s : State) (c : Cfg) (recs : KV SRec) :
    (State.countFallbacks s c recs).lasting = s.lasting := by
  simp [State.countFallbacks]

@[simp] theorem State.release0_lasting (s : State) (x : Slice) : (s.release0 x).lasting = s.lasting := by
  simp only [State.release0]
  split
  · simp
  · next u h =>
    rw [← State.storeRev_lasting h]
    (repeat' split) <;> simp

@[simp] theorem execSliceDeadline_lasting (s : State) : resultLasting (execSliceDeadline s) = some s.lasting := by
  unfold execSliceDeadline
  split <;> simp

@[simp] theorem State.releaseOpen_lasting (s : State) (x : Slice) : (State.releaseOpen s x).lasting = s.lasting := by
  simp [State.releaseOpen]

@[simp] theorem State.releaseFirst_lasting (s : State) : (State.releaseFirst s).2.lasting = s.lasting := by
  simp only [State.releaseFirst]
  (repeat' split) <;> simp

@[simp] theorem execRevision0Release_lasting (s : State) : resultLasting (execRevision0Release s) = some s.lasting := by
  simp [execRevision0Release]

@[simp] theorem State.stepSlices_lasting (s : State) (old : Instant) : (State.stepSlices s old).lasting = s.lasting := by
  simp [State.stepSlices]

@[simp] theorem State.gather_lasting (s : State) (x : Slice) (e : Nat) (r : SRec) :
    (State.gather s x e r).lasting = s.lasting := by
  simp [State.gather]

@[simp] theorem State.releaseNext_lasting (s : State) (x : Slice) : (s.releaseNext x).lasting = s.lasting := by
  simp only [State.releaseNext]
  split
  · simp
  · split
    · simp
    · next u h =>
      rw [← State.storeRev_lasting h]
      simp

@[simp] theorem execRevGatherExpiry_lasting (s : State) : resultLasting (execRevGatherExpiry s) = some s.lasting := by
  unfold execRevGatherExpiry
  split <;> simp

@[simp] theorem execRevisionRelease_lasting (s : State) : resultLasting (execRevisionRelease s) = some s.lasting := by
  unfold execRevisionRelease
  split <;> simp

@[simp] theorem State.finish_lasting (s : State) (x : Slice) : (State.finish s x).lasting = s.lasting := by
  simp only [State.finish]
  (repeat' split) <;> simp

@[simp] theorem execSliceHorizon_lasting (s : State) : resultLasting (execSliceHorizon s) = some s.lasting := by
  unfold execSliceHorizon
  split <;> simp

@[simp] theorem execStoreStallClear_lasting (s : State) : resultLasting (execStoreStallClear s) = some s.lasting := by
  unfold execStoreStallClear
  split <;> simp

@[simp] theorem State.beyond_lasting (s : State) (e : Nat) : (State.beyond s e).lasting = s.lasting := by
  simp [State.beyond]

@[simp] theorem State.unexclude_lasting (s : State) (e : Nat) : (State.unexclude s e).lasting = s.lasting := by
  simp [State.unexclude]

@[simp] theorem State.tooLate_lasting (s : State) (e : Nat) (t : Instant) : (State.tooLate s e t).lasting = s.lasting := by
  simp [State.tooLate]

@[simp] theorem State.foreign_lasting (s : State) (m : Meas) (n : Nat) : (State.foreign s m n).lasting = s.lasting := by
  simp [State.foreign]

@[simp] theorem State.placeAt_lasting (s : State) (m : Meas) : (State.placeAt s m).lasting = s.lasting := by
  simp only [State.placeAt]
  (repeat' split) <;> simp

@[simp] theorem State.addInput_lasting (s : State) (m : Meas) : (State.addInput s m).lasting = s.lasting := by
  simp [State.addInput]

@[simp] theorem State.placeInput_lasting (s : State) (c : Cfg) (m : Meas) :
    (State.placeInput s c m).lasting = s.lasting := by
  simp only [State.placeInput]
  (repeat' split) <;> simp

@[simp] theorem State.placeEvent_lasting (s : State) (m : Meas) : (s.placeEvent m).lasting = s.lasting := by
  simp only [State.placeEvent]
  refine (State.foldl_lasting (fun s x => ?_) _ _).trans (by simp)
  (repeat' split) <;> simp

@[simp] theorem State.place_lasting (s : State) (m : Meas) : (State.place s m).lasting = s.lasting := by
  simp only [State.place]
  (repeat' split) <;> simp

@[simp] theorem execMeasurementPlace_lasting (s : State) : resultLasting (execMeasurementPlace s) = some s.lasting := by
  unfold execMeasurementPlace
  split <;> simp

@[simp] theorem State.closeBefore_lasting (s : State) (b : Instant) : (State.closeBefore s b).lasting = s.lasting := by
  simp [State.closeBefore]

@[simp] theorem State.retag_lasting (s : State) (a b : Nat) : (State.retag s a b).lasting = s.lasting := by
  simp [State.retag]

@[simp] theorem State.retire_lasting (s : State) : (State.retire s).lasting = s.lasting := by
  unfold State.retire
  split <;> simp

@[simp] theorem State.startProducing_lasting (s : State) (t : Instant) :
    (State.startProducing s t).lasting = s.lasting := by
  simp [State.startProducing]

@[simp] theorem State.stopProducing_lasting (s : State) (t : Instant) : (State.stopProducing s t).lasting = s.lasting := by
  simp [State.stopProducing]

@[simp] theorem State.stchApply_lasting (s : State) (old : Cfg) (b : Instant) :
    (State.stchApply s old b).lasting = s.lasting := by
  simp only [State.stchApply]
  (repeat' split) <;> simp

/-! ### Capture (Machine/Cap.lean) -/

@[simp] theorem State.capArm_lasting (s : State) (c : Nat) : (State.capArm s c).2.lasting = s.lasting := by
  simp only [State.capArm]
  (repeat' split) <;> simp

@[simp] theorem State.capDisarm_lasting (s : State) (c : Nat) : (State.capDisarm s c).2.lasting = s.lasting := by
  simp only [State.capDisarm]
  (repeat' split) <;> simp

@[simp] theorem State.capDone_lasting (s : State) (tag : BitVec 16) (c : Nat) (st : Status) :
    (State.capDone s tag c st).lasting = s.lasting := by
  simp [State.capDone]

@[simp] theorem execCaptureArmArm_lasting (tag : BitVec 16) (ch : Fin 8) (s : State) :
    resultLasting (execCaptureArmArm tag ch s) = some s.lasting := by
  simp [execCaptureArmArm]

@[simp] theorem execCaptureArmDisarm_lasting (tag : BitVec 16) (ch : Fin 8) (s : State) :
    resultLasting (execCaptureArmDisarm tag ch s) = some s.lasting := by
  simp [execCaptureArmDisarm]

@[simp] theorem execCaptureArmFire_lasting (tag : BitVec 16) (ch : Fin 8) (s : State) :
    resultLasting (execCaptureArmFire tag ch s) = some s.lasting := by
  simp [execCaptureArmFire]

@[simp] theorem execCaptureArmAbort_lasting (tag : BitVec 16) (ch : Fin 8) (s : State) :
    resultLasting (execCaptureArmAbort tag ch s) = some s.lasting := by
  simp [execCaptureArmAbort]

@[simp] theorem execHoldoffSatisfied_lasting (ch : Fin 8) (s : State) :
    resultLasting (execHoldoffSatisfied ch s) = some s.lasting := by
  simp [execHoldoffSatisfied]

@[simp] theorem execXarmChange_lasting (level : Bool) (s : State) :
    resultLasting (execXarmChange level s) = some s.lasting := by
  simp [execXarmChange]

@[simp] theorem State.calEdge_lasting (s : State) (n : Nat) (raw : Instant) :
    (State.calEdge s n raw).lasting = s.lasting := by
  unfold State.calEdge
  split <;> simp

@[simp] theorem execTrigInEdge_lasting (n : Fin 8) (rising : Bool) (held : Nat) (s : State) :
    resultLasting (execTrigInEdge n rising held s) = some s.lasting := by
  simp [execTrigInEdge]

@[simp] theorem execXfireEdge_lasting (s : State) : resultLasting (execXfireEdge s) = some s.lasting := by
  simp [execXfireEdge]

@[simp] theorem execXfirePulseEnd_lasting (s : State) : resultLasting (execXfirePulseEnd s) = some s.lasting := by
  unfold execXfirePulseEnd
  split <;> simp

@[simp] theorem execTrigOutPulseEnd_lasting (k : Fin 4) (s : State) :
    resultLasting (execTrigOutPulseEnd k s) = some s.lasting := by
  unfold execTrigOutPulseEnd
  split <;> simp

@[simp] theorem execCapCalStart_lasting (word : BitVec 32) (s : State) :
    resultLasting (execCapCalStart word s) = some s.lasting := by
  simp [execCapCalStart]

@[simp] theorem execCapCalDone_lasting (s : State) : resultLasting (execCapCalDone s) = some s.lasting := by
  unfold execCapCalDone
  split <;> simp

@[simp] theorem State.capFinish_lasting (s : State) (c : Nat) : (State.capFinish s c).lasting = s.lasting := by
  unfold State.capFinish
  split <;> simp

@[simp] theorem execCaptureCopy_lasting (ch : Fin 8) (s : State) :
    resultLasting (execCaptureCopy ch s) = some s.lasting := by
  simp only [execCaptureCopy]
  (repeat' split) <;> simp

@[simp] theorem execCaptureWindowEnd_lasting (ch : Fin 8) (s : State) :
    resultLasting (execCaptureWindowEnd ch s) = some s.lasting := by
  simp only [execCaptureWindowEnd]
  (repeat' split) <;> simp

@[simp] theorem State.drainWaits_lasting (s : State) (c : Nat) : (State.drainWaits s c).lasting = s.lasting := by
  simp [State.drainWaits]

@[simp] theorem execCaptureDrain_lasting (ch : Fin 8) (dma : Dma) (s : State) :
    resultLasting (execCaptureDrain ch dma s) = some s.lasting := by
  simp only [execCaptureDrain]
  (repeat' split) <;> simp

@[simp] theorem State.schedule_lasting (s : State) (tag action : Nat) (ch : Nat) (t g : Nat) :
    (State.schedule s tag action ch t g).lasting = s.lasting := by
  simp only [State.schedule]
  (repeat' split) <;> simp

@[simp] theorem execScheduleFire_lasting (tag : BitVec 16) (ch : Fin 8) (at_ : Nat) (grace : BitVec 16) (s : State) :
    resultLasting (execScheduleFire tag ch at_ grace s) = some s.lasting := by
  simp [execScheduleFire]

@[simp] theorem execScheduleArm_lasting (tag : BitVec 16) (ch : Fin 8) (at_ : Nat) (grace : BitVec 16) (s : State) :
    resultLasting (execScheduleArm tag ch at_ grace s) = some s.lasting := by
  simp [execScheduleArm]

@[simp] theorem execScheduleDisarm_lasting (tag : BitVec 16) (ch : Fin 8) (at_ : Nat) (grace : BitVec 16) (s : State) :
    resultLasting (execScheduleDisarm tag ch at_ grace s) = some s.lasting := by
  simp [execScheduleDisarm]

@[simp] theorem execScheduleDue_lasting (s : State) : resultLasting (execScheduleDue s) = some s.lasting := by
  simp only [execScheduleDue]
  (repeat' split) <;> simp

/-! ### Hjel (Machine/Hjel.lean) -/

@[simp] theorem State.compareDigests_lasting (s : State) (a b : DigestMsg) :
    (State.compareDigests s a b).lasting = s.lasting := by
  simp [State.compareDigests]

@[simp] theorem State.digestNote_lasting (s : State) (v : Revision) : (State.digestNote s v).lasting = s.lasting := by
  simp [State.digestNote]

@[simp] theorem State.digestSend_lasting (s : State) (t : Instant) (safeOut : Nat) :
    (State.digestSend s t safeOut).lasting = s.lasting := by
  simp only [State.digestSend]
  (repeat' split) <;> simp

@[simp] theorem execDigest_lasting (msg : DigestMsg) (s : State) : resultLasting (execDigest msg s) = some s.lasting := by
  simp only [execDigest]
  (repeat' split) <;> simp

@[simp] theorem execDigestTimeout_lasting (s : State) : resultLasting (execDigestTimeout s) = some s.lasting := by
  simp [execDigestTimeout]

/-! ### State estimation (Machine/Lse.lean) -/

@[simp] theorem State.lseEvent_lasting (s : State) (k i : Nat) : (State.lseEvent s k i).lasting = s.lasting := by
  simp [State.lseEvent]

@[simp] theorem State.swView_lasting (s : State) : (State.swView s).lasting = s.lasting := by
  simp [State.swView]

@[simp] theorem State.setSwitches_lasting (s : State) (c : Cfg) (v : Revision) :
    (State.setSwitches s c v).lasting = s.lasting := by
  simp [State.setSwitches]

@[simp] theorem State.factorRegs_lasting (s : State) : (State.factorRegs s).lasting = s.lasting := by
  simp only [State.factorRegs]
  (repeat' split) <;> simp

@[simp] theorem State.refactor_lasting (s : State) (c : Cfg) (set : List Nat) :
    (State.refactor s c set).lasting = s.lasting := by
  simp only [State.refactor]
  (repeat' split) <;> simp

@[simp] theorem State.checkTopo_lasting (s : State) (c : Cfg) : (State.checkTopo s c).lasting = s.lasting := by
  simp [State.checkTopo]

@[simp] theorem execTopologyLabel_lasting (s : State) : resultLasting (execTopologyLabel s) = some s.lasting := by
  unfold execTopologyLabel
  split <;> simp

@[simp] theorem State.persist_lasting (s : State) (c : Cfg) (v : Revision) : (s.persist c v).2.lasting = s.lasting := by
  unfold State.persist
  exact State.foldl_snd_lasting (fun x e => by simp) _ _

@[simp] theorem State.refactorPresent_lasting (s : State) (c : Cfg) (v : Revision) :
    (State.refactorPresent s c v).lasting = s.lasting := by
  simp [State.refactorPresent]

@[simp] theorem State.countEstimate_lasting (s : State) (e : Estimate) : (State.countEstimate s e).lasting = s.lasting := by
  simp only [State.countEstimate]
  (repeat' split) <;> simp

@[simp] theorem execLseEstimate_lasting (s : State) : resultLasting (execLseEstimate s) = some s.lasting := by
  simp only [execLseEstimate]
  (repeat' split) <;> simp

@[simp] theorem State.cutOver_lasting (s : State) (f : Factor) : (State.cutOver s f).lasting = s.lasting := by
  simp [State.cutOver]

@[simp] theorem execRefactorComplete_lasting (s : State) : resultLasting (execRefactorComplete s) = some s.lasting := by
  simp only [execRefactorComplete]
  (repeat' split) <;> simp

@[simp] theorem State.lseAccept_lasting (s : State) : (State.lseAccept s).lasting = s.lasting := by
  simp [State.lseAccept]

@[simp] theorem State.lseAbandon_lasting (s : State) : (State.lseAbandon s).lasting = s.lasting := by
  simp only [State.lseAbandon]
  (repeat' split) <;> simp

@[simp] theorem State.lseApply_lasting (s : State) (old : Cfg) (b : Instant) :
    (State.lseApply s old b).lasting = s.lasting := by
  simp only [State.lseApply]
  (repeat' split) <;> simp

/-! ### Islands and rules (Machine/Isl.lean) -/

@[simp] theorem State.islEvent_lasting (s : State) (k i : Nat) : (State.islEvent s k i).lasting = s.lasting := by
  simp [State.islEvent]

@[simp] theorem State.pinRegs_lasting (s : State) : (State.pinRegs s).lasting = s.lasting := by
  simp [State.pinRegs]

@[simp] theorem State.setPins_lasting (s : State) : (State.setPins s).lasting = s.lasting := by
  unfold State.setPins
  split <;> simp

@[simp] theorem execAlmOutHalfPeriod_lasting (pin : Fin 16) (s : State) :
    resultLasting (execAlmOutHalfPeriod pin s) = some s.lasting := by
  unfold execAlmOutHalfPeriod
  split <;> simp

@[simp] theorem execAlmReadbackMismatch_lasting (pin : Fin 16) (s : State) :
    resultLasting (execAlmReadbackMismatch pin s) = some s.lasting := by
  simp [execAlmReadbackMismatch]

@[simp] theorem State.sendGoose_lasting (s : State) (p : Nat) (g : GooseState) :
    (State.sendGoose s p g).lasting = s.lasting := by
  simp [State.sendGoose]

@[simp] theorem State.newGoose_lasting (s : State) (p : Nat) (t slice : Instant) (rev epoch : Nat) :
    (State.newGoose s p t slice rev epoch).lasting = s.lasting := by
  simp [State.newGoose]

@[simp] theorem State.pubDecide_lasting (s : State) (p : Nat) (t slice : Instant) (rev epoch : Nat) (fresh : Bool) :
    (State.pubDecide s p t slice rev epoch fresh).lasting = s.lasting := by
  simp only [State.pubDecide]
  (repeat' split) <;> simp

@[simp] theorem State.gooseSilence_lasting (s : State) : (State.gooseSilence s).lasting = s.lasting := by
  simp [State.gooseSilence]

@[simp] theorem execGooseRepeat_lasting (p : Fin 8) (s : State) : resultLasting (execGooseRepeat p s) = some s.lasting := by
  unfold execGooseRepeat
  split <;> simp

@[simp] theorem State.showOutputs_lasting (s : State) (tp : Instant) (rev : Nat) :
    (State.showOutputs s tp rev).lasting = s.lasting := by
  simp [State.showOutputs]

@[simp] theorem State.decideAt_lasting (s : State) (slice : Instant) (rev epoch : Nat) (which : Nat → Bool) :
    (State.decideAt s slice rev epoch which).lasting = s.lasting := by
  simp [State.decideAt]

@[simp] theorem State.decideBoundary_lasting (s : State) (b : Instant) : (s.decideBoundary b).lasting = s.lasting := by
  simp only [State.decideBoundary]
  refine (State.foldl_lasting (fun s p => ?_) _ _).trans (by simp)
  split <;> simp

@[simp] theorem State.compareIslands_lasting (s : State) (new : List Nat) :
    (State.compareIslands s new).lasting = s.lasting := by
  simp [State.compareIslands]

@[simp] theorem State.groupStep_lasting (s : State) (c : Cfg) (v : Revision) (x : CohSlice) (main : Option CohGroup)
    (g : CohGroup) :
    (State.groupStep s c v x main g).2.lasting = s.lasting := by
  simp only [State.groupStep]
  (repeat' split) <;> simp

@[simp] theorem State.groupSteps_lasting (s : State) (c : Cfg) (v : Revision) (x : CohSlice) (main : Option CohGroup)
    (gs : List CohGroup) :
    (State.groupSteps s c v x main gs).2.lasting = s.lasting := by
  induction gs generalizing s with
  | nil => rfl
  | cons g gs ih => simp [State.groupSteps, ih]

@[simp] theorem State.coherency_lasting (s : State) (c : Cfg) (v : Revision) :
    (State.coherency s c v).2.lasting = s.lasting := by
  simp only [State.coherency]
  (repeat' split) <;> simp

@[simp] theorem execRecluster_lasting (s : State) : resultLasting (execRecluster s) = some s.lasting := by
  unfold execRecluster
  split <;> simp

@[simp] theorem execReclusterDone_lasting (s : State) : resultLasting (execReclusterDone s) = some s.lasting := by
  simp only [execReclusterDone]
  (repeat' split) <;> simp

@[simp] theorem State.countConf_lasting (s : State) (c : Cfg) (recs : List IslandRec) :
    (State.countConf s c recs).lasting = s.lasting := by
  simp [State.countConf]

@[simp] theorem execConfMiss_lasting (s : State) : resultLasting (execConfMiss s) = some s.lasting := by
  unfold execConfMiss
  split <;> simp

@[simp] theorem State.ruleStep_lasting (s : State) (c : Cfg) (v : Revision) (w : IslandView) (waits : Bool) (i : Nat)
    (r : Rec) :
    (State.ruleStep s c v w waits i r).2.lasting = s.lasting := by
  simp only [State.ruleStep]
  (repeat' split) <;> simp

@[simp] theorem State.islStat_lasting (s : State) (recs : List IslandRec) (declared : List Nat) :
    (State.islStat s recs declared).lasting = s.lasting := by
  simp [State.islStat]

@[simp] theorem State.produceIsl_lasting (s : State) (r : IslResult) (v : Revision) :
    (State.produceIsl s r v).lasting = s.lasting := by
  simp [State.produceIsl]

@[simp] theorem State.evalRules_lasting (s : State) (v : Revision) : (s.evalRules v).lasting = s.lasting := by
  simp [State.evalRules]

@[simp] theorem execRuleEval_lasting (s : State) : resultLasting (execRuleEval s) = some s.lasting := by
  unfold execRuleEval
  split <;> simp

@[simp] theorem State.agreed_lasting (s : State) (c : Compare) : (s.agreed c).lasting = s.lasting := by
  cases c with
  | rules t rev epoch missed states res => cases res <;> simp [State.agreed]
  | graph g run => rfl

@[simp] theorem State.islApply_lasting (s : State) (old : Cfg) (b : Instant) :
    (State.islApply s old b).lasting = s.lasting := by
  simp [State.islApply]

/-! ### Mode tracking (Machine/Osc.lean) -/

@[simp] theorem State.oscEvent_lasting (s : State) (k set i : Nat) : (State.oscEvent s k set i).lasting = s.lasting := by
  simp [State.oscEvent]

@[simp] theorem State.oscStat_lasting (s : State) (n : Nat) : (State.oscStat s n).lasting = s.lasting := by
  simp [State.oscStat]

@[simp] theorem State.setOsc_lasting (s : State) (n : Nat) (g : OscSet) : (State.setOsc s n g).lasting = s.lasting := by
  simp [State.setOsc]

@[simp] theorem State.oscSlice_lasting (s : State) (c : Cfg) (n : Nat) (v : Revision) :
    (s.oscSlice c n v).lasting = s.lasting := by
  simp only [State.oscSlice, State.setOsc_lasting]
  exact State.foldl_fst_lasting (fun x e => by simp) _ _

@[simp] theorem State.produceOsc_lasting (s : State) (r : OscResult) (k : Nat) :
    (State.produceOsc s r k).lasting = s.lasting := by
  simp [State.produceOsc]

@[simp] theorem State.oscWarm_lasting (s : State) (c : Cfg) (n : Nat) (t : Instant) :
    (State.oscWarm s c n t).2.2.lasting = s.lasting := by
  simp only [State.oscWarm]
  (repeat' split) <;> simp

@[simp] theorem State.setAlarm_lasting (s : State) (set i : Nat) (a : OscAlarm) :
    (State.setAlarm s set i a).lasting = s.lasting := by
  simp [State.setAlarm]

@[simp] theorem State.oscAlarms_lasting (s : State) (c : Cfg) (n : Nat) (modes : List OscMode) (fos : List OscFo) :
    (State.oscAlarms s c n modes fos).lasting = s.lasting := by
  simp [State.oscAlarms]

@[simp] theorem State.oscModes_lasting (s : State) (c : Cfg) (n : Nat) (t : Instant) (advance : Bool) :
    (State.oscModes s c n t advance).2.lasting = s.lasting := by
  simp [State.oscModes]

@[simp] theorem State.oscTake_lasting (c : Cfg) (v : Revision) (s : State) (n : Nat) :
    (State.oscTake c v s n).lasting = s.lasting := by
  simp only [State.oscTake]
  (repeat' split) <;> simp

@[simp] theorem execOscSample_lasting (s : State) : resultLasting (execOscSample s) = some s.lasting := by
  unfold execOscSample
  split <;> simp

@[simp] theorem execOscUpdate_lasting (set : Fin 16) (s : State) :
    resultLasting (execOscUpdate set s) = some s.lasting := by
  simp only [execOscUpdate]
  (repeat' split) <;> simp

@[simp] theorem State.oscRevise_lasting (c : Cfg) (v : Revision) (s : State) (n : Nat) :
    (State.oscRevise c v s n).lasting = s.lasting := by
  simp only [State.oscRevise]
  (repeat' split) <;> simp

@[simp] theorem execOscRevision_lasting (s : State) : resultLasting (execOscRevision s) = some s.lasting := by
  unfold execOscRevision
  split <;> simp

@[simp] theorem State.oscApply_lasting (s : State) (old : Cfg) (b : Instant) :
    (State.oscApply s old b).lasting = s.lasting := by
  simp [State.oscApply]

/-! ### Publication (Machine/Pub.lean) -/

@[simp] theorem State.setOutput_lasting (s : State) (o : Nat) (b : Bool) : (State.setOutput s o b).lasting = s.lasting := by
  simp [State.setOutput]

@[simp] theorem State.outTrailer_lasting (s : State) (r : Rec) (v : Revision) (msg : List Byte) :
    (State.outTrailer s r v msg).2.lasting = s.lasting := by
  unfold State.outTrailer
  split <;> simp

@[simp] theorem State.queueOutput_lasting (s : State) (o : Nat) (r : Rec) (v : Revision) (body : TxBody)
    (payload : Nat) :
    (State.queueOutput s o r v body payload).lasting = s.lasting := by
  simp [State.queueOutput]

@[simp] theorem State.sendOutput_lasting (s : State) (c : Cfg) (o : Nat) (r : Rec) (v : Revision) :
    (s.sendOutput c o r v).lasting = s.lasting := by
  simp only [State.sendOutput]
  split
  · have hk := State.outTrailer_lasting s r v (s.dataFrame c o r v ++ s.pubTrailer v)
    split <;> simp_all
  · simp [apply_ite Prod.snd]

@[simp] theorem execOutputFrame_lasting (s : State) : resultLasting (execOutputFrame s) = some s.lasting := by
  unfold execOutputFrame
  split <;> simp

@[simp] theorem State.turn_lasting (s : State) (o : Nat) (b : Bool) : (State.turn s o b).lasting = s.lasting := by
  simp [State.turn]

@[simp] theorem State.cmdTrailer_lasting (s : State) (r : Rec) (m : C37) :
    (State.cmdTrailer s r m).2.lasting = s.lasting := by
  simp only [State.cmdTrailer]
  (repeat' split) <;> simp

@[simp] theorem execC37118CmdFrame_lasting (s : State) : resultLasting (execC37118CmdFrame s) = some s.lasting := by
  simp only [execC37118CmdFrame]
  split
  · rfl
  · next p u h =>
    rw [← State.takeParsed_lasting h]
    (repeat' split) <;> simp

@[simp] theorem State.takeItem_lasting (s : State) (i : PubItem) : (State.takeItem s i).lasting = s.lasting := by
  simp [State.takeItem]

@[simp] theorem execPubDeliver_lasting (ring : Fin 64) (dma : Dma) (s : State) :
    resultLasting (execPubDeliver ring dma s) = some s.lasting := by
  simp only [execPubDeliver]
  (repeat' split) <;> simp

@[simp] theorem State.pubApply_lasting (s : State) (old : Cfg) (b : Instant) :
    (State.pubApply s old b).lasting = s.lasting := by
  simp [State.pubApply]

/-! ### Field sensor link (Machine/Fsl.lean) -/

@[simp] theorem State.fslEvent_lasting (s : State) (k i : Nat) : (State.fslEvent s k i).lasting = s.lasting := by
  simp [State.fslEvent]

@[simp] theorem State.fslShow_lasting (s : State) : (State.fslShow s).lasting = s.lasting := by
  simp [State.fslShow]

@[simp] theorem State.setSensor_lasting (s : State) (n : Nat) (x : Sensor) :
    (State.setSensor s n x).lasting = s.lasting := by
  simp [State.setSensor]

@[simp] theorem State.setDls_lasting (s : State) (l : List Downlink) : (State.setDls s l).lasting = s.lasting := by
  simp [State.setDls]

@[simp] theorem State.setFslIf_lasting (s : State) (i : Nat) (x : FslIf) : (State.setFslIf s i x).lasting = s.lasting := by
  simp [State.setFslIf]

@[simp] theorem State.fslNoKey_lasting (s : State) (i : Nat) : (State.fslNoKey s i).lasting = s.lasting := by
  simp [State.fslNoKey]

@[simp] theorem State.fslCounter_lasting (s : State) (i : Nat) : (State.fslCounter s i).2.lasting = s.lasting := by
  simp only [State.fslCounter]
  (repeat' split) <;> simp

@[simp] theorem State.fslWatch1_lasting (s : State) (i : Nat) : (State.fslWatch1 s i).lasting = s.lasting := by
  simp only [State.fslWatch1]
  (repeat' split) <;> simp

@[simp] theorem State.fslWatch_lasting (s : State) : (State.fslWatch s).lasting = s.lasting := by
  simp [State.fslWatch]

@[simp] theorem State.beaconMissed_lasting (s : State) (i n : Nat) : (State.beaconMissed s i n).lasting = s.lasting := by
  simp [State.beaconMissed]

@[simp] theorem State.sendBeacon_lasting (s : State) (i n : Nat) : (s.sendBeacon i n).lasting = s.lasting := by
  have hctr := State.fslCounter_lasting s i
  unfold State.sendBeacon
  split
  · next u h =>
    rw [h] at hctr
    simpa using hctr
  · next ctr u h =>
    rw [h] at hctr
    simpa using hctr

@[simp] theorem execBeacon_lasting (i : Fin 2) (s : State) : resultLasting (execBeacon i s) = some s.lasting := by
  simp [execBeacon]

@[simp] theorem State.fslReading_lasting (s : State) (c : Cfg) (n i : Nat) (r : Rec) (sfd : Instant) (p : List Byte)
    (stale : Bool) :
    (State.fslReading s c n i r sfd p stale).lasting = s.lasting := by
  simp [State.fslReading]

@[simp] theorem execFslFrameReceive_lasting (i : Fin 2) (frame : FslFrame) (s : State) :
    resultLasting (execFslFrameReceive i frame s) = some s.lasting := by
  unfold execFslFrameReceive
  extract_lets sfd c s' mine
  have hs' : s'.lasting = s.lasting := State.bump_lasting _ _ _ _
  split
  · rfl
  · split
    · simp [hs']
    · split
      · simp [hs']
      · next n r h =>
        extract_lets pend s'' fail
        have hs'' : s''.lasting = s.lasting := by simp [s'', hs']
        have hfail : ∀ u : State, resultLasting (fail u) = some u.lasting := fun u => by simp [fail]
        split
        · rw [hfail, hs'']
        · split
          next k stale u hk =>
          have hkey : u.lasting = s.lasting := by
            rw [← hs'']
            have := State.keyBegan_lasting s'' (c.fld (Reg.FSL_SEC_KEY_SLOT i)) 2 useFsl (s''.now - frame.began)
            rw [hk] at this
            exact this
          extract_lets payload mic x u1 u2 u3 f
          split
          · rw [hfail, hkey]
          · have hend : u3.lasting = s.lasting := by simp [u3, u2, u1, hkey]
            split
            · simp [hkey]
            · simp [hkey]
            · split <;> simp [hend]

@[simp] theorem execSensorSilent_lasting (sensor : Fin 1024) (s : State) :
    resultLasting (execSensorSilent sensor s) = some s.lasting := by
  simp [execSensorSilent]

@[simp] theorem State.dlDone_lasting (s : State) (d : Downlink) (st : Status) :
    (State.dlDone s d st).lasting = s.lasting := by
  simp [State.dlDone]

@[simp] theorem State.dlDrop_lasting (s : State) (p : Downlink → Bool) : (State.dlDrop s p).lasting = s.lasting := by
  simp [State.dlDrop]

@[simp] theorem execDownlinkSend_lasting (i : Fin 2) (s : State) :
    resultLasting (execDownlinkSend i s) = some s.lasting := by
  have hctr := State.fslCounter_lasting s i
  simp only [execDownlinkSend]
  (repeat' split) <;> simp_all

@[simp] theorem execDownlinkAckReceive_lasting (i : Fin 2) (dsn : BitVec 8) (s : State) :
    resultLasting (execDownlinkAckReceive i dsn s) = some s.lasting := by
  simp only [execDownlinkAckReceive]
  (repeat' split) <;> simp

@[simp] theorem execDownlinkAckTimeout_lasting (i : Fin 2) (s : State) :
    resultLasting (execDownlinkAckTimeout i s) = some s.lasting := by
  simp only [execDownlinkAckTimeout]
  (repeat' split) <;> simp

@[simp] theorem execDownlinkExpiry_lasting (i : Fin 2) (s : State) :
    resultLasting (execDownlinkExpiry i s) = some s.lasting := by
  unfold execDownlinkExpiry
  split <;> simp

@[simp] theorem State.fslConfigure_lasting (s : State) (i : Nat) : (State.fslConfigure s i).lasting = s.lasting := by
  simp [State.fslConfigure]

@[simp] theorem execTransceiverReset_lasting (i : Fin 2) (alive : Bool) (s : State) :
    resultLasting (execTransceiverReset i alive s) = some s.lasting := by
  simp [execTransceiverReset]

@[simp] theorem State.txFrame_lasting (s : State) (r d : Nat) (bytes : List Byte) (ptp : Option
    (PtpKind × BitVec 16)) :
    (State.txFrame s r d bytes ptp).lasting = s.lasting := by
  simp [State.txFrame]

theorem State.txHead_lasting {s t : State} {r : Nat} {bytes : List Byte} {ptp : Option (PtpKind × BitVec 16)} {dma : Dma}
    (h : s.txHead r bytes ptp dma = some t) : t.lasting = s.lasting := by
  simp only [State.txHead] at h
  (repeat' split at h) <;> cases h <;> simp

@[simp] theorem execTxDescriptor_lasting (ring : Fin 64) (bytes : List Byte) (ptp : Option (PtpKind × BitVec 16))
    (dma : Dma) (s : State) :
    resultLasting (execTxDescriptor ring bytes ptp dma s) = some s.lasting := by
  unfold execTxDescriptor
  cases h : s.txHead ring bytes ptp dma with
  | none => rfl
  | some t => simp [State.txHead_lasting h]

@[simp] theorem execTxCellsFreed_lasting (ring : Fin 64) (bytes : List Byte) (ptp : Option (PtpKind × BitVec 16))
    (dma : Dma) (s : State) :
    resultLasting (execTxCellsFreed ring bytes ptp dma s) = some s.lasting := by
  unfold execTxCellsFreed
  split
  · next t h => simp [State.txHead_lasting h]
  · rfl

@[simp] theorem State.fslApply_lasting (s : State) (old : Cfg) (b : Instant) :
    (State.fslApply s old b).lasting = s.lasting := by
  simp [State.fslApply]

/-! ### Scheduler and engines (Machine/Sched.lean) -/

@[simp] theorem State.schedEvent_lasting (s : State) (k i : Nat) : (State.schedEvent s k i).lasting = s.lasting := by
  simp [State.schedEvent]

@[simp] theorem State.setEngine_lasting (s : State) (e : Nat) (x : Engine) :
    (State.setEngine s e x).lasting = s.lasting := by
  simp [State.setEngine]

@[simp] theorem State.setCluster_lasting (s : State) (c : Nat) (x : Cluster) :
    (State.setCluster s c x).lasting = s.lasting := by
  simp [State.setCluster]

@[simp] theorem State.setWardenPair_lasting (s : State) (p : Nat) (x : WardenPair) :
    (State.setWardenPair s p x).lasting = s.lasting := by
  simp [State.setWardenPair]

@[simp] theorem State.setRun_lasting (s : State) (r : GRun) : (State.setRun s r).lasting = s.lasting := by
  simp [State.setRun]

@[simp] theorem State.dropRun_lasting (s : State) (id : Nat) : (State.dropRun s id).lasting = s.lasting := by
  simp [State.dropRun]

@[simp] theorem State.setIqueue_lasting (s : State) (q : Nat) (x : IQueue) :
    (State.setIqueue s q x).lasting = s.lasting := by
  simp [State.setIqueue]

@[simp] theorem State.queueShow_lasting (s : State) : (State.queueShow s).lasting = s.lasting := by
  simp [State.queueShow]

@[simp] theorem State.setIdle_lasting (s : State) (qs : List Nat) : (State.setIdle s qs).lasting = s.lasting := by
  simp only [State.setIdle]
  (repeat' split) <;> simp

@[simp] theorem State.queueOverflow_lasting (s : State) (q : Nat) : (State.queueOverflow s q).lasting = s.lasting := by
  simp [State.queueOverflow]

@[simp] theorem State.queueEmpty_lasting (s : State) (q : Nat) : (State.queueEmpty s q).lasting = s.lasting := by
  simp [State.queueEmpty]

@[simp] theorem State.queueMove_lasting (s : State) (q : Nat) (push : Option (Nat × Bool × Bool)) (pop : Bool) :
    (State.queueMove s q push pop).lasting = s.lasting := by
  simp [State.queueMove]

@[simp] theorem State.queueAct_lasting (s : State) (a : QueueAct) : (State.queueAct s a).lasting = s.lasting := by
  simp only [State.queueAct]
  (repeat' split) <;> simp

@[simp] theorem State.setChain_lasting (s : State) (x : Chain) : (State.setChain s x).lasting = s.lasting := by
  simp [State.setChain]

@[simp] theorem State.schedShow_lasting (s : State) : s.schedShow.lasting = s.lasting := by
  simp only [State.schedShow, State.wr_lasting, State.wrB_lasting, State.foldl_lasting, implies_true]

@[simp] theorem State.produceGraph_lasting (s : State) (r : GraphResult) (k : Nat) (material : Bool) :
    (State.produceGraph s r k material).lasting = s.lasting := by
  simp [State.produceGraph]

@[simp] theorem State.emptyGraph_lasting (s : State) (g : Nat) (d : Rec) (rev status : Nat) (t : Instant)
    (epoch k : Nat) (material : Bool) :
    (State.emptyGraph s g d rev status t epoch k material).lasting = s.lasting := by
  simp [State.emptyGraph]

@[simp] theorem State.skipGraph_lasting (s : State) (g : Nat) (d : Rec) (rev : Nat) (t : Instant) (epoch k : Nat)
    (material : Bool) :
    (State.skipGraph s g d rev t epoch k material).lasting = s.lasting := by
  simp [State.skipGraph]

@[simp] theorem State.deliverRun_lasting (s : State) (r : GRun) : (State.deliverRun s r).lasting = s.lasting := by
  simp [State.deliverRun]

@[simp] theorem State.unhold_lasting (s : State) (c : Nat) (id inst : Nat) :
    (State.unhold s c id inst).lasting = s.lasting := by
  simp [State.unhold]

@[simp] theorem State.instanceReleased_lasting (s : State) (r : GRun) :
    (State.instanceReleased s r).lasting = s.lasting := by
  simp [State.instanceReleased]

@[simp] theorem State.releaseFlow_lasting (g inst n : Nat) (s : State) :
    (State.releaseFlow g inst n s).lasting = s.lasting := by
  induction n generalizing s with
  | zero => rfl
  | succ n ih =>
    simp only [State.releaseFlow]
    (repeat' split) <;> simp [ih]

theorem State.takePlace_lasting {s t : State} {c : Nat} {r : GRun} {inst : Nat} (h : s.takePlace c r inst = some t) :
    t.lasting = s.lasting := by
  simp only [State.takePlace] at h
  split at h
  · rw [← Option.some.inj h]
    simp
  · cases h

@[simp] theorem State.instanceDone_lasting (s : State) (r : GRun) (inst e : Nat) :
    (s.instanceDone r inst e).lasting = s.lasting := by
  unfold State.instanceDone
  extract_lets r' r'' u first
  have hrun : u.lasting = s.lasting := State.setRun_lasting _ _
  split
  · simp [hrun]
  · split
    · next t h => rw [State.takePlace_lasting h, hrun]
    · simp [hrun]

@[simp] theorem execReleaseStageFree_lasting (c : Fin 16) (s : State) :
    resultLasting (execReleaseStageFree c s) = some s.lasting := by
  simp only [execReleaseStageFree]
  split
  · rfl
  · split
    · rfl
    · split
      · rfl
      · next t h => simp [State.takePlace_lasting h]

@[simp] theorem State.makeReady_lasting (s : State) (r : GRun) (inst : Nat) (ks : List Nat) :
    (State.makeReady s r inst ks).lasting = s.lasting := by
  simp [State.makeReady]

@[simp] theorem execEngineDispatch_lasting (e : Fin 64) (s : State) :
    resultLasting (execEngineDispatch e s) = some s.lasting := by
  simp only [execEngineDispatch]
  (repeat' split) <;> simp

@[simp] theorem execAffWaitExpiry_lasting (c : Fin 16) (s : State) :
    resultLasting (execAffWaitExpiry c s) = some s.lasting := by
  simp [execAffWaitExpiry]

@[simp] theorem State.runNode_lasting (s : State) (r : GRun) (inst k : Nat) :
    (State.runNode s r inst k).2.lasting = s.lasting := by
  simp [State.runNode]

@[simp] theorem execOpComplete_lasting (e : Fin 64) (acts : List QueueAct) (s : State) :
    resultLasting (execOpComplete e acts s) = some s.lasting := by
  simp only [execOpComplete]
  (repeat' split) <;> simp

@[simp] theorem State.newRun_lasting (s : State) (c : Cfg) (g : Nat) (d : Rec) (v : Revision) (timed : Bool)
    (start t : Instant) (epoch : Nat) (place : Nat × Nat) :
    (State.newRun s c g d v timed start t epoch place).2.lasting = s.lasting := by
  simp [State.newRun]

@[simp] theorem State.clearHist_lasting (s : State) (g : Nat) : (State.clearHist s g).lasting = s.lasting := by
  simp [State.clearHist]

@[simp] theorem State.startGraph_lasting (s : State) (c : Cfg) (place : KV (Nat × Nat)) (v : Revision) (g : Nat)
    (d : Rec) :
    (State.startGraph s c place v g d).lasting = s.lasting := by
  simp only [State.startGraph]
  (repeat' split) <;> simp

@[simp] theorem execGraphRunStart_lasting (s : State) : resultLasting (execGraphRunStart s) = some s.lasting := by
  unfold execGraphRunStart
  split <;> simp

@[simp] theorem execGraphTimedStart_lasting (g : Fin 64) (s : State) :
    resultLasting (execGraphTimedStart g s) = some s.lasting := by
  simp only [execGraphTimedStart]
  (repeat' split) <;> simp

@[simp] theorem execDelayTick_lasting (c : Fin 16) (s : State) : resultLasting (execDelayTick c s) = some s.lasting := by
  simp only [execDelayTick, resultLasting_next, State.schedShow_lasting, Option.some_inj]
  refine (State.foldl_lasting (fun s e => ?_) _ _).trans (by simp)
  split <;> simp

@[simp] theorem State.mismatch_lasting (s : State) (x : Compare) : (State.mismatch s x).lasting = s.lasting := by
  unfold State.mismatch
  split <;> simp

@[simp] theorem State.compared_lasting (s : State) (x : Compare) : (State.compared s x).lasting = s.lasting := by
  simp only [State.compared]
  (repeat' split) <;> simp

@[simp] theorem execSafetyCompare_lasting (agree : Bool) (s : State) :
    resultLasting (execSafetyCompare agree s) = some s.lasting := by
  unfold execSafetyCompare
  split <;> simp

@[simp] theorem execSafetyDeadlineMiss_lasting (s : State) : resultLasting (execSafetyDeadlineMiss s) = some s.lasting := by
  unfold execSafetyDeadlineMiss
  split <;> simp

@[simp] theorem State.itemTook_lasting (s : State) (us : Nat) : (State.itemTook s us).lasting = s.lasting := by
  simp [State.itemTook]

@[simp] theorem execWardenItemStart_lasting (pair : Fin 2) (us : Nat) (made : List WardenItem) (s : State) :
    resultLasting (execWardenItemStart pair us made s) = some s.lasting := by
  simp only [execWardenItemStart]
  (repeat' split) <;> simp

@[simp] theorem execWardenItemOverrun_lasting (pair : Fin 2) (us : Nat) (s : State) :
    resultLasting (execWardenItemOverrun pair us s) = some s.lasting := by
  simp [execWardenItemOverrun]

@[simp] theorem execWrdStatRead_lasting (s : State) : resultLasting (execWrdStatRead s) = some s.lasting := by
  simp [execWrdStatRead]

@[simp] theorem State.schedApply_lasting (s : State) (old : Cfg) (b : Instant) :
    (State.schedApply s old b).lasting = s.lasting := by
  simp [State.schedApply]

/-! ### Keys (Machine/Key.lean) -/

@[simp] theorem State.setSlot_lasting (s : State) (i : Nat) (k : KeySlot) : (State.setSlot s i k).lasting = s.lasting := by
  simp [State.setSlot]

@[simp] theorem State.keyShow_lasting (s : State) : (State.keyShow s).lasting = s.lasting := by
  simp [State.keyShow]

@[simp] theorem State.bindKeys_lasting (s : State) : (State.bindKeys s).lasting = s.lasting := by
  simp [State.bindKeys]

@[simp] theorem State.invalidate_lasting (s : State) (l : List Nat) : (s.invalidate l).lasting = s.lasting := by
  simp only [State.invalidate, State.keyShow_lasting, State.fslWatch_lasting, State.raise_lasting]
  refine State.foldl_lasting (fun s i => ?_) _ _
  split <;> simp

@[simp] theorem State.zeroize_lasting (s : State) (reason : Nat) (unpowered : Bool) :
    (State.zeroize s reason unpowered).lasting = s.lasting := by
  simp [State.zeroize]

@[simp] theorem State.keyDone_lasting (s : State) (tag : BitVec 16) (i : Nat) (st : Status) :
    resultLasting (State.keyDone s tag i st) = some s.lasting := by
  simp [State.keyDone]

theorem State.keyOp_lasting {f : State → Result} (h : ∀ u, resultLasting (f u) = some u.lasting) (s : State)
    (tag : BitVec 16) (i : Nat) :
    resultLasting (s.keyOp tag i f) = some s.lasting := by
  unfold State.keyOp State.dequeued
  (repeat' split) <;> simp [h]

@[simp] theorem execKeyOpInfo_lasting (tag : BitVec 16) (slot : Fin 256) (len : BitVec 32) (addr : BitVec 48)
    (dma : Dma) (s : State) :
    resultLasting (execKeyOpInfo tag slot len addr dma s) = some s.lasting := by
  simp [execKeyOpInfo]

@[simp] theorem State.writeKey_lasting (s : State) (tag : BitVec 16) (slot parent : Nat) (req : KeyReq) (key : Nat)
    (imported : Bool) (took : Nat) :
    resultLasting (State.writeKey s tag slot parent req key imported took) = some s.lasting := by
  simp [State.writeKey]

theorem State.makeKey_lasting {f : State → Result} (h : ∀ u, resultLasting (f u) = some u.lasting) (s : State) (tag : BitVec 16)
    (slot parent len want : Nat) (addr : BitVec 48) (dma : Dma) (req : KeyReq) (root : Bool) :
    resultLasting (s.makeKey tag slot parent len want addr dma req root f) = some s.lasting := by
  unfold State.makeKey
  refine State.keyOp_lasting (fun u => ?_) s tag slot
  simp only []
  (repeat' split) <;> simp [h]

@[simp] theorem execKeyOpDerive_lasting (tag : BitVec 16) (slot parent : Fin 256) (len : BitVec 32) (addr : BitVec 48)
    (dma : Dma) (req : KeyReq) (took : Nat) (s : State) :
    resultLasting (execKeyOpDerive tag slot parent len addr dma req took s) = some s.lasting := by
  unfold execKeyOpDerive
  refine State.makeKey_lasting (fun u => ?_) _ _ _ _ _ _ _ _ _ _
  simp only []
  (repeat' split) <;> simp

@[simp] theorem execKeyOpImport_lasting (tag : BitVec 16) (slot parent : Fin 256) (len : BitVec 32) (addr : BitVec 48)
    (dma : Dma) (req : KeyReq) (took : Nat) (s : State) :
    resultLasting (execKeyOpImport tag slot parent len addr dma req took s) = some s.lasting := by
  unfold execKeyOpImport
  refine State.makeKey_lasting (fun u => ?_) _ _ _ _ _ _ _ _ _ _
  simp only []
  (repeat' split) <;> simp

@[simp] theorem execKeyOpInvalidate_lasting (tag : BitVec 16) (slot : Fin 256) (len : BitVec 32) (s : State) :
    resultLasting (execKeyOpInvalidate tag slot len s) = some s.lasting := by
  unfold execKeyOpInvalidate
  refine State.keyOp_lasting (fun u => ?_) _ _ _
  split <;> simp

@[simp] theorem execKeyOpErase_lasting (tag : BitVec 16) (slot : Fin 256) (len : BitVec 32) (s : State) :
    resultLasting (execKeyOpErase tag slot len s) = some s.lasting := by
  unfold execKeyOpErase
  refine State.keyOp_lasting (fun u => ?_) _ _ _
  simp only []
  (repeat' split) <;> simp

@[simp] theorem execKeyOpZeroize_lasting (tag : BitVec 16) (len : BitVec 32) (s : State) :
    resultLasting (execKeyOpZeroize tag len s) = some s.lasting := by
  unfold execKeyOpZeroize
  refine State.keyOp_lasting (fun u => ?_) _ _ _
  split <;> simp

@[simp] theorem execKeyExpiry_lasting (slot : Fin 256) (s : State) :
    resultLasting (execKeyExpiry slot s) = some s.lasting := by
  simp [execKeyExpiry]

@[simp] theorem State.attest_lasting (s : State) (key : Nat) (w : AttWait) :
    (State.attest s key w).lasting = s.lasting := by
  simp [State.attest]

@[simp] theorem execAttest_lasting (tag : BitVec 16) (len : BitVec 32) (addr : BitVec 48) (challenge : List Byte)
    (dma : Dma) (s : State) :
    resultLasting (execAttest tag len addr challenge dma s) = some s.lasting := by
  simp only [execAttest]
  (repeat' split) <;> simp

@[simp] theorem State.deriveAtt_lasting (s : State) : (State.deriveAtt s).lasting = s.lasting := by
  simp [State.deriveAtt]

@[simp] theorem execAttestKeyDerive_lasting (s : State) : resultLasting (execAttestKeyDerive s) = some s.lasting := by
  simp [execAttestKeyDerive]

@[simp] theorem execDebugRequest_lasting (token : Option (BitVec 128)) (s : State) :
    resultLasting (execDebugRequest token s) = some s.lasting := by
  simp only [execDebugRequest]
  (repeat' split) <;> simp

/-! ### Staging and update (Machine/Stage.lean) -/

@[simp] theorem State.queued_lasting (s : State) (i : Instr) (t : State) : resultLasting (s.queued i t) =
    some (if s.hif.heldCinch.isSome then s.lasting else t.lasting) := by
  unfold State.queued
  split <;> simp

@[simp] theorem State.loadDone_lasting (s : State) (tag : Nat) (st : Status) (magic count : Nat) :
    (State.loadDone s tag st magic count).lasting = s.lasting := by
  simp [State.loadDone]

@[simp] theorem State.tableLoad_lasting (s : State) (tag : BitVec 16) (len : BitVec 32) (image : TableImage)
    (addr : BitVec 48) (dma : Dma) :
    (State.tableLoad s tag len image addr dma).lasting = s.lasting := by
  simp only [State.tableLoad]
  (repeat' split) <;> simp

@[simp] theorem execTableLoad_lasting (tag : BitVec 16) (len : BitVec 32) (image : TableImage) (addr : BitVec 48)
    (dma : Dma) (s : State) :
    resultLasting (execTableLoad tag len image addr dma s) = some s.lasting := by
  simp [execTableLoad]

@[simp] theorem State.forwardDone_lasting (s : State) (f : Nat × Nat × Nat) :
    (State.forwardDone s f).lasting = s.lasting := by
  simp [State.forwardDone]

@[simp] theorem State.forwardsLost_lasting (s : State) : (State.forwardsLost s).lasting = s.lasting := by
  simp [State.forwardsLost]

@[simp] theorem execTableForward_lasting (tag : Option (BitVec 16)) (image : TableImage) (s : State) :
    resultLasting (execTableForward tag image s) = some s.lasting := by
  unfold execTableForward
  split <;> simp

@[simp] theorem execTableForwardAck_lasting (tag : Option (BitVec 16)) (s : State) :
    resultLasting (execTableForwardAck tag s) = some s.lasting := by
  simp only [execTableForwardAck]
  (repeat' split) <;> simp

@[simp] theorem State.stageWord_lasting (s : State) (a v : Nat) : (State.stageWord s a v).lasting = s.lasting := by
  simp [State.stageWord]

@[simp] theorem execStagedWriteForward_lasting (addr : BitVec 26) (value : BitVec 32) (s : State) :
    resultLasting (execStagedWriteForward addr value s) = some s.lasting := by
  simp [execStagedWriteForward]

@[simp] theorem State.updEvent_lasting (s : State) (k : Nat) : (State.updEvent s k).lasting = s.lasting := by
  simp [State.updEvent]

@[simp] theorem updResult_lasting (s : State) (code : Nat) : (updResult s code).lasting = s.lasting := by
  simp [updResult]

@[simp] theorem State.dirShow_lasting (s : State) : (State.dirShow s).lasting = s.lasting := by
  simp [State.dirShow]

@[simp] theorem State.writeDir_lasting (s : State) (d : Directory) : (State.writeDir s d).lasting = s.lasting := by
  simp [State.writeDir]

@[simp] theorem State.stageDone_lasting (s : State) (tag : Nat) (st : Status) (code source ver : Nat) :
    (State.stageDone s tag st code source ver).lasting = s.lasting := by
  simp [State.stageDone]

@[simp] theorem State.source_lasting {s : State} {f : State → State} (h : ∀ u, (f u).lasting = u.lasting)
    (tag : BitVec 16) (source : Nat) (image : Option Image) :
    (s.source tag source image f).lasting = s.lasting := by
  simp [State.source, h]

@[simp] theorem State.stageImage_lasting (s : State) (tag : BitVec 16) (len : BitVec 32) (addr : BitVec 48)
    (dma : Dma) (image : Image) :
    (State.stageImage s tag len addr dma image).lasting = s.lasting := by
  simp [State.stageImage]

@[simp] theorem execUpdateStageStage_lasting (tag : BitVec 16) (len : BitVec 32) (addr : BitVec 48) (dma : Dma)
    (image : Image) (s : State) :
    resultLasting (execUpdateStageStage tag len addr dma image s) = some s.lasting := by
  simp [execUpdateStageStage]

@[simp] theorem State.pullImage_lasting (s : State) (tag : BitVec 16) : (State.pullImage s tag).lasting = s.lasting := by
  simp [State.pullImage]

@[simp] theorem execUpdateStagePull_lasting (tag : BitVec 16) (s : State) :
    resultLasting (execUpdateStagePull tag s) = some s.lasting := by
  simp [execUpdateStagePull]

@[simp] theorem execPullRequest_lasting (unit : Fin 16) (s : State) :
    resultLasting (execPullRequest unit s) = some s.lasting := by
  unfold execPullRequest
  split <;> simp

@[simp] theorem State.startWrite_lasting (s : State) (x : Staging) (i : Image) :
    (State.startWrite s x i).lasting = s.lasting := by
  simp [State.startWrite]

@[simp] theorem execImageVerified_lasting (done : List (Fin 16 × Option Image)) (s : State) :
    resultLasting (execImageVerified done s) = some s.lasting := by
  simp only [execImageVerified, resultLasting_next, Option.some_inj]
  refine (State.foldl_lasting (fun s g => by simp) _ _).trans ((State.foldl_lasting (fun s e => ?_) _ _).trans (by simp))
  split <;> simp

@[simp] theorem execSlotWriteComplete_lasting (equal : Bool) (s : State) :
    resultLasting (execSlotWriteComplete equal s) = some s.lasting := by
  simp only [execSlotWriteComplete]
  (repeat' split) <;> simp

@[simp] theorem State.abandon_lasting (s : State) (tag : BitVec 16) : (State.abandon s tag).lasting = s.lasting := by
  simp [State.abandon]

@[simp] theorem execUpdateStageAbandon_lasting (tag : BitVec 16) (s : State) :
    resultLasting (execUpdateStageAbandon tag s) = some s.lasting := by
  simp [execUpdateStageAbandon]

@[simp] theorem State.saveCfg_lasting (s : State) (tag : BitVec 16) : (State.saveCfg s tag).lasting = s.lasting := by
  simp [State.saveCfg]

@[simp] theorem execUpdateStageSaveCfg_lasting (tag : BitVec 16) (s : State) :
    resultLasting (execUpdateStageSaveCfg tag s) = some s.lasting := by
  simp [execUpdateStageSaveCfg]

@[simp] theorem execCfgStoreWritten_lasting (equal : Bool) (s : State) :
    resultLasting (execCfgStoreWritten equal s) = some s.lasting := by
  simp only [execCfgStoreWritten]
  (repeat' split) <;> simp

@[simp] theorem State.scheduleAct_lasting (s : State) (t : Instant) (flags : Nat) :
    (State.scheduleAct s t flags).lasting = s.lasting := by
  simp [State.scheduleAct]

@[simp] theorem State.activate_lasting (s : State) (team : Bool) (tag : BitVec 16) (len : BitVec 32)
    (addr : BitVec 48) (dma : Dma) (flags : BitVec 8) (at_ : Nat) (grace : BitVec 16) :
    (State.activate s team tag len addr dma flags at_ grace).lasting = s.lasting := by
  simp [State.activate]
  split <;> simp

@[simp] theorem execUpdateStageActivateTeam_lasting (tag : BitVec 16) (len : BitVec 32) (addr : BitVec 48) (dma : Dma)
    (flags : BitVec 8) (at_ : Nat) (grace : BitVec 16) (s : State) :
    resultLasting (execUpdateStageActivateTeam tag len addr dma flags at_ grace s) = some s.lasting := by
  simp [execUpdateStageActivateTeam]

@[simp] theorem execUpdateStageActivateLocal_lasting (tag : BitVec 16) (len : BitVec 32) (addr : BitVec 48)
    (dma : Dma) (flags : BitVec 8) (at_ : Nat) (grace : BitVec 16) (s : State) :
    resultLasting (execUpdateStageActivateLocal tag len addr dma flags at_ grace s) = some s.lasting := by
  simp [execUpdateStageActivateLocal]

@[simp] theorem execActivateTeamMessage_lasting (unit : Fin 16) (measurement : BitVec 256) (at_ : Nat) (s : State) :
    resultLasting (execActivateTeamMessage unit measurement at_ s) = some s.lasting := by
  simp [execActivateTeamMessage]

@[simp] theorem execActivateTeamAnswer_lasting (unit : Fin 16) (ready : Bool) (s : State) :
    resultLasting (execActivateTeamAnswer unit ready s) = some s.lasting := by
  unfold execActivateTeamAnswer
  split <;> simp

@[simp] theorem execActivateTeamTimeout_lasting (s : State) :
    resultLasting (execActivateTeamTimeout s) = some s.lasting := by
  unfold execActivateTeamTimeout
  split <;> simp

/-! ### CINCH (Machine/Cinch.lean) -/

@[simp] theorem State.cinchDone_lasting (s : State) (tag : Nat) (st : Status) (b : Option Instant) :
    (State.cinchDone s tag st b).lasting = s.lasting := by
  simp [State.cinchDone]

@[simp] theorem State.showPending_lasting (s : State) (target : Option Nat) :
    (State.showPending s target).lasting = s.lasting := by
  simp [State.showPending]

@[simp] theorem State.recordInc_lasting (s : State) (cls blk tab idx member : Nat) :
    (State.recordInc s cls blk tab idx member).lasting = s.lasting := by
  simp [State.recordInc]

@[simp] theorem State.release_lasting (s : State) : (State.release s).lasting = s.lasting := by
  simp [State.release]

@[simp] theorem startBehind_lasting (l : List Instr) (s : State) : (startBehind l s).lasting = s.lasting := by
  induction l generalizing s with
  | nil => rfl
  | cons i l ih =>
    unfold startBehind
    split <;> simp [ih]

@[simp] theorem State.behindStarts_lasting (s : State) : (State.behindStarts s).lasting = s.lasting := by
  simp [State.behindStarts]

@[simp] theorem execCinch_lasting (tag : BitVec 16) (target : BitVec 32) (timed : Bool) (effS : BitVec 48)
    (effNs : BitVec 32) (grace : BitVec 16) (s : State) :
    resultLasting (execCinch tag target timed effS effNs grace s) = some s.lasting := by
  simp [execCinch]

@[simp] theorem State.acceptCinch_lasting (s : State) (tag target : Nat) (eff : Option Instant) (grace : Nat) :
    (State.acceptCinch s tag target eff grace).lasting = s.lasting := by
  unfold State.acceptCinch
  split <;> simp

@[simp] theorem execCinchAccept_lasting (s : State) : resultLasting (execCinchAccept s) = some s.lasting := by
  unfold execCinchAccept
  split <;> simp

@[simp] theorem State.setCinch_lasting (s : State) (c : Option Cinch) : (State.setCinch s c).lasting = s.lasting := by
  simp [State.setCinch]

@[simp] theorem State.refuse_lasting (s : State) (c : Cinch) (st : Status) : (State.refuse s c st).lasting = s.lasting := by
  simp [State.refuse]

@[simp] theorem State.abortTeam_lasting (s : State) (c : Cinch) : (State.abortTeam s c).lasting = s.lasting := by
  simp [State.abortTeam]

@[simp] theorem State.decideCinch_lasting (s : State) (c : Cinch) : (State.decideCinch s c).lasting = s.lasting := by
  simp [State.decideCinch]

@[simp] theorem execCinchValidated_lasting (s : State) : resultLasting (execCinchValidated s) = some s.lasting := by
  simp only [execCinchValidated]
  (repeat' split) <;> simp

@[simp] theorem State.moveBoundary_lasting (s : State) : (State.moveBoundary s).lasting = s.lasting := by
  unfold State.moveBoundary
  split <;> simp

@[simp] theorem execCinchReadyAnswer_lasting (unit : Fin 16) (ready : Bool) (bitmap : Nat) (shapes : List
    (Nat × Nat × Nat × Nat)) (s : State) :
    resultLasting (execCinchReadyAnswer unit ready bitmap shapes s) = some s.lasting := by
  simp only [execCinchReadyAnswer]
  (repeat' split) <;> simp

@[simp] theorem execCinchPrepareTimeout_lasting (s : State) :
    resultLasting (execCinchPrepareTimeout s) = some s.lasting := by
  unfold execCinchPrepareTimeout
  split <;> simp

@[simp] theorem State.setMember_lasting (s : State) (m : Option MemberCinch) :
    (State.setMember s m).lasting = s.lasting := by
  simp [State.setMember]

@[simp] theorem execCinchPrepare_lasting (target : BitVec 32) (boundary : Nat) (digest : Option Nat) (s : State) :
    resultLasting (execCinchPrepare target boundary digest s) = some s.lasting := by
  simp only [execCinchPrepare]
  (repeat' split) <;> simp

@[simp] theorem State.memberCommit_lasting (s : State) (boundary : Instant) :
    (State.memberCommit s boundary).lasting = s.lasting := by
  unfold State.memberCommit
  split <;> simp

@[simp] theorem execCinchCommit_lasting (boundary : Nat) (s : State) :
    resultLasting (execCinchCommit boundary s) = some s.lasting := by
  simp [execCinchCommit]

@[simp] theorem State.memberAbort_lasting (s : State) : (State.memberAbort s).lasting = s.lasting := by
  simp [State.memberAbort]

@[simp] theorem execCinchAbort_lasting (s : State) : resultLasting (execCinchAbort s) = some s.lasting := by
  simp [execCinchAbort]

@[simp] theorem State.anApply_lasting (s : State) (old : Cfg) : (State.anApply s old).lasting = s.lasting := by
  simp [State.anApply]

@[simp] theorem State.portApply_lasting (s : State) (old : Cfg) (b : Instant) :
    (State.portApply s old b).lasting = s.lasting := by
  simp [State.portApply]

@[simp] theorem State.tbApply_lasting (s : State) (old : Cfg) : (State.tbApply s old).lasting = s.lasting := by
  simp [State.tbApply]

@[simp] theorem State.goosesForget_lasting (s : State) (old : Cfg) : (State.goosesForget s old).lasting = s.lasting := by
  simp [State.goosesForget]

@[simp] theorem State.phaseRuns_lasting (s : State) : (State.phaseRuns s).lasting = s.lasting := by
  simp [State.phaseRuns]

@[simp] theorem State.switchTo_lasting (s : State) (new : Cfg) (epoch : Nat) (b : Instant) :
    (State.switchTo s new epoch b).lasting = s.lasting := by
  unfold State.switchTo
  split <;> simp

@[simp] theorem State.applyCinch_lasting (s : State) (b : Instant) : (State.applyCinch s b).lasting = s.lasting := by
  simp [State.applyCinch]

@[simp] theorem execCinchApply_lasting (s : State) : resultLasting (execCinchApply s) = some s.lasting := by
  simp only [execCinchApply]
  (repeat' split) <;> simp

@[simp] theorem execCinchConfirm_lasting (unit : Fin 16) (s : State) :
    resultLasting (execCinchConfirm unit s) = some s.lasting := by
  unfold execCinchConfirm
  split <;> simp

@[simp] theorem execCinchConfirmTimeout_lasting (s : State) :
    resultLasting (execCinchConfirmTimeout s) = some s.lasting := by
  unfold execCinchConfirmTimeout
  split <;> simp

@[simp] theorem execRetiringCopyExpiry_lasting (s : State) : resultLasting (execRetiringCopyExpiry s) = some s.lasting := by
  unfold execRetiringCopyExpiry
  split <;> simp

/-! ### Pair of devices (Machine/Pair.lean) -/

@[simp] theorem State.setClaim_lasting (s : State) (epoch : Nat) : (State.setClaim s epoch).lasting = s.lasting := by
  simp [State.setClaim]

@[simp] theorem State.goPair_lasting (s : State) (st : Nat) : (State.goPair s st).lasting = s.lasting := by
  simp [State.goPair]

@[simp] theorem State.resumeOutputs_lasting (s : State) (last : KV Instant) :
    (State.resumeOutputs s last).lasting = s.lasting := by
  simp [State.resumeOutputs]

@[simp] theorem State.becomeActive_lasting (s : State) (epoch : Nat) : (s.becomeActive epoch).lasting = s.lasting := by
  simp only [State.becomeActive]
  refine (State.foldl_lasting (fun s p => ?_) _ _).trans ?_
  · split <;> simp
  · simp only [State.resumeOutputs_lasting, State.goPair_lasting]
    split <;> simp

@[simp] theorem State.enterSync_lasting (s : State) : (State.enterSync s).lasting = s.lasting := by
  simp [State.enterSync]

@[simp] theorem State.enterQuery_lasting (s : State) : (State.enterQuery s).lasting = s.lasting := by
  simp [State.enterQuery]

@[simp] theorem execStartWaitExpiry_lasting (s : State) : resultLasting (execStartWaitExpiry s) = some s.lasting := by
  simp [execStartWaitExpiry]

@[simp] theorem execHoldMaxExpiry_lasting (s : State) : resultLasting (execHoldMaxExpiry s) = some s.lasting := by
  simp [execHoldMaxExpiry]

@[simp] theorem State.sendHeartbeat_lasting (s : State) (u : Nat) : (State.sendHeartbeat s u).lasting = s.lasting := by
  simp [State.sendHeartbeat]

@[simp] theorem execHeartbeatSend_lasting (s : State) : resultLasting (execHeartbeatSend s) = some s.lasting := by
  simp [execHeartbeatSend]

@[simp] theorem State.readDecision_lasting (s : State) (h : Heartbeat) : (State.readDecision s h).lasting = s.lasting := by
  unfold State.readDecision
  split <;> simp

@[simp] theorem State.pairStep_lasting (s : State) (h : Heartbeat) : (State.pairStep s h).lasting = s.lasting := by
  simp [State.pairStep]

@[simp] theorem execHeartbeatReceive_lasting (h : Heartbeat) (s : State) :
    resultLasting (execHeartbeatReceive h s) = some s.lasting := by
  simp [execHeartbeatReceive]

@[simp] theorem execPartnerLost_lasting (unit : Fin 16) (s : State) :
    resultLasting (execPartnerLost unit s) = some s.lasting := by
  simp [execPartnerLost]

@[simp] theorem State.pairCtl_lasting (s : State) (v : Nat) : (State.pairCtl s v).lasting = s.lasting := by
  simp [State.pairCtl]

@[simp] theorem execPairEnable_lasting (word : BitVec 32) (s : State) :
    resultLasting (execPairEnable word s) = some s.lasting := by
  simp [execPairEnable]

@[simp] theorem execPairDisable_lasting (word : BitVec 32) (s : State) :
    resultLasting (execPairDisable word s) = some s.lasting := by
  simp [execPairDisable]

@[simp] theorem State.witTag_lasting (s : State) (typ unit claim seq : Nat) :
    (State.witTag s typ unit claim seq).2.lasting = s.lasting := by
  simp [State.witTag]

@[simp] theorem State.witGood_lasting (s : State) (typ : Nat) (f : WitFrame) :
    (State.witGood s typ f).2.lasting = s.lasting := by
  simp only [State.witGood]
  (repeat' split) <;> simp

@[simp] theorem State.sendWit_lasting (s : State) (typ unit claim seq : Nat) :
    (s.sendWit typ unit claim seq).lasting = s.lasting := by
  have htag := State.witTag_lasting s typ unit claim seq
  unfold State.sendWit
  split <;> simp_all

@[simp] theorem State.witAccept_lasting (s : State) (typ : Nat) (f : WitFrame) :
    (State.witAccept s typ f).2.lasting = s.lasting := by
  simp only [State.witAccept]
  (repeat' split) <;> simp

@[simp] theorem State.witAnswer_lasting (s : State) (seq : BitVec 16) : (State.witAnswer s seq).lasting = s.lasting := by
  simp [State.witAnswer]

@[simp] theorem execWitnessPoll_lasting (frame : WitFrame) (s : State) :
    resultLasting (execWitnessPoll frame s) = some s.lasting := by
  simp [execWitnessPoll]

@[simp] theorem execWitnessGrant_lasting (frame : WitFrame) (s : State) :
    resultLasting (execWitnessGrant frame s) = some s.lasting := by
  simp [execWitnessGrant]

@[simp] theorem execWitnessDeny_lasting (frame : WitFrame) (s : State) :
    resultLasting (execWitnessDeny frame s) = some s.lasting := by
  simp [execWitnessDeny]

@[simp] theorem execWitnessUnreachable_lasting (s : State) : resultLasting (execWitnessUnreachable s) = some s.lasting := by
  simp [execWitnessUnreachable]

@[simp] theorem State.setWit_lasting (s : State) (u : Nat) (x : WitUnit) : (State.setWit s u x).lasting = s.lasting := by
  simp [State.setWit]

@[simp] theorem execWitnessSlot_lasting (s : State) : resultLasting (execWitnessSlot s) = some s.lasting := by
  simp [execWitnessSlot]

@[simp] theorem State.witGrant_lasting (s : State) (u : Nat) : (State.witGrant s u).lasting = s.lasting := by
  simp [State.witGrant]

@[simp] theorem State.witDecide_lasting (s : State) (l : KV (Nat × Bool)) : (State.witDecide s l).lasting = s.lasting := by
  simp only [State.witDecide]
  (repeat' split) <;> simp

@[simp] theorem execWitnessAnswer_lasting (query : Bool) (frame : WitFrame) (s : State) :
    resultLasting (execWitnessAnswer query frame s) = some s.lasting := by
  simp [execWitnessAnswer]
  (repeat' split) <;> simp

@[simp] theorem execWitnessWindowExpiry_lasting (s : State) :
    resultLasting (execWitnessWindowExpiry s) = some s.lasting := by
  unfold execWitnessWindowExpiry
  split <;> simp

@[simp] theorem execSyncReq_lasting (unit : Fin 16) (s : State) : resultLasting (execSyncReq unit s) = some s.lasting := by
  simp [execSyncReq]

@[simp] theorem execResyncImage_lasting (image : ResyncImage) (s : State) :
    resultLasting (execResyncImage image s) = some s.lasting := by
  simp [execResyncImage]

@[simp] theorem execResyncRetry_lasting (s : State) : resultLasting (execResyncRetry s) = some s.lasting := by
  unfold execResyncRetry
  split <;> simp

@[simp] theorem execResyncBoundary_lasting (s : State) : resultLasting (execResyncBoundary s) = some s.lasting := by
  unfold execResyncBoundary
  split <;> simp

@[simp] theorem execOnoffForward_lasting (o : Fin 64) (on : Bool) (s : State) :
    resultLasting (execOnoffForward o on s) = some s.lasting := by
  simp [execOnoffForward]

@[simp] theorem execTimeMessageSend_lasting (s : State) : resultLasting (execTimeMessageSend s) = some s.lasting := by
  simp [execTimeMessageSend]

@[simp] theorem execTimeMessage_lasting (unit : Fin 16) (offset : Int) (s : State) :
    resultLasting (execTimeMessage unit offset s) = some s.lasting := by
  simp [execTimeMessage]

@[simp] theorem State.setLink_lasting (s : State) (l : Nat) (x : HjelLink) : (State.setLink s l x).lasting = s.lasting := by
  simp [State.setLink]

@[simp] theorem execHjelDelayMeasure_lasting (link : Fin 4) (delay : Nat) (s : State) :
    resultLasting (execHjelDelayMeasure link delay s) = some s.lasting := by
  simp [execHjelDelayMeasure]

@[simp] theorem State.hjelMessage_lasting (s : State) (vc crossed : Nat) (bytes : List Byte) :
    (State.hjelMessage s vc crossed bytes).lasting = s.lasting := by
  simp only [State.hjelMessage]
  (repeat' split) <;> simp

@[simp] theorem execHjelFlit_lasting (link : Fin 4) (flit : Flit) (crossed : Nat) (s : State) :
    resultLasting (execHjelFlit link flit crossed s) = some s.lasting := by
  simp [execHjelFlit]

@[simp] theorem execHjelLinkUp_lasting (link : Fin 4) (peer : Fin 16) (s : State) :
    resultLasting (execHjelLinkUp link peer s) = some s.lasting := by
  simp [execHjelLinkUp]

@[simp] theorem State.linkDown_lasting (s : State) (l : Nat) : (State.linkDown s l).lasting = s.lasting := by
  simp [State.linkDown]

@[simp] theorem execHjelLinkDown_lasting (link : Fin 4) (noLock : Bool) (s : State) :
    resultLasting (execHjelLinkDown link noLock s) = some s.lasting := by
  simp [execHjelLinkDown]

@[simp] theorem execTeamRevision_lasting (unit : Fin 16) (rev : Revision) (s : State) :
    resultLasting (execTeamRevision unit rev s) = some s.lasting := by
  simp [execTeamRevision]

@[simp] theorem execTeamWaitExpiry_lasting (s : State) : resultLasting (execTeamWaitExpiry s) = some s.lasting := by
  unfold execTeamWaitExpiry
  split <;> simp

/-! ### Safe state (Machine/Safe.lean) -/

@[simp] theorem State.react_lasting (s : State) (cause : Nat) : (State.react s cause).lasting = s.lasting := by
  simp [State.react]

@[simp] theorem State.safeWrite_lasting (s : State) (first : Bool) : (State.safeWrite s first).lasting = s.lasting := by
  simp [State.safeWrite]

@[simp] theorem execSafeForceWrite_lasting (value : BitVec 32) (s : State) :
    resultLasting (execSafeForceWrite value s) = some s.lasting := by
  simp [execSafeForceWrite]

@[simp] theorem execLockstepMismatch_lasting (pair : Fin 2) (s : State) :
    resultLasting (execLockstepMismatch pair s) = some s.lasting := by
  simp [execLockstepMismatch]

@[simp] theorem execWatchdogExpiry_lasting (s : State) : resultLasting (execWatchdogExpiry s) = some s.lasting := by
  simp [execWatchdogExpiry]

@[simp] theorem State.wdtWatch_lasting (s : State) : (State.wdtWatch s).lasting = s.lasting := by
  simp [State.wdtWatch]

@[simp] theorem execClockFault_lasting (s : State) : resultLasting (execClockFault s) = some s.lasting := by
  simp [execClockFault]

@[simp] theorem execSupplyFault_lasting (rail : Fin 8) (s : State) :
    resultLasting (execSupplyFault rail s) = some s.lasting := by
  simp [execSupplyFault]

@[simp] theorem execTemperatureFault_lasting (tj : BitVec 16) (s : State) :
    resultLasting (execTemperatureFault tj s) = some s.lasting := by
  simp [execTemperatureFault]

@[simp] theorem execTbPlausCheck_lasting (advancePerTick : Nat) (s : State) :
    resultLasting (execTbPlausCheck advancePerTick s) = some s.lasting := by
  simp [execTbPlausCheck]

@[simp] theorem execPeriodicSelftest_lasting (fail : BitVec 16) (s : State) :
    resultLasting (execPeriodicSelftest fail s) = some s.lasting := by
  simp [execPeriodicSelftest]

/-! ### Power and start-up (Machine/Pwr.lean) -/

@[simp] theorem State.pwrWrite_lasting (s : State) (first : Bool) : (State.pwrWrite s first).lasting = s.lasting := by
  simp [State.pwrWrite]

@[simp] theorem State.fallBack_lasting (s : State) (code : Nat) : (State.fallBack s code).lasting = s.lasting := by
  simp [State.fallBack]

@[simp] theorem State.bootChoice_lasting (s : State) : (State.bootChoice s).lasting = s.lasting := by
  unfold State.bootChoice
  split <;> simp

@[simp] theorem State.readFuses_lasting (s : State) : (State.readFuses s).lasting = s.lasting := by
  simp [State.readFuses]

@[simp] theorem State.keyStoreStarts_lasting (s : State) : (State.keyStoreStarts s).lasting = s.lasting := by
  simp [State.keyStoreStarts]

@[simp] theorem execResetRelease_lasting (s : State) : resultLasting (execResetRelease s) = some s.lasting := by
  simp [execResetRelease]

@[simp] theorem State.migrate_lasting (s : State) (i : Image) : (State.migrate s i).lasting = s.lasting := by
  unfold State.migrate
  split <;> simp

@[simp] theorem State.showFallback_lasting (s : State) : (State.showFallback s).lasting = s.lasting := by
  unfold State.showFallback
  split <;> simp

@[simp] theorem State.firmwareStarts_lasting (s : State) (k : Nat) (i : Image) :
    (State.firmwareStarts s k i).lasting = s.lasting := by
  simp only [State.firmwareStarts]
  (repeat' split) <;> simp

@[simp] theorem execLoadComplete_lasting (s : State) : resultLasting (execLoadComplete s) = some s.lasting := by
  simp only [execLoadComplete]
  (repeat' split) <;> simp

@[simp] theorem State.selftestFails_lasting (s : State) : (State.selftestFails s).lasting = s.lasting := by
  simp [State.selftestFails]

@[simp] theorem State.microcode_lasting (s : State) (fail : Nat) : (State.microcode s fail).lasting = s.lasting := by
  simp [State.microcode]

@[simp] theorem execMicrocodeLoaded_lasting (fail : BitVec 64) (s : State) :
    resultLasting (execMicrocodeLoaded fail s) = some s.lasting := by
  unfold execMicrocodeLoaded
  split <;> simp

@[simp] theorem State.discardReceived_lasting (s : State) (n : Nat) : (State.discardReceived s n).lasting = s.lasting := by
  simp [State.discardReceived]

@[simp] theorem State.fslDown_lasting (s : State) (i : Nat) : (State.fslDown s i).lasting = s.lasting := by
  simp [State.fslDown]

@[simp] theorem State.stopUnit_lasting (s : State) (u : Nat) : (State.stopUnit s u).lasting = s.lasting := by
  simp [State.stopUnit]

@[simp] theorem execBlockRestart_lasting (word : BitVec 32) (s : State) :
    resultLasting (execBlockRestart word s) = some s.lasting := by
  simp [execBlockRestart]

@[simp] theorem execBlockRestartDone_lasting (s : State) : resultLasting (execBlockRestartDone s) = some s.lasting := by
  unfold execBlockRestartDone
  split <;> simp

@[simp] theorem execSleep_lasting (tag : BitVec 16) (timed : Bool) (wakeS : BitVec 48) (wakeNs : BitVec 32)
    (grace : BitVec 16) (s : State) :
    resultLasting (execSleep tag timed wakeS wakeNs grace s) = some s.lasting := by
  simp only [execSleep]
  (repeat' split) <;> simp

@[simp] theorem execSleepLateCompletion_lasting (s : State) :
    resultLasting (execSleepLateCompletion s) = some s.lasting := by
  unfold execSleepLateCompletion
  split <;> simp

@[simp] theorem State.entryActions_lasting (s : State) (b : Instant) : (State.entryActions s b).lasting = s.lasting := by
  simp [State.entryActions]

@[simp] theorem State.setSleep_lasting (s : State) (x : Option Sleep) : (State.setSleep s x).lasting = s.lasting := by
  simp [State.setSleep]

@[simp] theorem execBivouacEntry_lasting (s : State) : resultLasting (execBivouacEntry s) = some s.lasting := by
  unfold execBivouacEntry
  split <;> simp

@[simp] theorem State.sleepRef_lasting (s : State) : (State.sleepRef s).2.lasting = s.lasting := by
  simp only [State.sleepRef]
  (repeat' split) <;> simp

@[simp] theorem State.gatesOpen_lasting (s : State) : (State.gatesOpen s).lasting = s.lasting := by
  simp [State.gatesOpen]

@[simp] theorem execBivouacDrainEnd_lasting (s : State) : resultLasting (execBivouacDrainEnd s) = some s.lasting := by
  unfold execBivouacDrainEnd
  split <;> simp

@[simp] theorem State.wake_lasting (s : State) (n r : Nat) : (State.wake s n r).lasting = s.lasting := by
  simp only [State.wake]
  (repeat' split) <;> simp

@[simp] theorem execWakePin_lasting (rising : Bool) (edges : Nat) (s : State) :
    resultLasting (execWakePin rising edges s) = some s.lasting := by
  simp [execWakePin]

@[simp] theorem execWakePatternMatch_lasting (port : Fin 48) (pattern : Fin 8) (edges : Nat) (s : State) :
    resultLasting (execWakePatternMatch port pattern edges s) = some s.lasting := by
  simp [execWakePatternMatch]

@[simp] theorem execTimedWake_lasting (edges : Nat) (s : State) :
    resultLasting (execTimedWake edges s) = some s.lasting := by
  simp only [execTimedWake]
  (repeat' split) <;> simp

@[simp] theorem execTbAlmWake_lasting (k : Fin 4) (edges : Nat) (s : State) :
    resultLasting (execTbAlmWake k edges s) = some s.lasting := by
  unfold execTbAlmWake
  split <;> simp

@[simp] theorem State.lateAlarms_lasting (s : State) : (State.lateAlarms s).lasting = s.lasting := by
  simp [State.lateAlarms]

@[simp] theorem State.resumeWork_lasting (s : State) : (State.resumeWork s).lasting = s.lasting := by
  simp [State.resumeWork]

@[simp] theorem State.resume_lasting (s : State) (x : Sleep) (fail : Nat) :
    (State.resume s x fail).lasting = s.lasting := by
  simp [State.resume]

@[simp] theorem execAonCalibrate_lasting (ppb : BitVec 24) (s : State) :
    resultLasting (execAonCalibrate ppb s) = some s.lasting := by
  simp [execAonCalibrate]

@[simp] theorem execTamperTrip_lasting (src : Fin 8) (unpowered : Bool) (edges : Nat) (s : State) :
    resultLasting (execTamperTrip src unpowered edges s) = some s.lasting := by
  simp [execTamperTrip]

@[simp] theorem State.pairAge_lasting (s : State) : (State.pairAge s).lasting = s.lasting := by
  unfold State.pairAge
  split <;> simp

/-! ### Snapshots (Machine/Snap.lean) -/

@[simp] theorem State.latchGroup_lasting (s : State) (d : RegD) (b : Nat) :
    (State.latchGroup s d b).lasting = s.lasting := by
  simp [State.latchGroup]

@[simp] theorem State.latchWindow_lasting (s : State) (w : Window) : (State.latchWindow s w).lasting = s.lasting := by
  simp [State.latchWindow]

@[simp] theorem State.latchAll_lasting (s : State) : (State.latchAll s).lasting = s.lasting := by
  simp [State.latchAll]

@[simp] theorem execSnapLatchRead_lasting (addr : BitVec 26) (s : State) :
    resultLasting (execSnapLatchRead addr s) = some s.lasting := by
  simp only [execSnapLatchRead]
  (repeat' split) <;> simp

@[simp] theorem execSnapTake_lasting (word : BitVec 32) (s : State) :
    resultLasting (execSnapTake word s) = some s.lasting := by
  simp [execSnapTake]

/-! ### Errors (Machine/Err.lean) -/

@[simp] theorem State.needShow_lasting (s : State) : s.needShow.lasting = s.lasting :=
  State.wr_lasting _ _ _

@[simp] theorem State.injected_lasting (s : State) (mem : Nat) (double : Bool) :
    (State.injected s mem double).lasting = s.lasting := by
  simp [State.injected]

@[simp] theorem execCairnPost_lasting (tag : BitVec 16) (len : BitVec 32) (addr : BitVec 48) (entries : List
    (BitVec 64 × BitVec 32 × BitVec 32)) (dma : Dma) (s : State) :
    resultLasting (execCairnPost tag len addr entries dma s) = some s.lasting := by
  simp [execCairnPost]

@[simp] theorem execCairnWithdraw_lasting (tag : BitVec 16) (s : State) :
    resultLasting (execCairnWithdraw tag s) = some s.lasting := by
  simp [execCairnWithdraw]

@[simp] theorem State.dumpFaults_lasting (s : State) (posted : List (Nat × Nat)) (fs : List (Nat × Dma)) :
    (State.dumpFaults s posted fs).2.lasting = s.lasting := by
  induction fs generalizing s with
  | nil => rfl
  | cons f fs ih =>
    simp only [State.dumpFaults]
    split <;> simp [ih]

@[simp] theorem State.writeDump_lasting (s : State) (r : ErrRec) (faults : List (Nat × Dma)) :
    (State.writeDump s r faults).lasting = s.lasting := by
  unfold State.writeDump
  split <;> simp

@[simp] theorem execCorrectableError_lasting (code : Fin 4) (mem : BitVec 8) (unit : BitVec 16) (addr : BitVec 64)
    (s : State) :
    resultLasting (execCorrectableError code mem unit addr s) = some s.lasting := by
  simp [execCorrectableError]

@[simp] theorem State.abandonWork_lasting (s : State) (who : Consumer) (t : Instant) (rev : Nat) :
    (State.abandonWork s who t rev).lasting = s.lasting := by
  simp [State.abandonWork]

@[simp] theorem State.abandonRun_lasting (s : State) (id : Nat) : (State.abandonRun s id).lasting = s.lasting := by
  unfold State.abandonRun
  split <;> simp

@[simp] theorem State.abandonOp_lasting (s : State) (o : OpOf) : (s.abandonOp o).lasting = s.lasting := by
  cases o <;> simp [State.abandonOp]

@[simp] theorem State.struck_lasting (s : State) (x : Struck) : (s.struck x).lasting = s.lasting := by
  cases x <;> simp only [State.struck] <;> (repeat' split) <;> simp

@[simp] theorem execRecoverableError_lasting (struck : Struck) (mem : BitVec 8) (unit : BitVec 16) (addr : BitVec 64)
    (safety : Bool) (s : State) :
    resultLasting (execRecoverableError struck mem unit addr safety s) = some s.lasting := by
  simp [execRecoverableError]

@[simp] theorem State.scrubbed_lasting (s : State) (x : Fin 6 × BitVec 64 × Bool) :
    (State.scrubbed s x).lasting = s.lasting := by
  simp [State.scrubbed]

@[simp] theorem execScrub_lasting (found : List (Fin 6 × BitVec 64 × Bool)) (s : State) :
    resultLasting (execScrub found s) = some s.lasting := by
  simp [execScrub]

@[simp] theorem execErrInjSingle_lasting (mem : Fin 8) (s : State) :
    resultLasting (execErrInjSingle mem s) = some s.lasting := by
  simp [execErrInjSingle]

@[simp] theorem execErrInjDouble_lasting (mem : Fin 8) (s : State) :
    resultLasting (execErrInjDouble mem s) = some s.lasting := by
  simp [execErrInjDouble]

theorem State.readInFlight_lasting {s t : State} {c a b d : Nat} (h : s.readInFlight c = some (a, b, d, t)) :
    t.lasting = s.lasting := by
  simp only [State.readInFlight] at h
  (repeat' split at h) <;> simp only [Option.some.injEq, Prod.mk.injEq, reduceCtorEq] at h <;>
    obtain ⟨-, -, -, rfl⟩ := h <;> simp

@[simp] theorem execPcieErrorCompletion_lasting (chan : Fin 65) (s : State) :
    resultLasting (execPcieErrorCompletion chan s) = some s.lasting := by
  unfold execPcieErrorCompletion
  split
  · rfl
  · split
    · rfl
    · next u h => simp [State.readInFlight_lasting h]

/-! ### Translation (Machine/Xlt.lean) -/

@[simp] theorem State.issueInv_lasting (s : State) (range : Option (Nat × Nat)) :
    (State.issueInv s range).lasting = s.lasting := by
  simp [State.issueInv]

@[simp] theorem execXltInvalidateRange_lasting (high : BitVec 32) (s : State) :
    resultLasting (execXltInvalidateRange high s) = some s.lasting := by
  simp [execXltInvalidateRange]

@[simp] theorem execXltInvalidateAll_lasting (_high : BitVec 32) (s : State) :
    resultLasting (execXltInvalidateAll _high s) = some s.lasting := by
  simp [execXltInvalidateAll]

@[simp] theorem execXltInvComplete_lasting (s : State) : resultLasting (execXltInvComplete s) = some s.lasting := by
  unfold execXltInvComplete
  split <;> simp

@[simp] theorem execFringBaseWrite_lasting (word : Fin 2) (value : BitVec 32) (s : State) :
    resultLasting (execFringBaseWrite word value s) = some s.lasting := by
  simp [execFringBaseWrite]

/-! ### Resumption of transfers (Machine/Resume.lean) -/

@[simp] theorem State.unsuspend_lasting (s : State) (c : Nat) : (State.unsuspend s c).lasting = s.lasting := by
  simp [State.unsuspend]

@[simp] theorem State.restartControl_lasting (s : State) (u : Susp) (dma : Dma) :
    (State.restartControl s u dma).lasting = s.lasting := by
  simp [State.restartControl]

@[simp] theorem State.resumeEnds_lasting (s : State) (tag : Option Nat) (st : Status) (result : Nat) :
    (State.resumeEnds s tag st result).lasting = s.lasting := by
  unfold State.resumeEnds
  split <;> simp

@[simp] theorem State.retry_lasting (s : State) (tag : Option Nat) (c : Nat) (u : Susp) (dma : Dma) :
    (s.retry tag c u dma).lasting = s.lasting := by
  have hx := State.translate_lasting (s.unsuspend c) u.dva u.write dma.walk
  simp only [State.retry, State.resumeEnds_lasting]
  split <;> simp_all

@[simp] theorem State.acceptRetry_lasting (s : State) (tag : Option Nat) (c : Nat) (u : Susp) :
    (State.acceptRetry s tag c u).lasting = s.lasting := by
  simp [State.acceptRetry]

@[simp] theorem State.mmioRetry_lasting (s : State) (c : Nat) : (State.mmioRetry s c).lasting = s.lasting := by
  unfold State.mmioRetry
  split <;> simp

@[simp] theorem execResumeRetry_lasting (tag : Option (BitVec 16)) (chan : BitVec 16) (dma : Dma) (s : State) :
    resultLasting (execResumeRetry tag chan dma s) = some s.lasting := by
  simp only [execResumeRetry]
  (repeat' split) <;> simp

@[simp] theorem State.skipItem_lasting (s : State) (c : Nat) (u : Susp) : (State.skipItem s c u).lasting = s.lasting := by
  simp only [State.skipItem]
  (repeat' split) <;> simp

@[simp] theorem execResumeSkip_lasting (tag : Option (BitVec 16)) (chan : BitVec 16) (s : State) :
    resultLasting (execResumeSkip tag chan s) = some s.lasting := by
  simp only [execResumeSkip]
  (repeat' split) <;> simp

@[simp] theorem State.cmdf_lasting (s : State) (e cmd : Nat) : (State.cmdf s e cmd).lasting = s.lasting := by
  simp [State.cmdf]

@[simp] theorem execCmdfTurnOff_lasting (entry : Fin 8192) (s : State) :
    resultLasting (execCmdfTurnOff entry s) = some s.lasting := by
  simp [execCmdfTurnOff]

@[simp] theorem execCmdfTurnOn_lasting (entry : Fin 8192) (s : State) :
    resultLasting (execCmdfTurnOn entry s) = some s.lasting := by
  simp [execCmdfTurnOn]

@[simp] theorem execCmdfSendCfg2_lasting (entry : Fin 8192) (s : State) :
    resultLasting (execCmdfSendCfg2 entry s) = some s.lasting := by
  simp [execCmdfSendCfg2]

@[simp] theorem execCmdfSendCfg3_lasting (entry : Fin 8192) (s : State) :
    resultLasting (execCmdfSendCfg3 entry s) = some s.lasting := by
  simp [execCmdfSendCfg3]

/-! ### Register writes (Machine/RegWrite.lean) -/

@[simp] theorem State.writeField_lasting (s : State) (a v : Nat) (f : Fld) :
    (State.writeField s a v f).lasting = s.lasting := by
  unfold State.writeField
  split <;> simp

@[simp] theorem State.stage_lasting (s : State) (a v : Nat) : (State.stage s a v).lasting = s.lasting := by
  simp [State.stage]

@[simp] theorem State.writeFields_lasting (s : State) (a v : Nat) : (State.writeFields s a v).lasting = s.lasting := by
  simp [State.writeFields]

theorem State.discarded_lasting {s t : State} {who : Requester} {a : Nat} (h : s.discarded who a = some t) :
    t.lasting = s.lasting := by
  simp only [State.discarded] at h
  (repeat' split at h) <;> cases h <;> simp

@[simp] theorem State.writeUtc_lasting (s : State) (v : Nat) : (State.writeUtc s v).lasting = s.lasting := by
  simp [State.writeUtc]

@[simp] theorem State.clearQueue_lasting (s : State) (v : Nat) : (State.clearQueue s v).lasting = s.lasting := by
  simp [State.clearQueue]

@[simp] theorem State.writeIdle_lasting (s : State) (v : Nat) : (State.writeIdle s v).lasting = s.lasting := by
  simp [State.writeIdle]

@[simp] theorem State.qtest_lasting (s t : State) : (s.qtest t).lasting = t.lasting := by
  unfold State.qtest
  split <;> simp

@[simp] theorem State.logSelected_lasting (s : State) : (State.logSelected s).lasting = s.lasting := by
  simp only [State.logSelected]
  (repeat' split) <;> simp

@[simp] theorem State.linkWritten_lasting (s t : State) (l : Nat) : (s.linkWritten t l).lasting = t.lasting := by
  simp [State.linkWritten]

theorem State.follow_lasting {s t : State} (h : t.lasting = s.lasting) (a v : Nat) : (s.follow t a v).lasting = s.lasting := by
  unfold State.follow
  split <;> simp [h]

@[simp] theorem State.writePlain_lasting (s : State) (who : Requester) (a v : Nat) :
    (s.writePlain who a v).lasting = s.lasting := by
  unfold State.writePlain
  split
  · next t h => exact State.discarded_lasting h
  · exact State.follow_lasting (by simp) a v

@[simp] theorem State.writeMsix_lasting (s : State) (k v : Nat) : (State.writeMsix s k v).lasting = s.lasting := by
  simp [State.writeMsix]

theorem State.keepLow_lasting {s t : State} (h : t.lasting = s.lasting) (who : Requester) :
    (s.keepLow t who).lasting = s.lasting := by
  simp [State.keepLow, h]

@[simp] theorem State.writeCmdf_lasting (s : State) (v : Nat) : (State.writeCmdf s v).lasting = s.lasting := by
  simp [State.writeCmdf]

@[simp] theorem State.writeCal_lasting (s : State) (who : Requester) (w : BitVec 32) :
    resultLasting (State.writeCal s who w) = some s.lasting := by
  simp [State.writeCal]

@[simp] theorem State.writeInj_lasting (s : State) (v : Nat) : resultLasting (State.writeInj s v) = some s.lasting := by
  simp [State.writeInj]

@[simp] theorem State.writeResume_lasting (s : State) (v : Nat) :
    resultLasting (State.writeResume s v) = some s.lasting := by
  simp [State.writeResume]

@[simp] theorem State.breakSequence_lasting (s : State) (a : Nat) : (State.breakSequence s a).lasting = s.lasting := by
  simp [State.breakSequence]

end Sys2Proof.Machine


namespace Sys2Proof.Machine
open Sys2Proof

/-! ## Ticks, resets and register writes -/

@[simp] theorem State.tickWith_lasting (s : State) (delta : Int) : (s.tickWith delta).lasting = s.lasting := (rfl)

@[simp] theorem State.tick_lasting (s : State) : s.tick.lasting = s.lasting := (rfl)

@[simp] theorem State.restart_lasting (s : State) (lost : Bool) : (s.restart lost).lasting = s.lasting := by
  simp [State.restart]

@[simp] theorem State.powerOn_lasting (s : State) (cause : Nat) (lost : Bool) : (s.powerOn cause lost).lasting = s.lasting := by
  simp [State.powerOn]

@[simp] theorem State.systemReset_lasting (s : State) (cause : Nat) : (s.systemReset cause).lasting = s.lasting := by
  simp [State.systemReset]

@[simp] theorem State.trialFails_lasting (s : State) (code : Nat) : (s.trialFails code).lasting = s.lasting := by
  simp [State.trialFails]

@[simp] theorem State.cairnReset_lasting (s : State) : s.cairnReset.lasting = s.lasting := by
  simp [State.cairnReset]

@[simp] theorem State.fatal_lasting (s : State) (code mem unit addr : Nat) :
    (s.fatal code mem unit addr).lasting = s.lasting := by
  simp only [State.fatal]
  (repeat' split) <;> simp

@[simp] theorem State.trialWatch_lasting (s : State) : s.trialWatch.lasting = s.lasting := by
  unfold State.trialWatch
  split
  · rfl
  · split
    · exact State.trialFails_lasting s _
    · extract_lets since upd u v
      have hu : u.lasting = s.lasting := State.wr_lasting _ _ _
      have hv : v.lasting = s.lasting := by simp [v, hu]
      clear_value since upd u v
      (repeat' split) <;> simp [hv]

@[simp] theorem State.loadTime_lasting (s : State) (x : Sleep) (n : Nat) : (s.loadTime x n).lasting = s.lasting := by
  unfold State.loadTime
  extract_lets d tb u grown v
  have hv : v.lasting = s.lasting := by
    rw [State.setTq_lasting, State.wr_lasting]
    rfl
  clear_value d tb u grown v
  split <;> simp [hv]

@[simp] theorem State.stepped_lasting (s : State) (delta : Int) : (s.stepped delta).lasting = s.lasting := by
  simp [State.stepped]

theorem State.idle_lasting (s : State) : s.idle.lasting = s.lasting := by
  simp [State.idle]

@[simp] theorem execTbIncrWrite_lasting (who : Requester) (high : BitVec 32) (s : State) :
    resultLasting (execTbIncrWrite who high s) = some s.lasting := by
  simp only [execTbIncrWrite]
  (repeat' split) <;> simp

@[simp] theorem execTbStepWrite_lasting (who : Requester) (high : BitVec 32) (s : State) :
    resultLasting (execTbStepWrite who high s) = some s.lasting := by
  simp only [execTbStepWrite]
  (repeat' split) <;> simp

@[simp] theorem execPowerOnReset_lasting (ramLost : Bool) (s : State) :
    resultLasting (execPowerOnReset ramLost s) = some s.lasting := by
  simp [execPowerOnReset]

@[simp] theorem execBrownOut_lasting (ramLost : Bool) (s : State) :
    resultLasting (execBrownOut ramLost s) = some s.lasting := by
  simp [execBrownOut]

@[simp] theorem execPwrRstWrite_lasting (value : BitVec 32) (s : State) :
    resultLasting (execPwrRstWrite value s) = some s.lasting := by
  simp [execPwrRstWrite]

@[simp] theorem execActivation_lasting (s : State) : resultLasting (execActivation s) = some s.lasting := by
  simp only [execActivation]
  (repeat' split) <;> simp

@[simp] theorem execResumption_lasting (edges : Nat) (imageOk : Bool) (fail : BitVec 16) (s : State) :
    resultLasting (execResumption edges imageOk fail s) = some s.lasting := by
  simp only [execResumption]
  (repeat' split) <;> simp

@[simp] theorem execSelftestComplete_lasting (fail : BitVec 16) (s : State) :
    resultLasting (execSelftestComplete fail s) = some s.lasting := by
  simp only [execSelftestComplete]
  (repeat' split) <;> simp

@[simp] theorem execTrialTimeout_lasting (s : State) : resultLasting (execTrialTimeout s) = some s.lasting := by
  simp [execTrialTimeout]

@[simp] theorem execCairnDone_lasting (faults : List (Nat × Dma)) (s : State) :
    resultLasting (execCairnDone faults s) = some s.lasting := by
  simp only [execCairnDone]
  (repeat' split) <;> simp

@[simp] theorem execCairnForce_lasting (tag : BitVec 16) (s : State) :
    resultLasting (execCairnForce tag s) = some s.lasting := by
  simp [execCairnForce]

@[simp] theorem execCairnTimeout_lasting (s : State) : resultLasting (execCairnTimeout s) = some s.lasting := by
  unfold execCairnTimeout
  split <;> simp

@[simp] theorem execFatalError_lasting (code : Fin 6) (mem : BitVec 8) (unit : BitVec 16) (addr : BitVec 64) (s : State) :
    resultLasting (execFatalError code mem unit addr s) = some s.lasting := by
  simp [execFatalError]

/-- The 23rd row of the words with an effect of their own answers only for some values. -/
theorem State.ownRow_lasting {s : State} {who : Requester} {a : Nat} {w : BitVec 32} {r : Result}
    (hr : s.ownRow who a w = some r) : resultLasting r = some s.lasting := by
  unfold State.ownRow at hr
  split at hr
  case h_23 => (repeat' split at hr) <;> cases hr <;> simp
  all_goals
    rw [← Option.some.inj hr]
    simp [State.keepLow_lasting]

@[simp] theorem execRegisterWrite_lasting (who : Requester) (addr : BitVec 26) (value : BitVec 32) (s : State) :
    resultLasting (execRegisterWrite who addr value s) = some s.lasting := by
  simp only [execRegisterWrite]
  split
  · simp
  · split
    · next r hr => simpa using State.ownRow_lasting hr
    · simp


end Sys2Proof.Machine

namespace Sys2Proof.Machine
open Sys2Proof

/-! ## Commands that burn a fuse (R400, R402, R443) -/

/-- Fuses `g` come from `f` by burning along permitted transitions: `State.FusesKept`, of the fuses. -/
structure Fuses.Burnt (f g : Fuses) : Prop where
  lcs : g.lcs = f.lcs ∨ lcsMay f.lcs g.lcs = true ∨ (f.lcs = 1 ∧ g.lcs = 2)
  secVer : f.secVer ≤ g.secVer
  revoked : g.revoked = f.revoked
  devid : g.devid = f.devid

theorem State.fusesKept_iff (s t : State) : s.FusesKept t ↔ s.lasting.fuses.Burnt t.lasting.fuses :=
  ⟨fun ⟨hlcs, hsec, hrevoked, hdevid⟩ => ⟨hlcs, hsec, hrevoked, hdevid⟩,
    fun ⟨hlcs, hsec, hrevoked, hdevid⟩ => ⟨hlcs, hsec, hrevoked, hdevid⟩⟩

theorem Fuses.Burnt.refl (f : Fuses) : f.Burnt f := ⟨.inl rfl, Nat.le_refl _, rfl, rfl⟩

/-- A result leaves a next state, with the queue of `l` and its fuses, some perhaps burned. -/
def Burns (l : Lasting) (r : Result) : Prop := ∃ g, resultLasting r = some ⟨l.queue, g⟩ ∧ l.fuses.Burnt g

theorem Burns.of_lasting {l : Lasting} {r : Result} (h : resultLasting r = some l) : Burns l r := ⟨l.fuses, h, .refl _⟩

theorem Burns.next {t : State} {l : Lasting} {g : Fuses} (h : t.lasting = ⟨l.queue, g⟩) (hg : l.fuses.Burnt g) :
    Burns l (.next t) :=
  ⟨g, congrArg some h, hg⟩

/-- A KEY_OP burns what its own effect burns. -/
theorem State.keyOp_burns {f : State → Result} (h : ∀ u : State, Burns u.lasting (f u)) (s : State) (tag : BitVec 16)
    (i : Nat) : Burns s.lasting (s.keyOp tag i f) := by
  unfold State.keyOp State.dequeued
  split
  · exact .of_lasting (by simp)
  · split
    · exact .of_lasting (by simp)
    · simpa using h (s.bump .key C.KEY_KEY_OPS)

theorem State.setLcs_lasting (s : State) (n : Nat) :
    (s.setLcs n).lasting = ⟨s.lasting.queue, { s.lasting.fuses with lcs := n }⟩ := by
  simp only [State.setLcs, State.raise_lasting, State.wr_lasting]
  rfl

/-- A KEY_OP that burns the life-cycle state `n` completes. -/
theorem Burns.setLcs {l : Lasting} {s : State} {f : Fuses} {n : Nat} (hs : s.lasting = ⟨l.queue, f⟩)
    (hf : l.fuses.Burnt { f with lcs := n }) (tag : Nat) : Burns l (.next ((s.setLcs n).mgmtDone .keyOp tag .ok)) := by
  refine .next ?_ hf
  rw [State.mgmtDone_lasting, State.setLcs_lasting, hs]

theorem execKeyOpAdvance_burns (tag : BitVec 16) (len : BitVec 32) (state check : BitVec 8) (s : State) :
    Burns s.lasting (execKeyOpAdvance tag len state check s) := by
  refine State.keyOp_burns (fun u => ?_) s tag 0
  simp only []
  split
  · exact .of_lasting (by simp)
  · split
    · exact .of_lasting (by simp)
    · next hmay =>
      refine .setLcs (f := u.lasting.fuses) (by simp) ?_ _
      have hpermitted : lcsMay u.key.lcs state.toNat = true := by simpa using hmay
      exact ⟨.inr (.inl hpermitted), Nat.le_refl _, rfl, rfl⟩

theorem State.provisioned_lasting {s u : State} (h : u.lasting = s.lasting) (root : Nat) :
    (State.zeroize { u with key := { u.key with owner := some root } } 5 false).lasting =
      ⟨s.lasting.queue, { s.lasting.fuses with owner := some root }⟩ := by
  rw [State.zeroize_lasting, ← h]
  rfl

theorem execKeyOpProvision_burns (tag : BitVec 16) (len : BitVec 32) (addr : BitVec 48) (dma : Dma) (wrapped : List Byte)
    (s : State) : Burns s.lasting (execKeyOpProvision tag len addr dma wrapped s) := by
  refine State.keyOp_burns (fun u => ?_) s tag 0
  have hdma : (u.cmdDma false 0 addr.toNat dma).2.lasting = u.lasting := State.cmdDma_lasting _ _ _ _ _
  simp only []
  split
  · exact .of_lasting (by simp)
  · split
    · exact .of_lasting (by simp)
    · next hlcs =>
      have hfactory : u.lasting.fuses.lcs = 1 := not_not.mp hlcs
      split
      · exact .of_lasting (by simp)
      · split
        · split
          · exact .of_lasting (by simp)
          · exact .setLcs (State.provisioned_lasting hdma _) ⟨.inr (.inr ⟨hfactory, rfl⟩), Nat.le_refl _, rfl, rfl⟩ _
        · exact .of_lasting (by simp)

/-- R443: SEC_VER after a commit, the higher one of the fuses and the running image. -/
def State.committedSecVer (s : State) : Nat :=
  match s.upd.run with
  | some i => max s.key.secVer i.secVer.toNat
  | none => s.key.secVer

theorem State.secVer_le_committed (s : State) : s.key.secVer ≤ s.committedSecVer := by
  unfold State.committedSecVer
  split
  · exact Nat.le_max_left _ _
  · exact Nat.le_refl _

/-- The directory that a commit writes: the trial slot is the active one (R443). -/
def State.committedDir (s : State) : Directory :=
  let d := s.upd.dir
  let ver (k : Nat) : Nat := if k = 0 then d.ver0 else d.ver1
  { (d.slot d.active 1 (ver d.active)).slot d.trial 1 (ver d.trial) with
    active := d.trial, trial := 0xFF, reqHost := false, reqRun := false, attempted := false, store := s.migratedStore }

/-- The state that a commit leaves: SEC_VER raised and the directory written; besides, registers and events tell of it (R443). -/
def State.committed (s : State) : State :=
  let u := State.wr { s with key := { s.key with secVer := s.committedSecVer } } Reg.UPD_SEC_SEC_VER s.committedSecVer
  let v := ((u.wr Reg.UPD_STAT_STATE 0).wr Reg.UPD_STAT_TRIAL_LEFT_S 0).writeDir s.committedDir
  ((v.wr Reg.UPD_STAT_LAST_RESULT 0x0F).bump .upd C.UPD_COMMITS).updEvent 5

theorem execTrialCommit_eq (s : State) :
    execTrialCommit s = when (s.rd Reg.UPD_STAT_STATE == 4 && (s.on Reg.UPD_TRIAL_START_MET && s.on Reg.UPD_TRIAL_CFG_MET
      && s.on Reg.UPD_TRIAL_HOST_MET && s.on Reg.UPD_TRIAL_RUN_MET)) s s.committed := (rfl)

theorem State.committed_lasting (s : State) :
    s.committed.lasting = ⟨s.lasting.queue, { s.lasting.fuses with secVer := s.committedSecVer }⟩ := by
  simp only [State.committed, State.updEvent_lasting, State.bump_lasting, State.wr_lasting, State.writeDir_lasting]
  rfl

theorem execTrialCommit_burns (s : State) : Burns s.lasting (execTrialCommit s) := by
  rw [execTrialCommit_eq]
  unfold when
  split
  · exact .next s.committed_lasting ⟨.inl rfl, s.secVer_le_committed, rfl, rfl⟩
  · exact .of_lasting rfl

/-! ## Every command -/

/-- The commands that burn a fuse. -/
inductive BurnsFuse : Instr → Prop
  | advance (tag : BitVec 16) (len : BitVec 32) (state check : BitVec 8) : BurnsFuse (.keyOpAdvance tag len state check)
  | provision (tag : BitVec 16) (len : BitVec 32) (addr : BitVec 48) (dma : Dma) (wrapped : List Byte) :
    BurnsFuse (.keyOpProvision tag len addr dma wrapped)
  | commit : BurnsFuse .trialCommit

theorem exec_lasting {i : Instr} (h : ¬ BurnsFuse i) (s : State) : resultLasting (exec i s) = some s.lasting := by
  cases i
  case keyOpAdvance => exact absurd (.advance _ _ _ _) h
  case keyOpProvision => exact absurd (.provision _ _ _ _ _) h
  case trialCommit => exact absurd .commit h
  all_goals
    simp only [exec]
    simp

theorem exec_burns (i : Instr) (s : State) : Burns s.lasting (exec i s) := by
  by_cases h : BurnsFuse i
  · cases h with
    | advance => exact execKeyOpAdvance_burns _ _ _ _ s
    | provision => exact execKeyOpProvision_burns _ _ _ _ _ s
    | commit => exact execTrialCommit_burns s
  · exact .of_lasting (exec_lasting h s)

theorem exists_next_of_resultLasting {r : Result} {l : Lasting} (h : resultLasting r = some l) :
    ∃ t, r = .next t ∧ t.lasting = l := by
  cases r with
  | next t => exact ⟨t, rfl, Option.some.inj h⟩
  | fault _ => cases h
  | refused _ => cases h

/-- Settles O3: what `exec` leaves has a queue, so that it is a next state, and the queue is the one before. -/
theorem commandsAnswerNextAndKeepTheQueue : Obligations.CommandsAnswerNextAndKeepTheQueue := by
  unfold Obligations.CommandsAnswerNextAndKeepTheQueue
  refine ⟨fun c s => ?next, fun c s t hexec => ?queue⟩
  case next =>
    obtain ⟨g, hg, -⟩ := exec_burns c s
    obtain ⟨t, ht, -⟩ := exists_next_of_resultLasting hg
    exact ⟨t, ht⟩
  case queue =>
    obtain ⟨g, hg, -⟩ := exec_burns c s
    rw [hexec] at hg
    exact congrArg Lasting.queue (Option.some.inj hg)

theorem exec_fusesKept {c : Instr} {s t : State} (hexec : exec c s = .next t) : s.FusesKept t := by
  obtain ⟨g, hg, hburnt⟩ := exec_burns c s
  rw [hexec] at hg
  have ht : t.lasting = ⟨s.lasting.queue, g⟩ := Option.some.inj hg
  rw [State.fusesKept_iff, ht]
  exact hburnt

/-- Settles O5: the idle step leaves the fuses, three commands burn them along permitted transitions, and every other one leaves
them. -/
theorem fusesOnlyBurn : Obligations.FusesOnlyBurn := by
  unfold Obligations.FusesOnlyBurn
  refine ⟨fun s t hstep => ?burnt, fun c s t hexec hadvance hprovision hcommit => ?kept⟩
  case burnt =>
    unfold step at hstep
    split at hstep
    · cases hstep
      rw [State.fusesKept_iff, State.idle_lasting]
      exact .refl _
    · next c rest _ =>
      have hkept : State.FusesKept { s with pending := rest } t := exec_fusesKept hstep
      exact ⟨hkept.lcs, hkept.secVer, hkept.revoked, hkept.devid⟩
  case kept =>
    have hnone : ¬ BurnsFuse c := by
      rintro (_ | _ | _)
      · exact hadvance _ _ _ _ rfl
      · exact hprovision _ _ _ _ _ rfl
      · exact hcommit rfl
    have hkept := exec_lasting hnone s
    rw [hexec] at hkept
    have hfuses : t.key.fuses = s.key.fuses := congrArg Lasting.fuses (Option.some.inj hkept)
    exact ⟨congrArg Fuses.lcs hfuses, congrArg Fuses.owner hfuses, congrArg Fuses.secVer hfuses⟩

/-- Settles O1: `step` by its definition, where the queue is not empty. -/
theorem stepRunsFrontCommand : Obligations.StepRunsFrontCommand := by
  intro c rest s hs
  simp only [step, hs]

end Sys2Proof.Machine

/-! # Proofs of spec/14: engines, the scheduler and the Warden -/
namespace Sys2Proof.Machine
open Sys2Proof

/-! ## Engines (R11, R12, R297, R298, R300) -/

/-- The engine on which an operation without affinity runs is noted for it (R298). -/
def State.noteAff (s : State) (o : SchedOp) (e : Nat) : State :=
  match s.affKey o with
  | some k => { s with sched := { s.sched with aff := kvSet s.sched.aff k e } }
  | none => s

/-- R298: an engine that is free and keeps nothing takes the operation that it is given; without affinity and without an operation
taken before nothing else is counted. -/
theorem execEngineDispatch_free {s : State} {e : Fin 64} {x : Engine} {o : SchedOp} (hruns : s.engineRuns e = true)
    (hx : s.engine e = x) (hop : x.op = none) (hhold : x.hold = none) (hspill : x.spill = none) (hlast : x.last = none)
    (hpick : s.pickOp e false = some o) (haff : s.affinity o = none) :
    execEngineDispatch e s = .next ((((s.noteAff o e).setCluster (e.val / 4) { s.cluster (e.val / 4) with
      ready := (s.cluster (e.val / 4)).ready.erase o }).setEngine e
        { x with op := some o, last := some (o.src, o.inst, o.level) }).schedShow) := by
  subst hx
  simp only [execEngineDispatch, State.noteAff, hruns, hop, hhold, hspill, hlast, hpick, haff, Option.isSome_none, Bool.not_true,
    Bool.or_self, Bool.and_self, Bool.false_eq_true, if_false] <;> rfl

/-- R298: of the operations ready in a cluster those whose wait is over may run on any engine. -/
theorem execAffWaitExpiry_noBuiltin {s : State} {c : Fin 16} (hnone : s.builtinReady c = []) :
    execAffWaitExpiry c s = .next (s.setCluster c { s.cluster c with ready := (s.cluster c).ready.map (fun o =>
      if decide (o.ready + s.cf Reg.SCHED_CTL_AFF_WAIT_NS ≤ s.now) && (match s.affinity o with
        | some a => !(s.engine a).idle
        | none => false) then { o with free := true } else o) }) := by
  simp only [execAffWaitExpiry, hnone, List.filter_nil, List.foldl_nil] <;> rfl

/-- What an engine leaves whose operation has acted on the queues (R306 to R308). -/
def State.opActed (s : State) (e : Nat) (x : Engine) (acts : List QueueAct) : State :=
  acts.foldl State.queueAct (s.setEngine e { x with op := none })

/-- The same with the load of its cluster shown (R288). -/
def State.opEnded (s : State) (e : Nat) (x : Engine) (acts : List QueueAct) : State :=
  (s.opActed e x acts).free.2.wr (Reg.SCHED_CLU_LOAD_LOAD_PM (e / 4)) ((s.opActed e x acts).free.1 % 1001)

section
variable {s : State} {e : Fin 64} {x : Engine} {o : SchedOp} {acts : List QueueAct}

/-- The run of the graph is gone. -/
theorem execOpComplete_runGone {g : Nat} (hx : s.engine e = x) (hop : x.op = some o) (hsrc : o.src = .graph g)
    (hgone : (s.opEnded e x acts).graphRun g = none) :
    execOpComplete e acts s = .next (s.opEnded e x acts).schedShow := by
  subst hx
  have hrun : (s.opEnded e (s.engine e) acts).runOf o = none := by simp only [State.runOf, hsrc, hgone]
  unfold State.opEnded State.opActed at hrun ⊢
  simp only [execOpComplete, hop, hrun, hsrc]

/-- A built-in analysis goes on to its next step (R302). -/
theorem execOpComplete_builtin (hx : s.engine e = x) (hop : x.op = some o) (hsrc : ∀ g, o.src ≠ .graph g)
    (hon : (s.opEnded e x acts).builtins.any (fun b => b.1 == o.src) = true) :
    execOpComplete e acts s = .next ((s.opEnded e x acts).setChain
      ⟨o.src, o.inst, o.node + 1, (s.opEnded e x acts).now, false⟩).schedShow := by
  subst hx
  have hrun : (s.opEnded e (s.engine e) acts).runOf o = none := by
    unfold State.runOf
    split
    · next g hg => exact absurd hg (hsrc g)
    · rfl
  unfold State.opEnded State.opActed at hrun hon ⊢
  simp only [execOpComplete, hop, hrun, hon, if_true]

/-- The nodes that a node's results make ready, after it has run in part `inst` of `r` (R297). -/
def GRun.woken (r : GRun) (inst node : Nat) : List Nat :=
  (List.range r.nodes.length).filter (fun k =>
    ((r.nodes[k]?).map (fun n => n.uses node && n.inputs.all (fun i => (kvGet? r.vals (512 * inst + i)).isSome))).getD false)

/-- The node of a run makes its successors ready, and with the last one its part of the run is done (R12, R300). -/
theorem execOpComplete_node {q r : GRun} {t : State} (hx : s.engine e = x) (hop : x.op = some o)
    (hrun : (s.opEnded e x acts).runOf o = some q) (hnode : (s.opEnded e x acts).runNode q o.inst o.node = (r, t)) :
    execOpComplete e acts s = .next (if (List.range r.nodes.length).all (fun k => (kvGet? r.vals (512 * o.inst + k)).isSome)
      then ((t.makeReady r o.inst (r.woken o.inst o.node)).instanceDone r o.inst e).schedShow
      else (t.makeReady r o.inst (r.woken o.inst o.node)).schedShow) := by
  subst hx
  unfold State.opEnded State.opActed at hrun hnode
  simp only [execOpComplete, hop, hrun, hnode]
  rfl

end

/-- R300: the one result that an engine keeps enters a free place. -/
theorem execReleaseStageFree_kept {s t : State} {c : Fin 16} {e : Fin 64} {id inst : Nat} {r : GRun}
    (hspilled : ((List.range 4).map (fun i => 4 * c.val + i)).filterMap (fun e => (s.engine e).spill.map (fun p => (e, true, p))) = [])
    (hkept : ((List.range 4).map (fun i => 4 * c.val + i)).filterMap (fun e => (s.engine e).hold.map (fun p => (e, false, p)))
      = [(e.val, false, id, inst)])
    (hrun : s.graphRun id = some r) (hplace : s.takePlace c r inst = some t) :
    execReleaseStageFree c s = .next ((t.setEngine e { t.engine e with hold := none }).schedShow) := by
  simp only [execReleaseStageFree, hspilled, hkept, List.nil_append, hrun, hplace, Bool.false_eq_true, if_false]

/-! ## Starts of graphs (R293, R294, R299) -/

/-- R293: the one revision that waits starts every graph of its epoch that follows slices. -/
theorem execGraphRunStart_single {s : State} {w : Work} (hwork : s.stch.work = [w]) (hwho : w.who = .graphs)
    (hen : (s.cfgRev w.rev).fld Reg.SCHED_CTL_EN ≠ 0) (hepoch : w.rev.epoch = s.rd Reg.GLB_EPOCH_EPOCH) :
    execGraphRunStart s = .next (((((s.cfgRev w.rev).graphs.filter (fun e => !e.2.dirTimed)).foldl
      (fun y (e : Nat × Rec) => State.startGraph y (s.cfgRev w.rev) s.sched.place w.rev e.1 e.2)
        { s with stch := { s.stch with work := [] } })).schedShow) := by
  have hfind : [w].find? (fun w => w.who == .graphs) = some w := by simp [hwho]
  have hrd : State.rd { s with stch := { s.stch with work := [] } } Reg.GLB_EPOCH_EPOCH = w.rev.epoch := hepoch.symm
  simp only [execGraphRunStart, hwork, hfind, List.erase_cons_head, hrd, if_true, hen, if_false]

/-- A timed graph at a period instant that is reached (R293, R294). -/
structure State.TimedDue (s : State) (g : Nat) : Prop where
  sched : s.act.fld Reg.SCHED_CTL_EN ≠ 0
  on : (s.act.tab 18 g).dirOn = true
  timed : (s.act.tab 18 g).dirTimed = true
  period : (s.act.tab 18 g).dirPeriod ≠ 0
  due : kvGetD s.sched.timedNext g 0 ≤ s.now

/-- The next period instant of a timed graph is noted. -/
def State.timedNoted (s : State) (g : Nat) : State :=
  { s with sched := { s.sched with
    timedNext := kvSet s.sched.timedNext g (kvGetD s.sched.timedNext g 0 + (s.act.tab 18 g).dirPeriod) } }

theorem State.TimedDue.guard {s : State} {g : Nat} (h : s.TimedDue g) :
    ((((decide (s.act.fld Reg.SCHED_CTL_EN = 0) || !(s.act.tab 18 g).dirOn) || !(s.act.tab 18 g).dirTimed)
      || (s.act.tab 18 g).dirPeriod == 0) || decide (s.now < kvGetD s.sched.timedNext g 0)) = false := by
  obtain ⟨hsched, hon, htimed, hperiod, hdue⟩ := h
  simp [hsched, hon, htimed, hperiod, hdue]

theorem execGraphTimedStart_gap {s : State} {g : Fin 64} (hdue : s.TimedDue g) (hgap : s.stch.gap = true) :
    execGraphTimedStart g s = .next ((s.timedNoted g).emptyGraph g (s.act.tab 18 g) 0 2 (kvGetD s.sched.timedNext g 0)
      ((s.timedNoted g).rd Reg.GLB_EPOCH_EPOCH) 0 false).schedShow := by
  simp only [execGraphTimedStart, hdue.guard, hgap, if_true, Bool.false_eq_true, if_false]
  rfl

theorem execGraphTimedStart_starts {s y : State} {g : Fin 64} {v : Revision} {h : Nat × Nat} {r : GRun} (hdue : s.TimedDue g)
    (hgap : s.stch.gap = false) (hacted : (s.timedNoted g).acted = [v]) (hrev : v.rev = 0)
    (hrelease : v.release ≤ kvGetD s.sched.timedNext g 0) (hplace : kvGet? (s.timedNoted g).sched.place g = some h)
    (hfull : (s.timedNoted g).graphFull g = false)
    (hroom : (if (s.act.tab 18 g).dirSafety then [h.1, h.2] else [h.1]).any
      (fun c => decide (1024 ≤ ((s.timedNoted g).cluster c).delay.length)) = false)
    (hrun : (s.timedNoted g).newRun s.act g (s.act.tab 18 g) v true (kvGetD s.sched.timedNext g 0) v.instant v.epoch h = (r, y)) :
    execGraphTimedStart g s = .next ((r.instances.foldl (fun z i => z.setCluster (r.cluster i) { z.cluster (r.cluster i) with
      delay := delayInsert (z.cluster (r.cluster i)).delay (kvGetD s.sched.timedNext g 0, r.id, i) }) y).schedShow) := by
  have hnewest : [v].filter (fun r => r.rev == 0 && decide (r.release ≤ kvGetD s.sched.timedNext g 0)) = [v] := by
    simp [hrev, hrelease]
  unfold State.timedNoted at hacted hplace hfull hroom hrun
  simp only [execGraphTimedStart, hdue.guard, hgap, hacted, hnewest, List.foldl_cons, List.foldl_nil, hplace, hfull, hroom, hrun,
    Bool.false_eq_true, if_false]

/-! ## Warden work items (R303, R384) -/

theorem execWardenItemStart_idle {s : State} {pair : Fin 2} {made rest : List WardenItem} {p : WardenItem}
    (hidle : (s.wardenPair pair).running = none) (htop : takeTop ((s.wardenPair pair).ready ++ made) = some (p, rest)) (us : Nat) :
    execWardenItemStart pair us made s = .next (s.setWardenPair pair ⟨rest, some p⟩).schedShow := by
  simp only [execWardenItemStart, hidle, Option.isSome_none, Bool.false_eq_true, if_false, htop]

theorem execWardenItemOverrun_long {pair : Fin 2} {us : Nat} (hlong : (if pair = 0 then 20 else 100) < us) (s : State) :
    execWardenItemOverrun pair us s = .next (((s.itemTook us).schedEvent 8 pair).reportFree) := by
  simp only [execWardenItemOverrun, hlong, decide_true, when_true]

/-- Settles O56, one lemma for each command under the conditions of its clause. -/
theorem schedulerCommandsComplete : Obligations.SchedulerCommandsComplete := by
  unfold Obligations.SchedulerCommandsComplete
  intro e c g pair us o w made p rest acts id inst r s t
  refine ⟨?dispatch, ?wait, ?complete, ?release, ?delay, ?revision, ?timedGap, ?timed, ?item, ?overrun⟩
  case dispatch =>
    exact fun x hruns hx hop hhold hspill hlast hpick haff =>
      execEngineDispatch_free hruns hx hop hhold hspill hlast hpick haff
  case wait => exact fun hnone => execAffWaitExpiry_noBuiltin hnone
  case complete =>
    intro x hx hop
    refine ⟨fun _ hsrc hgone => execOpComplete_runGone hx hop hsrc hgone, fun hsrc hon => execOpComplete_builtin hx hop hsrc hon,
      fun q hrun hnode => ?node⟩
    have hdone := execOpComplete_node hx hop hrun hnode
    exact ⟨fun hall => hdone.trans (congrArg Host.Outcome.next (if_pos hall)),
      fun hall => hdone.trans (congrArg Host.Outcome.next (if_neg (ne_true_of_eq_false hall)))⟩
  case release => exact fun hspilled hkept hrun hplace => execReleaseStageFree_kept hspilled hkept hrun hplace
  case delay =>
    rintro _ rfl
    rfl
  case revision => exact fun hwork hwho hen hepoch => execGraphRunStart_single hwork hwho hen hepoch
  case timedGap => exact fun hsched hon htimed hperiod hdue hgap => execGraphTimedStart_gap ⟨hsched, hon, htimed, hperiod, hdue⟩ hgap
  case timed =>
    exact fun v h y hsched hon htimed hperiod hdue hgap hacted hrev hrelease hplace hfull hroom hrun =>
      execGraphTimedStart_starts ⟨hsched, hon, htimed, hperiod, hdue⟩ hgap hacted hrev hrelease hplace hfull hroom hrun
  case item => exact fun hidle htop => execWardenItemStart_idle hidle htop us
  case overrun => exact fun hlong => execWardenItemOverrun_long hlong s

end Sys2Proof.Machine

/-! # Proofs of spec/15: host rings, completions and events -/
namespace Sys2Proof.Machine
open Sys2Proof

/-! ## A management completion (R321, R328) -/

/-- R321: where the management ring has room, a completion changes the ring, the commands in progress and what registers show of
them. -/
theorem State.mgmtDone_fits {s : State} (hen : s.on (Reg.HIF_RING_CFG_EN 0) = true)
    (hroom : (s.ring 0).held.length < s.cqFree 0) (op : Opcode) (tag : Nat) (st : Status) (result : Nat) :
    s.mgmtDone op tag st result =
      (State.setRing { s with hif := { s.hif with
          running := s.hif.running.erase (op.code, tag), hostOk := s.hif.hostOk || st == .ok } } 0
        { s.ring 0 with held := (s.ring 0).held ++ [mgmtCpl st op tag result] }).backlog 0 :=
  State.complete_fits (s := { s with hif := { s.hif with
    running := s.hif.running.erase (op.code, tag), hostOk := s.hif.hostOk || st == .ok } }) hen hroom _

theorem State.backlog_ring (s : State) (r q : Nat) : (s.backlog r).ring q = s.ring q := rfl

/-- Settles O15, by what a completion with room changes. -/
theorem managementCompletionQueued : Obligations.ManagementCompletionQueued := by
  unfold Obligations.ManagementCompletionQueued
  intro s op tag st result hen hroom
  rw [State.mgmtDone_fits hen hroom]
  exact ⟨by rw [State.backlog_ring, State.setRing_ring], rfl, rfl, rfl, rfl, rfl, rfl⟩

/-! ## Descriptors (R323, R328) -/

/-- Where the next descriptor of ring `r` stands in its submission queue. -/
def State.sqNext (s : State) (r : Nat) : Nat :=
  (s.rd (Reg.HIF_RING_STAT_SQ_HEAD r) + (s.ring r).fetched.length) % 65536

/-- Ring `r` can fetch a descriptor that is posted (R318, R323). -/
structure State.Fetches (s : State) (r : Nat) : Prop where
  up : s.hostUp = true
  enabled : s.on (Reg.HIF_RING_CFG_EN r) = true
  going : (s.ring r).stopped = false
  free : s.chanFree r = true
  posted : (s.ring r).fetched.length < s.sqFill r
  room : s.rd (Reg.HIF_RING_STAT_BACKLOG r) < 256
  awake : s.pwr.sleep = none

/-- What becomes of a descriptor fetched for ring `r`, of a kind, with state `v` after it was counted: the management ring's is a
command or malformed, a transmit descriptor is kept, a buffer descriptor is kept or skipped. -/
def State.takeDesc (v : State) (r kind idx d : Nat) : State :=
  if r = 0 then
    let z := v.wr (Reg.HIF_RING_STAT_SQ_HEAD 0) ((idx + 1) % 65536)
    if mgmtWellFormed d then z else z.complete 0 (Status.invalid.code + 2 ^ 8 * descByte d 0 + 2 ^ 16 * bits d 16 16)
  else if kind = 1 then v.setRing r { v.ring r with fetched := (v.ring r).fetched ++ [some d] }
  else if bufWellFormed d then v.setRing r { v.ring r with fetched := (v.ring r).fetched ++ [some (bits d 64 48)] }
  else ((v.setRing r { v.ring r with fetched := (v.ring r).fetched ++ [none] }).bump .hif C.HIF_DESC_INVALID r).raise 241
    [(Reg.HIF_EVT_IDX_RING 1, r)]

theorem execDescriptorFetch_fetched {s u : State} {ring : Fin 64} {dma : Dma} (h : s.Fetches ring)
    (hkind : s.rd (Reg.HIF_RING_CFG_KIND ring) ≠ 5) (hserved : s.rd (Reg.HIF_RING_CFG_KIND ring) ≠ 0 ∨ ring.val = 0)
    (hdma : s.dma ring 0 false (s.sqNext ring) 0 (64 * s.rd (Reg.HIF_RING_SQ_ADDR ring)
      + 32 * (s.sqNext ring % 2 ^ s.rd (Reg.HIF_RING_CFG_SQ_LOG2 ring))) dma = (true, u)) (desc : BitVec 256) :
    execDescriptorFetch ring desc dma s = .next ((u.bump .hif C.HIF_DESCRIPTORS ring).takeDesc ring
      (s.rd (Reg.HIF_RING_CFG_KIND ring)) (s.sqNext ring) desc.toNat) := by
  obtain ⟨hup, hen, hgoing, hfree, hposted, hroom, hawake⟩ := h
  unfold State.sqNext at hdma ⊢
  simp only [execDescriptorFetch, hup, hen, hgoing, hfree, hkind, hserved, hposted, hroom, hawake, hdma, State.takeDesc,
    ne_eq, not_false_eq_true, and_self, decide_true, Option.isNone_none, Bool.or_true, Bool.not_true, Bool.not_false, Bool.and_self,
    Bool.false_eq_true, if_false]
  (repeat' split) <;> rfl

/-- Settles O36, by the cases of `State.takeDesc`. -/
theorem descriptorFetchCompletes : Obligations.DescriptorFetchCompletes := by
  unfold Obligations.DescriptorFetchCompletes
  intro ring desc dma s u r idx hup hen hgoing hfree hposted hroom hawake hdma v
  have hfetch : s.rd (Reg.HIF_RING_CFG_KIND r) ≠ 5 → s.rd (Reg.HIF_RING_CFG_KIND r) ≠ 0 ∨ r = 0 →
      exec (.descriptorFetch ring desc dma) s = .next (v.takeDesc r (s.rd (Reg.HIF_RING_CFG_KIND r)) idx desc.toNat) :=
    fun hkind hserved => execDescriptorFetch_fetched ⟨hup, hen, hgoing, hfree, hposted, hroom, hawake⟩ hkind hserved hdma desc
  clear_value r idx v
  refine ⟨?command, ?malformed, ?transmit, ?buffer, ?skipped⟩
  case command =>
    intro hr hkind hform
    rw [hfetch hkind (.inr hr), State.takeDesc, if_pos hr, if_pos hform]
  case malformed =>
    intro hr hkind hform
    rw [hfetch hkind (.inr hr), State.takeDesc, if_pos hr, if_neg (ne_true_of_eq_false hform)]
  case transmit =>
    intro hr hkind
    rw [hfetch (by omega) (.inl (by omega)), State.takeDesc, if_neg hr, if_pos hkind]
  case buffer =>
    intro hr hkind hform
    rw [hfetch (by omega) (.inl (by omega)), State.takeDesc, if_neg hr, if_neg (by omega), if_pos hform]
  case skipped =>
    intro hr hkind hform
    rw [hfetch (by omega) (.inl (by omega)), State.takeDesc, if_neg hr, if_neg (by omega), if_neg (ne_true_of_eq_false hform)]

/-! ## Completions and event entries (R318, R321, R322, R335, R345) -/

/-- `s` after the first `n` completions of ring `r` are written, in the order of production, and its registers show them. -/
def State.cplWritten (s u : State) (r n : Nat) : State :=
  let g := s.ring r
  let a := (List.range n).foldl (fun s k => s.emit (.completion r ((g.cqTail + k) % 65536) (((g.held.take n)[k]?).getD 0))) u
  let b := (a.setRing r { a.ring r with held := g.held.drop n, cqTail := (g.cqTail + n) % 65536 }).backlog r
  (b.bumpBy .hif C.HIF_COMPLETIONS n r).freeStamps (b.rd (Reg.HIF_RING_CFG_KIND r)) (g.held.take n)

theorem execCompletionWrite_written {s u : State} {ring : Fin 64} {dma : Dma} (hup : s.hostUp = true)
    (hfree : s.chanFree ring = true) (hsome : 0 < min (s.ring ring).held.length (s.cqFree ring))
    (hdma : s.dma ring 2 true (s.ring ring).cqTail 0 (64 * s.rd (Reg.HIF_RING_CQ_ADDR ring)
      + 16 * ((s.ring ring).cqTail % 2 ^ s.rd (Reg.HIF_RING_CFG_CQ_LOG2 ring))) dma = (true, u))
    (hkind : (s.cplWritten u ring (min (s.ring ring).held.length (s.cqFree ring))).rd (Reg.HIF_RING_CFG_KIND ring) ≠ 4)
    (progress : Dma) :
    execCompletionWrite ring dma progress s =
      .next (((s.cplWritten u ring (min (s.ring ring).held.length (s.cqFree ring))).progressed ring
        (min (s.ring ring).held.length (s.cqFree ring)) progress).settle ring) := by
  unfold State.cplWritten at hkind ⊢
  simp only [] at hkind
  simp only [execCompletionWrite, hup, hfree, hsome, hdma, hkind, decide_true, Bool.and_self, Bool.not_true, Bool.false_eq_true,
    if_false]

theorem execIrqCoalTimeout_over {s : State} {ring : Fin 64} (hen : s.on (Reg.HIF_RING_IRQ_IRQ_EN ring) = true)
    (hunsig : 0 < (s.ring ring).unsig)
    (hover : (s.ring ring).unsigAt + 1000 * s.rd (Reg.HIF_RING_IRQ_COAL_US ring) ≤ s.now) :
    execIrqCoalTimeout ring s = .next (s.signal ring) := by
  simp only [execIrqCoalTimeout, hen, hunsig, hover, decide_true, Bool.and_self, when_true]

section
variable {s : State} {q : Fin 4} {r : Nat} {w : EvWait} (hring : s.evqRing q.val = some r)
  (holdest : s.hif.evWait.find? (fun w => s.rd (Reg.HIF_EVT_ROUTE_EVQ w.src) == q.val) = some w) (hup : s.hostUp = true)
  (hfree : s.chanFree r = true)
include hring holdest hup hfree

theorem execEventEntryWrite_full (hfull : s.cqFree r = 0) (dma : Dma) :
    execEventEntryWrite q dma s = .next (s.raise 242 [(Reg.HIF_EVT_IDX_RING 2, r)]) := by
  simp only [execEventEntryWrite, hring, holdest, hup, hfree, hfull, Bool.and_self, Bool.not_true, Bool.false_eq_true, if_false,
    if_true]

/-- `u` after the event entry `w` is written to ring `r` in place of the entry at `tail`. -/
def State.eventWritten (u : State) (r tail : Nat) (w : EvWait) : State :=
  let v := State.emit { u with hif := { u.hif with evWait := u.hif.evWait.erase w } } (.eventEntry r tail (evEntry w))
  (v.setRing r { v.ring r with cqTail := (tail + 1) % 65536 }).bump .hif C.HIF_COMPLETIONS r

theorem execEventEntryWrite_written {u : State} {dma : Dma} (hroom : s.cqFree r ≠ 0)
    (hdma : s.dma r 2 true (s.ring r).cqTail 0 (64 * s.rd (Reg.HIF_RING_CQ_ADDR r)
      + 16 * ((s.ring r).cqTail % 2 ^ s.rd (Reg.HIF_RING_CFG_CQ_LOG2 r))) dma = (true, u)) :
    execEventEntryWrite q dma s = .next ((u.eventWritten r (s.ring r).cqTail w).progressed r 1 dma) := by
  simp only [execEventEntryWrite, hring, holdest, hup, hfree, hroom, hdma, State.eventWritten, Bool.and_self, Bool.not_true,
    Bool.false_eq_true, if_false]

end

/-- Settles O37, one lemma for each command under the conditions of its clause. -/
theorem completionAndEventWritesComplete : Obligations.CompletionAndEventWritesComplete := by
  unfold Obligations.CompletionAndEventWritesComplete
  intro ring dma progress q w r s u
  refine ⟨?completions, ?coalesced, ?full, ?entry⟩
  case completions =>
    intro hup hfree hsome hdma g a b d hkind
    exact execCompletionWrite_written hup hfree hsome hdma hkind progress
  case coalesced => exact fun hen hunsig hover => execIrqCoalTimeout_over hen hunsig hover
  case full => exact fun hring holdest hup hfree hfull => execEventEntryWrite_full hring holdest hup hfree hfull dma
  case entry => exact fun hring holdest hup hfree hroom hdma => execEventEntryWrite_written hring holdest hup hfree hroom hdma

end Sys2Proof.Machine

/-! # Proofs of spec/22 and spec/16: errors, the Cairn, translation and faults -/
namespace Sys2Proof.Machine
open Sys2Proof

/-! ## The Cairn (R453 to R461) -/

section
variable {s u : State} {len : BitVec 32} {addr : BitVec 48} {entries : List (BitVec 64 × BitVec 32 × BitVec 32)} {dma : Dma}
  (hs : s.Serving) (hgrid : len.toNat % 16 = 0) (hmin : 16 ≤ len.toNat) (hmax : len.toNat ≤ 16384)
  (hdma : s.cmdDma false 0 addr.toNat dma = (true, u))
include hs hgrid hmin hmax hdma

theorem execCairnPost_malformed (hbad : entries.all bufferOk = false) (tag : BitVec 16) :
    execCairnPost tag len addr entries dma s = .next (u.mgmtDone .cairn tag.toNat .invalid) := by
  have hlen : ¬ (len.toNat % 16 ≠ 0 ∨ len.toNat < 16 ∨ 16384 < len.toNat) := by omega
  simp only [execCairnPost, State.served_of_serving hs, hlen, hdma, hbad, if_false, Bool.not_true, Bool.not_false, if_true,
    Bool.false_eq_true]

/-- `u` with a list of buffers posted, as its registers show it (R454, R455). -/
def State.cairnPosted (u : State) (l : List (Nat × Nat)) : State :=
  ((State.wr { u with err := { u.err with posted := some l } } Reg.ERR_STAT_POSTED 1).wr Reg.ERR_HAVE_HAVE_MIB
    (postedLen l / 2 ^ 20)).needShow

theorem execCairnPost_posted (hok : entries.all bufferOk = true) (tag : BitVec 16) :
    let l := entries.map (fun e => (e.1.toNat, e.2.1.toNat))
    execCairnPost tag len addr entries dma s = .next ((u.cairnPosted l).mgmtDone .cairn tag.toNat .ok
      ((u.cairnPosted l).need (u.cairnPosted l).now + 2 ^ 64 * (postedLen l / 2 ^ 20))) := by
  have hlen : ¬ (len.toNat % 16 ≠ 0 ∨ len.toNat < 16 ∨ 16384 < len.toNat) := by omega
  simp only [execCairnPost, State.cairnPosted, State.served_of_serving hs, hlen, hdma, hok, if_false, Bool.not_true,
    Bool.false_eq_true]

end

section
variable {s : State} {r : ErrRec} (hfatal : s.err.fatal = some r)
include hfatal

theorem execCairnDone_resets {faults : List (Nat × Dma)} (hhalt : (s.writeDump r faults).on Reg.ERR_CTL_HALT = false) :
    execCairnDone faults s = .next (s.writeDump r faults).cairnReset := by
  simp only [execCairnDone, hfatal, hhalt, Bool.false_eq_true, if_false]

theorem execCairnDone_halts {faults : List (Nat × Dma)} (hhalt : (s.writeDump r faults).on Reg.ERR_CTL_HALT = true) :
    execCairnDone faults s = .next (State.wr { s.writeDump r faults with
      err := { (s.writeDump r faults).err with fatal := none } } Reg.ERR_STAT_CAIRN 0) := by
  simp only [execCairnDone, hfatal, hhalt, if_true]

theorem execCairnTimeout_due (hdue : r.ts + 10000000 ≤ s.now) : execCairnTimeout s = .next s.cairnReset := by
  simp only [execCairnTimeout, hfatal, hdue, decide_true, when_true]

end

/-- Settles O32: the posted list, its withdrawal and the forced Cairn by the management ring that serves them, the Cairn's end by
HALT. -/
theorem cairnCommandsComplete : Obligations.CairnCommandsComplete := by
  unfold Obligations.CairnCommandsComplete
  intro tag len addr entries dma faults r s u
  refine ⟨?posted, ?malformed, ?withdrawn, ?forced, ?resets, ?halts, ?timeout⟩
  case posted => exact fun hs hgrid hmin hmax hdma hok => execCairnPost_posted hs hgrid hmin hmax hdma hok tag
  case malformed => exact fun hs hbad hgrid hmin hmax hdma => execCairnPost_malformed hs hgrid hmin hmax hdma hbad tag
  case withdrawn => exact fun hs => State.served_of_serving hs _ tag _
  case forced => exact fun hs => State.served_of_serving hs _ tag _
  case resets => exact fun hfatal hhalt => execCairnDone_resets hfatal hhalt
  case halts => exact fun hfatal hhalt => execCairnDone_halts hfatal hhalt
  case timeout => exact fun hfatal hdue => execCairnTimeout_due hfatal hdue

/-! ## Errors and injection (R383, R384, R450, R453, R463) -/

section
variable {s : State} (hlit : s.dark = false)
include hlit

/-- Code 4, an error of a link, counts a retry too. -/
theorem execCorrectableError_lit (code : Fin 4) (mem : BitVec 8) (unit : BitVec 16) (addr : BitVec 64) :
    execCorrectableError code mem unit addr s = .next ((if 1 + code.val = 4
      then (s.injected mem.toNat false).bump .pair C.PAIR_LINK_RETRY else s.injected mem.toNat false).correctable
        mem.toNat unit.toNat (1 + code.val) addr.toNat) := by
  simp only [execCorrectableError, hlit, Bool.not_false, when_true]

/-- A recoverable error in the data of a safety flow takes the safe state, any other one is reported. -/
theorem execRecoverableError_lit (struck : Struck) (mem : BitVec 8) (unit : BitVec 16) (addr : BitVec 64) (safety : Bool) :
    let t := ((s.injected mem.toNat true).struck struck).recoverable mem.toNat unit.toNat struck.code addr.toNat
    execRecoverableError struck mem unit addr safety s = .next (if safety then t.react 0x07 else t.report 0x07) := by
  simp only [execRecoverableError, hlit, Bool.not_false, when_true]

theorem execScrub_lit (found : List (Fin 6 × BitVec 64 × Bool)) :
    execScrub found s = .next ((found.foldl State.scrubbed s).bump .safe C.SAFE_ECC_SCRUB_PASSES) := by
  simp only [execScrub, hlit, Bool.not_false, when_true]

/-- R383: the first fatal error in a memory is reported. -/
theorem execFatalError_memory {code : Fin 6} (hfirst : s.on Reg.ERR_STAT_FATAL = false) (hlockstep : code.val ≠ 3)
    (hlink : code.val ≠ 5) (mem : BitVec 8) (unit : BitVec 16) (addr : BitVec 64) :
    execFatalError code mem unit addr s =
      .next (((s.injected mem.toNat true).report 0x07).fatal (0x20 + code.val) mem.toNat unit.toNat addr.toNat) := by
  have hmemory : (0x20 + code.val == 0x23 || 0x20 + code.val == 0x25) = false := by
    simp only [Bool.or_eq_false_iff, beq_eq_false_iff_ne]
    omega
  simp only [execFatalError, hmemory, hlit, hfirst, Bool.not_false, Bool.and_self, if_true]

end

section
variable {s : State} {mem : Fin 8} (hopen : s.barOpen 0x1E0040 = true)
include hopen

theorem execErrInjSingle_armed (hmem : mem.val < 6) :
    execErrInjSingle mem s = .next { s with err := { s.err with inj := s.err.inj ++ [(mem.val, false)] } } := by
  simp only [execErrInjSingle, hopen, hmem, decide_true, Bool.and_self, when_true]

theorem execErrInjDouble_armed (hmem : mem.val < 6) (hwarden : mem.val ≠ 0) :
    execErrInjDouble mem s = .next { s with err := { s.err with inj := s.err.inj ++ [(mem.val, true)] } } := by
  have hzero : mem ≠ 0 := fun h => hwarden (congrArg Fin.val h)
  simp [execErrInjDouble, hopen, Nat.not_le.mpr hmem, hzero]

/-- R463: without debug a double error is not injected into Warden memory. -/
theorem execErrInjDouble_refused (hdebug : s.on Reg.GLB_LCS_DEBUG = false) :
    execErrInjDouble 0 s = .next (s.wr Reg.ERR_STAT_INJ_REF 1) := by
  simp [execErrInjDouble, hopen, hdebug]

end

/-- Settles O33, one lemma for each command under the conditions of its clause. -/
theorem errorsAndInjectionComplete : Obligations.ErrorsAndInjectionComplete := by
  unfold Obligations.ErrorsAndInjectionComplete
  intro code fcode struck mem8 unit addr mem found s
  refine ⟨?correctable, ?link, ?safety, ?recoverable, ?memory, rfl, ?scrub, ?single, ?double, ?refused⟩
  case correctable =>
    intro hlit hcode
    exact (execCorrectableError_lit hlit code mem8 unit addr).trans (by rw [if_neg (by omega)])
  case link => exact fun hlit => execCorrectableError_lit hlit 3 mem8 unit addr
  case safety => exact fun hlit => execRecoverableError_lit hlit struck mem8 unit addr true
  case recoverable => exact fun hlit => execRecoverableError_lit hlit struck mem8 unit addr false
  case memory => exact fun hlit hfirst hlockstep hlink => execFatalError_memory hlit hfirst hlockstep hlink mem8 unit addr
  case scrub => exact fun hlit => execScrub_lit hlit found
  case single => exact fun hopen hmem => execErrInjSingle_armed hopen hmem
  case double => exact fun hopen hmem hwarden => execErrInjDouble_armed hopen hmem hwarden
  case refused => exact fun hopen hdebug => execErrInjDouble_refused hopen hdebug

/-! ## Translation: invalidations, suspended items, failed reads (R343 to R354) -/

theorem execXltInvalidateRange_legal {s : State} (hopen : s.barOpen 0x2002C = true) (hmin : 12 ≤ s.xlt.invLow.toNat % 64)
    (hmax : s.xlt.invLow.toNat % 64 ≤ 48) (high : BitVec 32) :
    let k := s.xlt.invLow.toNat % 64
    execXltInvalidateRange high s = .next (s.issueInv
      (some ((s.xlt.invLow.toNat / 2 ^ 12 * 2 ^ 12 + 2 ^ 32 * (high.toNat % 2 ^ 16)) / 2 ^ k * 2 ^ k, k))) := by
  simp only [execXltInvalidateRange, hopen, hmin, hmax, decide_true, Bool.and_self, when_true]

theorem execXltInvalidateAll_open {s : State} (hopen : s.barOpen 0x2002C = true) (high : BitVec 32) :
    execXltInvalidateAll high s = .next (s.issueInv none) := by
  simp only [execXltInvalidateAll, hopen, when_true]

theorem execXltInvComplete_oldest {s : State} {i : InvReq} {rest : List InvReq} (hinvs : s.xlt.invs = i :: rest) :
    let v : State := { s with xlt := { s.xlt with invs := rest, tlb := dropRange s.xlt.tlb i.range } }
    execXltInvComplete s = .next ((((v.wr Reg.XLT_INV_STAT_DONE (v.rd Reg.XLT_INV_STAT_DONE + 1)).wrB Reg.XLT_STAT_INV_BUSY
      (!rest.isEmpty)).bump .xlt C.XLT_INVALIDATIONS).raise 245) := by
  simp only [execXltInvComplete, hinvs]

/-- R347: the high word of XLT_FRING_BASE. -/
theorem execFringBaseWrite_high {s : State} (hopen : s.barOpen 0x20018 = true) (value : BitVec 32) :
    execFringBaseWrite 1 value s = .next (((s.wr Reg.XLT_FRING_BASE_ADDR (setBits (s.rd Reg.XLT_FRING_BASE_ADDR) 20 20
      (value.toNat % 2 ^ 20))).wr Reg.XLT_FRING_HEAD_HEAD 0).wr Reg.XLT_FRING_TAIL_TAIL 0) := by
  have hword : (1 : Fin 2) ≠ 0 := by decide
  simp only [execFringBaseWrite, hopen, hword, if_false, when_true]

section
variable {s : State} {chan : BitVec 16} (hs : s.Serving)
include hs

/-- R348: with no invalidation under way a suspended item is retried at once. -/
theorem execResumeRetry_retries {u : Susp} (hmgmt : chan.toNat ≠ 0) (hctl : chan.toNat ≠ 64)
    (hsusp : kvGet? s.xlt.susp chan.toNat = some u) (hidle : u.resume = none) (hinvs : s.xlt.invs = []) (tag : BitVec 16)
    (dma : Dma) : execResumeRetry (some tag) chan dma s = .next (s.retry (some tag.toNat) chan.toNat u dma) := by
  simp [execResumeRetry, State.served_of_serving hs, State.retryable, reservedForMmio, hsusp, hidle, hinvs, hmgmt, hctl]

theorem execResumeSkip_data {u : Susp} (hmgmt : chan.toNat ≠ 0) (hctl : chan.toNat ≠ 64)
    (hsusp : kvGet? s.xlt.susp chan.toNat = some u) (hidle : u.resume = none) (hdata : u.stream = 1) (tag : BitVec 16) :
    execResumeSkip (some tag) chan s =
      .next (((((s.unsuspend chan.toNat).skipItem chan.toNat u).bump .xlt C.XLT_RESUMES).bump .xlt C.XLT_SKIPS).mgmtDone
        .resume tag.toNat .ok (u.item + 2 ^ 16 * u.cls)) := by
  simp [execResumeSkip, State.served_of_serving hs, reservedForMmio, State.resumeEnds, Susp.result, hsusp, hidle, hdata, hmgmt, hctl]

theorem execResumeRetry_notSuspended (hnone : kvGet? s.xlt.susp chan.toNat = none) (tag : BitVec 16) (dma : Dma) :
    execResumeRetry (some tag) chan dma s = .next (s.mgmtDone .resume tag.toNat .invalid) := by
  simp [execResumeRetry, State.served_of_serving hs, State.retryable, State.resumeEnds, hnone]

theorem execResumeSkip_notSuspended (hnone : kvGet? s.xlt.susp chan.toNat = none) (tag : BitVec 16) :
    execResumeSkip (some tag) chan s = .next (s.mgmtDone .resume tag.toNat .invalid) := by
  simp [execResumeSkip, State.served_of_serving hs, State.resumeEnds, hnone]

end

/-- R450: a read that completes with an error suspends its channel. -/
theorem execPcieErrorCompletion_read {s t : State} {c : Fin 65} {stream item dva : Nat} (hup : s.hostUp = true)
    (hfree : s.chanFree c = true) (hread : s.readInFlight c = some (stream, item, dva, t)) :
    execPcieErrorCompletion c s = .next ((((t.suspMark c ⟨0, stream, false, item, dva, 0, 0, none⟩).recoverable 0xFF c 0x16 dva).bump
      .err C.ERR_PCIE_DATA).raise 251) := by
  simp only [execPcieErrorCompletion, hup, hfree, hread, Bool.and_self, Bool.not_true, Bool.false_eq_true, if_false]

/-- Settles O38, one lemma for each command under the conditions of its clause. -/
theorem translationCommandsComplete : Obligations.TranslationCommandsComplete := by
  unfold Obligations.TranslationCommandsComplete
  intro high i rest value tag chan dma u c stream item dva s t k
  refine ⟨?range, ?all, ?completed, ?base, ?retry, ?skip, ?none, ?read⟩
  case range => exact fun hopen hmin hmax => execXltInvalidateRange_legal hopen hmin hmax high
  case all => exact fun hopen => execXltInvalidateAll_open hopen high
  case completed => exact fun hinvs => execXltInvComplete_oldest hinvs
  case base => exact fun hopen => execFringBaseWrite_high hopen value
  case retry => exact fun hs hmgmt hctl hsusp hidle hinvs => execResumeRetry_retries hs hmgmt hctl hsusp hidle hinvs tag dma
  case skip => exact fun hs hmgmt hctl hsusp hidle hdata => execResumeSkip_data hs hmgmt hctl hsusp hidle hdata tag
  case none => exact fun hs hnone => ⟨execResumeRetry_notSuspended hs hnone tag dma, execResumeSkip_notSuspended hs hnone tag⟩
  case read => exact fun hup hfree hread => execPcieErrorCompletion_read hup hfree hread

end Sys2Proof.Machine

/-! # Proofs of spec/18 and spec/20: the two-write sequences -/
namespace Sys2Proof.Machine
open Sys2Proof

/-! ## The claim epoch and how far the two-write sequences have come (R356, R389, R415)

A register write outside the words of the sequences, a block restart and a zeroize leave them: one lemma `…_latches` per operation
that these reach. -/

/-- The claim epoch, and whether the first value of SAFE_FORCE and of PWR_RST was written last. -/
structure Latches where
  claimEpoch : Nat
  safeForce : Bool
  pwrRst : Bool

def State.latches (s : State) : Latches := ⟨s.pair.epoch, s.safety.armed, s.pwr.armed⟩

@[simp] theorem State.latches_eta (s : State) : (⟨s.pair.epoch, s.safety.armed, s.pwr.armed⟩ : Latches) = s.latches := (rfl)

@[simp] theorem State.latches_mk (pending dev act shd ret glb tb port pair safety key pwr upd err sched fsl ing slots bound
    phe rawSv stch pins lse osc isl cap pub hif xlt freeCtr out) :
    (State.mk pending dev act shd ret glb tb port pair safety key pwr upd err sched fsl ing slots bound
      phe rawSv stch pins lse osc isl cap pub hif xlt freeCtr out).latches = ⟨pair.epoch, safety.armed, pwr.armed⟩ := (rfl)

@[simp] theorem State.latches_ite (c : Prop) [Decidable c] (s t : State) :
    (if c then s else t).latches = if c then s.latches else t.latches :=
  apply_ite _ _ _ _

@[simp] theorem State.wr_latches (s : State) (f v) : (s.wr f v).latches = s.latches := (rfl)

@[simp] theorem State.wrB_latches (s : State) (f v) : (s.wrB f v).latches = s.latches := (rfl)

@[simp] theorem State.orBit_latches (s : State) (f v) : (s.orBit f v).latches = s.latches := (rfl)

@[simp] theorem State.wrInstant_latches (s : State) (f v t) : (s.wrInstant f v t).latches = s.latches := (rfl)

@[simp] theorem State.emit_latches (s : State) (o) : (s.emit o).latches = s.latches := (rfl)

@[simp] theorem State.setRing_latches (s : State) (f v) : (s.setRing f v).latches = s.latches := (rfl)

@[simp] theorem State.backlog_latches (s : State) (f) : (s.backlog f).latches = s.latches := (rfl)

@[simp] theorem State.foldl_latches {α : Type} {f : State → α → State} (h : ∀ s a, (f s a).latches = s.latches) (l : List α)
    (s : State) : (l.foldl f s).latches = s.latches := by
  induction l generalizing s with
  | nil => rfl
  | cons a l ih => rw [List.foldl_cons, ih, h]

/-- R335: what a source changes when it is raised is none of it. -/
@[simp] theorem State.raise_latches (s : State) (src : Nat) (idx : List (Fld × Nat)) :
    (State.raise s src idx).latches = s.latches := by
  obtain ⟨d, w, l, h⟩ := s.raise_eventsOnly src idx
  rw [h]
  rfl

@[simp] theorem State.portCause_latches (s : State) (n k : Nat) : (State.portCause s n k).latches = s.latches := by
  simp [State.portCause]

@[simp] theorem State.bumpBy_latches (s : State) (b : Blk) (i d : Nat) (x : Nat) :
    (State.bumpBy s b i d x).latches = s.latches := by
  simp [State.bumpBy]

@[simp] theorem State.bump_latches (s : State) (b : Blk) (i : Nat) (x : Nat) :
    (State.bump s b i x).latches = s.latches := by
  simp [State.bump]

@[simp] theorem State.portCount_latches (s : State) (n i : Nat) (d : Nat) :
    (State.portCount s n i d).latches = s.latches := by
  simp [State.portCount]

@[simp] theorem State.complete_latches (s : State) (r c : Nat) : (State.complete s r c).latches = s.latches := by
  simp [State.complete]

@[simp] theorem State.mgmtDone_latches (s : State) (op : Opcode) (tag : Nat) (st : Status) (result : Nat) :
    (State.mgmtDone s op tag st result).latches = s.latches := by
  simp [State.mgmtDone]

@[simp] theorem State.pairEvent_latches (s : State) (k : Nat) : (State.pairEvent s k).latches = s.latches := by
  simp [State.pairEvent]

@[simp] theorem State.routeDiscard_latches (s : State) : (State.routeDiscard s).latches = s.latches := by
  simp [State.routeDiscard]

@[simp] theorem State.emitHjel_latches (s : State) (unit vc : Nat) (m : Hjel) :
    (State.emitHjel s unit vc m).latches = s.latches := by
  simp [State.emitHjel]

@[simp] theorem State.sendHjel_latches (s : State) (unit vc : Nat) (m : Hjel) :
    (State.sendHjel s unit vc m).latches = s.latches := by
  unfold State.sendHjel
  split <;> simp

@[simp] theorem State.toPeer_latches (s : State) (vc : Nat) (m : Hjel) : (State.toPeer s vc m).latches = s.latches := by
  simp [State.toPeer]

@[simp] theorem State.dropItem_latches (s : State) (i : PubItem) : (State.dropItem s i).latches = s.latches := by
  simp [State.dropItem]

@[simp] theorem State.setCapChan_latches (s : State) (c : Nat) (x : CapChan) :
    (State.setCapChan s c x).latches = s.latches := by
  simp [State.setCapChan]

@[simp] theorem State.capEvent_latches (s : State) (k c : Nat) : (State.capEvent s k c).latches = s.latches := by
  simp [State.capEvent]

@[simp] theorem State.capComplete_latches (s : State) (c : Nat) (overflow aborted : Bool) :
    (State.capComplete s c overflow aborted).latches = s.latches := by
  simp only [State.capComplete]
  (repeat' split) <;> simp

@[simp] theorem State.capIdle_latches (s : State) (c : Nat) (abort : Bool) :
    (State.capIdle s c abort).latches = s.latches := by
  simp [State.capIdle]

@[simp] theorem State.capBivouac_latches (s : State) : (State.capBivouac s).latches = s.latches := by
  simp [State.capBivouac]

@[simp] theorem State.setTq_latches (s : State) : (State.setTq s).latches = s.latches := by
  simp [State.setTq]

@[simp] theorem State.setTbState_latches (s : State) (st : Nat) : (State.setTbState s st).latches = s.latches := by
  simp [State.setTbState]

@[simp] theorem State.missing_latches (s : State) (r : Nat) : (State.missing s r).latches = s.latches := by
  simp [State.missing]

@[simp] theorem State.voidRef_latches (s : State) (r : Nat) : (State.voidRef s r).latches = s.latches := by
  simp [State.voidRef]

@[simp] theorem State.loseRef_latches (s : State) (hw : Bool) : (State.loseRef s hw).latches = s.latches := by
  simp [State.loseRef]

@[simp] theorem State.setPrt_latches (s : State) (n : Nat) (p : Port) : (State.setPrt s n p).latches = s.latches := by
  simp [State.setPrt]

@[simp] theorem State.dropTx_latches (s : State) (n : Nat) (f : TxFrame) : (State.dropTx s n f).latches = s.latches := by
  unfold State.dropTx
  split <;> simp

@[simp] theorem State.txDone_latches (s : State) (f : TxFrame) (st : Status) (record : Option Nat) :
    (State.txDone s f st record).latches = s.latches := by
  simp only [State.txDone]
  (repeat' split) <;> simp

@[simp] theorem State.discardTx_latches (s : State) (n q : Nat) (f : TxFrame) :
    (State.discardTx s n q f).latches = s.latches := by
  simp [State.discardTx]

@[simp] theorem State.discardQueued_latches (s : State) (n : Nat) : (State.discardQueued s n).latches = s.latches := by
  simp [State.discardQueued]

@[simp] theorem State.dropLink_latches (s : State) (n : Nat) : (State.dropLink s n).latches = s.latches := by
  simp [State.dropLink]

@[simp] theorem State.restartHif_latches (s : State) : (State.restartHif s).latches = s.latches := by
  simp [State.restartHif]

@[simp] theorem State.fslEvent_latches (s : State) (k i : Nat) : (State.fslEvent s k i).latches = s.latches := by
  simp [State.fslEvent]

@[simp] theorem State.fslShow_latches (s : State) : (State.fslShow s).latches = s.latches := by
  simp [State.fslShow]

@[simp] theorem State.setDls_latches (s : State) (l : List Downlink) : (State.setDls s l).latches = s.latches := by
  simp [State.setDls]

@[simp] theorem State.setFslIf_latches (s : State) (i : Nat) (x : FslIf) : (State.setFslIf s i x).latches = s.latches := by
  simp [State.setFslIf]

@[simp] theorem State.fslNoKey_latches (s : State) (i : Nat) : (State.fslNoKey s i).latches = s.latches := by
  simp [State.fslNoKey]

@[simp] theorem State.fslWatch1_latches (s : State) (i : Nat) : (State.fslWatch1 s i).latches = s.latches := by
  simp only [State.fslWatch1]
  (repeat' split) <;> simp

@[simp] theorem State.fslWatch_latches (s : State) : (State.fslWatch s).latches = s.latches := by
  simp [State.fslWatch]

@[simp] theorem State.dlDone_latches (s : State) (d : Downlink) (st : Status) :
    (State.dlDone s d st).latches = s.latches := by
  simp [State.dlDone]

@[simp] theorem State.dlDrop_latches (s : State) (p : Downlink → Bool) : (State.dlDrop s p).latches = s.latches := by
  simp [State.dlDrop]

@[simp] theorem State.schedEvent_latches (s : State) (k i : Nat) : (State.schedEvent s k i).latches = s.latches := by
  simp [State.schedEvent]

@[simp] theorem State.queueShow_latches (s : State) : (State.queueShow s).latches = s.latches := by
  simp [State.queueShow]

@[simp] theorem State.setIdle_latches (s : State) (qs : List Nat) : (State.setIdle s qs).latches = s.latches := by
  simp only [State.setIdle]
  (repeat' split) <;> simp

@[simp] theorem State.keyShow_latches (s : State) : (State.keyShow s).latches = s.latches := by
  simp [State.keyShow]

@[simp] theorem State.zeroize_latches (s : State) (reason : Nat) (unpowered : Bool) :
    (State.zeroize s reason unpowered).latches = s.latches := by
  simp [State.zeroize]

@[simp] theorem State.stageWord_latches (s : State) (a v : Nat) : (State.stageWord s a v).latches = s.latches := by
  simp [State.stageWord]

@[simp] theorem State.setLink_latches (s : State) (l : Nat) (x : HjelLink) : (State.setLink s l x).latches = s.latches := by
  simp [State.setLink]

@[simp] theorem State.linkDown_latches (s : State) (l : Nat) : (State.linkDown s l).latches = s.latches := by
  simp [State.linkDown]

@[simp] theorem State.discardReceived_latches (s : State) (n : Nat) : (State.discardReceived s n).latches = s.latches := by
  simp [State.discardReceived]

@[simp] theorem State.fslDown_latches (s : State) (i : Nat) : (State.fslDown s i).latches = s.latches := by
  simp [State.fslDown]

@[simp] theorem State.stopUnit_latches (s : State) (u : Nat) : (State.stopUnit s u).latches = s.latches := by
  simp [State.stopUnit]

@[simp] theorem State.writeField_latches (s : State) (a v : Nat) (f : Fld) :
    (State.writeField s a v f).latches = s.latches := by
  unfold State.writeField
  split <;> simp

@[simp] theorem State.stage_latches (s : State) (a v : Nat) : (State.stage s a v).latches = s.latches := by
  simp [State.stage]

@[simp] theorem State.writeFields_latches (s : State) (a v : Nat) : (State.writeFields s a v).latches = s.latches := by
  simp [State.writeFields]

/-! ## Register writes in the blocks of the sequences (R389, R415, R482) -/

theorem State.discarded_latches {s t : State} {who : Requester} {a : Nat} (h : s.discarded who a = some t) :
    t.latches = s.latches := by
  simp only [State.discarded] at h
  (repeat' split at h) <;> cases h <;> simp

/-- The blocks of SAFE and PWR. -/
def seqBlock (a : Nat) : Prop := (0x1A0000 ≤ a ∧ a < 0x1B0000) ∨ (0x1D0000 ≤ a ∧ a < 0x1E0000)

/-- Nothing follows from a write in SAFE or PWR. -/
theorem State.follow_seqBlock {a : Nat} (ha : seqBlock a) (s t : State) (v : Nat) : s.follow t a v = t := by
  unfold seqBlock at ha
  have hlink : ¬ (0x190020 ≤ a ∧ a < 0x190030) := by omega
  unfold State.follow
  split
  case h_14 => exact if_neg hlink
  all_goals omega

theorem State.writePlain_latches {a : Nat} (ha : seqBlock a) (s : State) (who : Requester) (v : Nat) :
    (s.writePlain who a v).latches = s.latches := by
  unfold State.writePlain
  split
  · next t h => exact State.discarded_latches h
  · rw [State.follow_seqBlock ha, State.writeFields_latches]

/-- No word of SAFE but SAFE_FORCE has a row of its own, and of PWR only PWR_RST and PWR_BLK_RST have one. -/
theorem State.ownRow_seqBlock {a : Nat} (ha : seqBlock a) (hforce : a ≠ 0x1A001C) (hreset : a ≠ 0x1D0004) (s : State)
    (who : Requester) (w : BitVec 32) : s.ownRow who a w = if a = 0x1D0008 then some (execBlockRestart w s) else none := by
  unfold seqBlock at ha
  have hmsix : ¬ (0x18000 ≤ a ∧ a < 0x18400) := by omega
  have hring : ringWord a = none := if_neg (by omega)
  unfold State.ownRow
  split
  case h_21 => rfl
  case h_23 =>
    have hrestart : a ≠ 0x1D0008 := by assumption
    simp only [hmsix, hring, hrestart, if_false]
  all_goals omega

/-- R415: a restart of a block breaks the sequence of PWR_RST. -/
theorem execBlockRestart_latches (word : BitVec 32) (s : State) :
    ∃ t, execBlockRestart word s = .next t ∧ t.latches = { s.latches with pwrRst := false } := by
  have hbreak : (s.pwrWrite false).latches = { s.latches with pwrRst := false } := rfl
  simp only [execBlockRestart]
  split
  · exact ⟨_, rfl, hbreak⟩
  · split
    · exact ⟨_, rfl, hbreak⟩
    · split
      · exact ⟨_, rfl, hbreak⟩
      · refine ⟨_, rfl, ?_⟩
        simp only [State.stopUnit_latches, State.setIdle_latches, State.wr_latches]
        rfl

/-- What a register write in SAFE or PWR, outside the words of the sequences, leaves of the sequences is what breaking them leaves. -/
theorem execRegisterWrite_latches {addr : BitVec 26} (ha : seqBlock addr.toNat) (hforce : addr.toNat ≠ 0x1A001C)
    (hreset : addr.toNat ≠ 0x1D0004) (who : Requester) (v : BitVec 32) (s : State) :
    ∃ t, execRegisterWrite who addr v s = .next t ∧ t.latches = (s.breakSequence addr.toNat).latches := by
  simp only [execRegisterWrite, State.ownRow_seqBlock ha hforce hreset]
  split
  · exact ⟨_, rfl, rfl⟩
  · by_cases hrestart : addr.toNat = 0x1D0008
    · rw [if_pos hrestart]
      obtain ⟨t, ht, hlatches⟩ := execBlockRestart_latches v (s.breakSequence addr.toNat)
      have hbroken : s.breakSequence addr.toNat = s.pwrWrite false := by
        rw [State.breakSequence, if_neg (by omega), if_pos (by omega)]
      exact ⟨t, ht, hlatches.trans (by rw [hbroken]; rfl)⟩
    · rw [if_neg hrestart]
      exact ⟨_, rfl, State.writePlain_latches ha _ _ _⟩

theorem execSafeForceWrite_forces {s : State} (hopen : s.barOpen 0x1A001C = true) (harmed : s.safety.armed = true) :
    execSafeForceWrite 0xAF5E s = .next (State.react { s with safety := { s.safety with armed := false } } 0x11) :=
  (if_neg (by simp [hopen])).trans (if_pos ⟨rfl, harmed⟩)

theorem execPwrRstWrite_resets {s : State} (harmed : s.pwr.armed = true) : execPwrRstWrite 0xA7E5 s = .next (s.systemReset 2) :=
  congrArg Host.Outcome.next (if_pos ⟨harmed, rfl⟩)

theorem execPwrRstWrite_other {s : State} {v : BitVec 32} (hother : v ≠ 0xA7E5 ∨ s.pwr.armed = false) :
    execPwrRstWrite v s = .next { s with pwr := { s.pwr with armed := v == 0x5E7A } } := by
  refine congrArg Host.Outcome.next (if_neg ?_)
  rintro ⟨harmed, hv⟩
  exact hother.elim (absurd hv) (fun h => absurd harmed (by simp [h]))

/-- Settles O10: the words of the sequences by their second value, any other word of the two blocks by what it leaves of them. -/
theorem twoWriteSequences : Obligations.TwoWriteSequences := by
  unfold Obligations.TwoWriteSequences
  intro s v who addr
  refine ⟨?forces, ?other, ?broken, ?resets, ?otherRst, ?brokenRst⟩
  case forces => exact fun hopen harmed => execSafeForceWrite_forces hopen harmed
  case other =>
    exact fun hopen hother => execSafeForceWrite_unforced hopen fun hboth =>
      hother.elim (absurd hboth.1) fun hidle => Bool.false_ne_true (hidle.symm.trans hboth.2)
  case broken =>
    intro hlow hhigh hword
    obtain ⟨t, ht, hlatches⟩ := execRegisterWrite_latches (.inl ⟨hlow, hhigh⟩) hword (by omega) who v s
    rw [State.breakSequence, if_pos ⟨hlow, hhigh, hword⟩] at hlatches
    exact ⟨t, ht, congrArg Latches.safeForce hlatches⟩
  case resets => exact fun harmed => execPwrRstWrite_resets harmed
  case otherRst => exact fun hother => execPwrRstWrite_other hother
  case brokenRst =>
    intro hlow hhigh hword
    obtain ⟨t, ht, hlatches⟩ := execRegisterWrite_latches (.inr ⟨hlow, hhigh⟩) (by omega) hword who v s
    rw [State.breakSequence, if_neg (by omega), if_pos ⟨hlow, hhigh, hword⟩] at hlatches
    exact ⟨t, ht, congrArg Latches.pwrRst hlatches⟩

end Sys2Proof.Machine

/-! # Proofs of spec/17: claims, pairs, the witness, Hjel links and teams -/
namespace Sys2Proof.Machine
open Sys2Proof

/-! ## Claims (R356) -/

theorem epochAbove_iff (a b : Nat) :
    epochAbove a b = true ↔ 1 ≤ (a + 4096 - b % 4096) % 4096 ∧ (a + 4096 - b % 4096) % 4096 ≤ 2047 := by
  simp [epochAbove]

/-- R356: the claim with the higher epoch, or with the same epoch and the higher unit, is higher. -/
theorem claimAbove_iff {a b : Nat} (hb : b < 2 ^ 16) :
    claimAbove a b = true ↔ (1 ≤ (a / 16 + 4096 - b / 16) % 4096 ∧ (a / 16 + 4096 - b / 16) % 4096 ≤ 2047) ∨
      (a / 16 = b / 16 ∧ b % 16 < a % 16) := by
  have hepoch : b / 16 % 4096 = b / 16 := Nat.mod_eq_of_lt (by omega)
  simp only [claimAbove, Bool.or_eq_true, epochAbove_iff, hepoch, Bool.and_eq_true, beq_iff_eq, decide_eq_true_eq]

/-- R414: a loss of power with the battery kept leaves the claim epoch. -/
theorem State.powerOn_pairEpoch (s : State) (cause : Nat) : (s.powerOn cause false).pair.epoch = s.pair.epoch := (rfl)

/-- Settles O11, by what `claimAbove` compares; the epochs of two claims lie at most 4,095 apart. -/
theorem claimsAreCompared : Obligations.ClaimsAreCompared := by
  unfold Obligations.ClaimsAreCompared
  refine ⟨fun a b ha hb => ⟨claimAbove_iff hb, ?antisymmetric, ?total⟩,
    fun s reason cause unpowered => ⟨congrArg Latches.claimEpoch (s.zeroize_latches reason unpowered), s.powerOn_pairEpoch cause⟩⟩
  case antisymmetric =>
    rw [claimAbove_iff hb, claimAbove_iff ha]
    omega
  case total =>
    intro hne hapart
    rw [claimAbove_iff hb, claimAbove_iff ha]
    omega

/-! ## Pairs (R361, R362, R365, R372, R380) -/

/-- R380: a pair that is OFF with ENABLE 1 already, in MODE 1 and outside QUARANTINE, goes to START. -/
theorem execPairEnable_starts {s : State} {word : BitVec 32} (hopen : s.barOpen 0x190000 = true)
    (hoff : s.rd Reg.PAIR_STAT_STATE = 0) (hen : s.on Reg.PAIR_CTL_ENABLE = true) :
    let z := (s.pairCtl word.toNat).wr Reg.PAIR_CTL_ENABLE 1
    z.rd Reg.PAIR_CTL_MODE = 1 → z.quarantine = false →
    execPairEnable word s = .next (State.goPair { z with pair := { z.pair with
      startAt := z.now, cmpAt := z.now, witAt := z.now, witSeq := none, wasActive := false } } 1) := by
  intro z hmode hquar
  simp only [z] at hmode hquar ⊢
  simp only [execPairEnable, hopen, hoff, hen, hmode, hquar, ne_eq, not_true_eq_false, Bool.not_true, Bool.not_false,
    Bool.false_eq_true, if_false, if_true, and_self]

theorem execPairEnable_running {s : State} (hopen : s.barOpen 0x190000 = true) (hrun : s.rd Reg.PAIR_STAT_STATE ≠ 0)
    (word : BitVec 32) : execPairEnable word s = .next (s.wr Reg.PAIR_STAT_CFG_WR 1) := by
  simp only [execPairEnable, hopen, hrun, ne_eq, not_false_eq_true, Bool.not_true, Bool.false_eq_true, if_false, if_true]

theorem execPairDisable_off {s : State} (hopen : s.barOpen 0x190000 = true) (hoff : s.rd Reg.PAIR_STAT_STATE = 0)
    (word : BitVec 32) :
    execPairDisable word s = .next (((s.pairCtl word.toNat).wr Reg.PAIR_CTL_ENABLE 0).setPins) := by
  simp only [execPairDisable, hopen, hoff, Bool.not_true, Bool.false_eq_true, if_false, if_true]

/-- R362, R380: a write that changes nothing but ENABLE takes a unit in HOLD to OFF. -/
theorem execPairDisable_hold {s : State} {word : BitVec 32} (hopen : s.barOpen 0x190000 = true)
    (hhold : s.rd Reg.PAIR_STAT_STATE = 7) (honly : word.toNat % 2 ^ 31 - 2 ^ 16 * bits word.toNat 16 3 = s.pairCtlWord) :
    let z := (((((s.wr Reg.PAIR_CTL_ENABLE 0).wr Reg.PAIR_STAT_PARTNER 0).wr Reg.PAIR_STAT_PARTNER_OK 0).wr Reg.PAIR_STAT_WIT_OK 0).wr
      Reg.PAIR_PARTNER_CLAIM 0).wr Reg.PAIR_PARTNER_AGE_US 0xFFFF
    execPairDisable word s = .next (State.goPair { z with pair := { z.pair with
      heard := [], lost := [], resync := none, retryAt := none, wasActive := false } } 0) := by
  exact (if_neg (by simp [hopen])).trans ((if_neg (by simp [hhold])).trans (if_pos
    (by simp only [hhold, honly, beq_self_eq_true, Bool.or_true, Bool.and_self])))

theorem execStartWaitExpiry_over {s : State} (hstart : s.rd Reg.PAIR_STAT_STATE = 1)
    (hover : s.pair.startAt + 1000000 * s.rd Reg.PAIR_CTL_START_WAIT_MS ≤ s.now) : execStartWaitExpiry s = .next s.enterQuery := by
  simp only [execStartWaitExpiry, hstart, hover, beq_self_eq_true, decide_true, Bool.and_self, when_true]

theorem execHoldMaxExpiry_over {s : State} (hhold : s.rd Reg.PAIR_STAT_STATE = 7) (hmax : s.rd Reg.PAIR_WIT_HOLD_MAX_MS ≠ 0)
    (hover : s.pair.holdAt + 1000000 * s.rd Reg.PAIR_WIT_HOLD_MAX_MS ≤ s.now) :
    execHoldMaxExpiry s =
      .next (((State.enterSafe { s with pair := { s.pair with holdAt := s.now + 2 ^ 80 } } 0x0E).pinRegs).pairEvent 12) := by
  have hlim : (s.rd Reg.PAIR_WIT_HOLD_MAX_MS != 0) = true := bne_iff_ne.mpr hmax
  simp only [execHoldMaxExpiry, hhold, hlim, hover, beq_self_eq_true, decide_true, Bool.and_self, when_true]

theorem execHeartbeatSend_due {s : State} (hpairing : s.pairing = true) (hsafe : s.safe = false)
    (hdue : s.pair.sentAt + 250000 ≤ s.now) :
    let z := s.moveBoundary.heartbeatUnits.foldl State.sendHeartbeat s.moveBoundary
    execHeartbeatSend s = .next { z with pair := { z.pair with
      seq := (z.pair.seq + 1) % 2 ^ 32, sentAt := z.now
      sent := z.pair.sent.filter (fun x => decide (z.now ≤ x.2 + 1000000)) ++ [(z.pair.seq, z.now)] } } := by
  simp only [execHeartbeatSend, hpairing, hsafe, hdue, Bool.not_false, decide_true, Bool.and_self, when_true]

/-- `s` with heartbeat `h` heard and counted (R361). -/
def State.heardHb (s : State) (h : Heartbeat) : State :=
  State.bump { s with pair := { s.pair with
    heard := kvSet s.pair.heard h.unit (h, s.now), lost := setDel s.pair.lost h.unit } } .pair C.PAIR_HB_RECV

theorem execHeartbeatReceive_pair {s : State} {h : Heartbeat} (hpairing : s.pairing = true) (hexpected : s.expectedHb h = true)
    (hknown : h.unit ∉ s.pair.lost) (hmode : ((s.heardHb h).readDecision h).rd Reg.PAIR_CTL_MODE = 1) :
    execHeartbeatReceive h s = .next ((((((((s.heardHb h).readDecision h).wr Reg.PAIR_STAT_PARTNER h.unit).wr
      Reg.PAIR_STAT_PARTNER_OK 1).wr Reg.PAIR_PARTNER_CLAIM h.claim).wr Reg.PAIR_PARTNER_AGE_US 0).pairStep h)) := by
  unfold State.heardHb at hmode ⊢
  simp only [execHeartbeatReceive, hpairing, hexpected, List.contains_eq_mem, hknown, hmode, decide_false, Bool.not_true, Bool.or_self,
    Bool.false_eq_true, ne_eq, not_true_eq_false, if_false]

/-- `s` with a unit of the pair lost, which is counted and raised (R361). -/
def State.lostUnit (s : State) (unit : Nat) : State :=
  (State.bump { s with pair := { s.pair with lost := setAdd s.pair.lost unit } } .pair C.PAIR_HB_MISSED).pairEvent 0

/-- R362: the Active, left alone, asks the witness. -/
theorem execPartnerLost_active {s : State} {unit : Fin 16} {h : Heartbeat} {t : Instant} (hpairing : s.pairing = true)
    (hheard : kvGet? s.pair.heard unit.val = some (h, t)) (hsilent : t + 1000000 ≤ s.now) (hknown : unit.val ∉ s.pair.lost)
    (hmode : (s.lostUnit unit).rd Reg.PAIR_CTL_MODE = 1)
    (hactive : ((s.lostUnit unit).wr Reg.PAIR_STAT_PARTNER_OK 0).forwardsLost.rd Reg.PAIR_STAT_STATE = 4) :
    execPartnerLost unit s = .next ((s.lostUnit unit).wr Reg.PAIR_STAT_PARTNER_OK 0).forwardsLost.enterQuery := by
  unfold State.lostUnit at hmode hactive ⊢
  simp only [execPartnerLost, hpairing, hheard, hsilent, List.contains_eq_mem, hknown, hmode, hactive, decide_true, decide_false,
    Bool.not_true, Bool.or_self, Bool.false_eq_true, ne_eq, not_true_eq_false, if_false, or_true, if_true]

/-- R372: a digest is compared with the unit's own one of the same slice and epoch. -/
theorem execDigest_compared {s : State} {d msg : DigestMsg} (hpair : s.pairMode = true) (hown : s.pair.own = [d])
    (hinstant : d.instant = msg.instant) (hepoch : d.epoch = msg.epoch) :
    execDigest msg s = .next (State.compareDigests { s with pair := { s.pair with own := [] } } d msg) := by
  have hfind : [d].find? (fun d => d.instant == msg.instant && d.epoch == msg.epoch) = some d := by
    simp [hinstant, hepoch]
  simp only [execDigest, hpair, hown, hfind, List.erase_cons_head, Bool.not_true, Bool.false_eq_true, if_false]

theorem execDigest_kept {s : State} (hpair : s.pairMode = true) (hown : s.pair.own = []) (msg : DigestMsg) :
    execDigest msg s = .next { s with pair := { s.pair with peers := keepLast s.pair.peers msg } } := by
  simp only [execDigest, hpair, hown, List.find?_nil, Bool.not_true, Bool.false_eq_true, if_false]

theorem execDigestTimeout_due {s : State} (hpair : s.pairMode = true) (hdue : s.pair.cmpAt + 10 * nsPerS ≤ s.now) :
    execDigestTimeout s = .next (State.pairEvent { s with pair := { s.pair with cmpAt := s.now } } 9) := by
  simp only [execDigestTimeout, hpair, hdue, decide_true, Bool.and_self, when_true]

/-- Settles O57, one lemma for each command under the conditions of its clause. -/
theorem pairCommandsComplete : Obligations.PairCommandsComplete := by
  unfold Obligations.PairCommandsComplete
  intro word h unit t h0 msg d s
  refine ⟨?starts, ?running, ?off, ?hold, ?query, ?holdMax, ?send, ?receive, ?lost, ?compared, ?kept, ?timeout⟩
  case starts => exact fun hopen hoff hen => execPairEnable_starts hopen hoff hen
  case running => exact fun hopen hrun => execPairEnable_running hopen hrun word
  case off => exact fun hopen hoff => execPairDisable_off hopen hoff word
  case hold => exact fun hopen hhold honly => execPairDisable_hold hopen hhold honly
  case query => exact fun hstart hover => execStartWaitExpiry_over hstart hover
  case holdMax => exact fun hhold hmax hover => execHoldMaxExpiry_over hhold hmax hover
  case send => exact fun hpairing hsafe hdue => execHeartbeatSend_due hpairing hsafe hdue
  case receive => exact fun hpairing hexpected hknown hmode => execHeartbeatReceive_pair hpairing hexpected hknown hmode
  case lost =>
    exact fun hpairing hheard hsilent hknown hmode hactive =>
      execPartnerLost_active hpairing hheard hsilent hknown hmode hactive
  case compared => exact fun hpair hown hinstant hepoch => execDigest_compared hpair hown hinstant hepoch
  case kept => exact fun hpair hown => execDigest_kept hpair hown msg
  case timeout => exact fun hpair hdue => execDigestTimeout_due hpair hdue

/-! ## The witness (R362, R367 to R370) -/

theorem execWitnessPoll_accepted {s u : State} {frame : WitFrame} (hok : s.witAccept 1 frame = (true, u)) :
    execWitnessPoll frame s = .next (u.witAnswer frame.seq) := by
  simp only [execWitnessPoll, hok, if_true]

/-- R368: a GRANT in QUERY or BELAY_HOLD makes the unit the active one; one that was not counts a switchover. -/
theorem execWitnessGrant_accepted {s u : State} {frame : WitFrame} (hok : s.witAccept 2 frame = (true, u))
    (hstate : u.rd Reg.PAIR_STAT_STATE = 5 ∨ u.rd Reg.PAIR_STAT_STATE = 6) :
    execWitnessGrant frame s = .next (((if u.pair.wasActive then u else u.bump .pair C.PAIR_SWITCHOVERS).becomeActive
      (frame.claim.toNat / 16)).witAnswer frame.seq) := by
  simp only [execWitnessGrant, hok, hstate, Bool.not_true, Bool.false_eq_true, if_false, if_true]

theorem execWitnessDeny_query {s u : State} {frame : WitFrame} (hok : s.witAccept 3 frame = (true, u))
    (hstate : u.rd Reg.PAIR_STAT_STATE = 5) :
    execWitnessDeny frame s = .next (((u.goPair 6).pairEvent 5).witAnswer frame.seq) := by
  simp only [execWitnessDeny, hok, hstate, true_or, Bool.not_true, Bool.false_eq_true, if_false, if_true]

/-- R370: a unit in QUERY that heard no witness for 2 ms goes to HOLD. -/
theorem execWitnessUnreachable_query {s : State} (hstate : s.rd Reg.PAIR_STAT_STATE = 5) (hmode : s.rd Reg.PAIR_CTL_MODE = 1)
    (hfatal : s.on Reg.ERR_STAT_FATAL = false) (hwit : s.on Reg.PAIR_STAT_WIT_OK = false)
    (hover : max s.pair.witAt s.pair.queryAt + 2000000 ≤ s.now) :
    execWitnessUnreachable s = .next (State.goPair { s with pair := { s.pair with holdAt := s.now } } 7) := by
  simp [execWitnessUnreachable, hstate, hmode, hfatal, hwit, hover]

/-- The unit that the witness addresses next (R367). -/
def State.witTurn (s : State) : Nat := if s.pair.wit.second then s.rd Reg.PAIR_WIT_WUNIT_B else s.rd Reg.PAIR_WIT_WUNIT_A

/-- R367: a unit for which no decision waits is polled with the highest claim. -/
theorem execWitnessSlot_polls {s : State} (hwitness : s.isWitness = true) (hdue : s.pair.wit.slotAt + 250000 ≤ s.now)
    (hnone : (s.witUnit s.witTurn).reply = none) :
    let w := s.pair.wit
    let x := s.witUnit s.witTurn
    let z := s.setWit s.witTurn
      { x with missed := if x.awaiting then min 2 (x.missed + 1) else x.missed, awaiting := true, reply := none }
    execWitnessSlot s = .next (State.sendWit { z with pair := { z.pair with wit := { z.pair.wit with
      seq := (w.seq + 1) % 2 ^ 16, slotAt := z.now, second := !w.second } } } 1 s.witTurn w.highest ((w.seq + 1) % 2 ^ 16)) := by
  unfold State.witTurn at hnone ⊢
  simp only [execWitnessSlot, hwitness, Nat.not_lt.mpr hdue, hnone, decide_false, Bool.not_true, Bool.or_self, Bool.false_eq_true,
    if_false]

section
variable {s u : State} {frame : WitFrame} (hwitness : s.isWitness = true) (hserves : frame.unit.val ∈ s.witServes)
include hwitness hserves

theorem execWitnessAnswer_bad {query : Bool} (hbad : s.witGood (if query then 9 else 8) frame = (false, u)) :
    execWitnessAnswer query frame s = .next (u.bump .pair C.PAIR_WIT_BAD) := by
  simp only [execWitnessAnswer, hwitness, List.contains_eq_mem, hserves, hbad, decide_true, Bool.not_true, Bool.not_false, Bool.or_self,
    Bool.true_or, Bool.false_eq_true, if_false, if_true]

/-- `u` with the answer of a unit noted and counted (R367). -/
def State.witHeard (u : State) (frame : WitFrame) : State :=
  (u.setWit frame.unit.val { u.witUnit frame.unit.val with
    claim := frame.claim.toNat, missed := 0, awaiting := false }).bump .pair C.PAIR_WIT_FRAMES

/-- R368: a query of a unit whose partner stayed silent is granted at once. -/
theorem execWitnessAnswer_grants (hgood : s.witGood 9 frame = (true, u)) (hawaited : (u.witUnit frame.unit.val).awaiting = true)
    (hseq : frame.seq.toNat = u.pair.wit.seq)
    (hlow : claimAbove frame.claim.toNat (u.witHeard frame).pair.wit.highest = false)
    (halone : 2 ≤ ((u.witHeard frame).witUnit ((u.witHeard frame).witOther frame.unit.val)).missed) :
    execWitnessAnswer true frame s = .next ((u.witHeard frame).witGrant frame.unit.val) := by
  unfold State.witHeard at hlow halone ⊢
  simp only [execWitnessAnswer, hwitness, List.contains_eq_mem, hserves, hgood, hawaited, hseq, hlow, halone, decide_true, Bool.not_true,
    Bool.or_self, Bool.false_eq_true, ne_eq, not_true_eq_false, decide_false, if_false, if_true, and_self]

end

theorem execWitnessWindowExpiry_over {s : State} {t : Instant} {l : KV (Nat × Bool)} (hwindow : s.pair.wit.window = some (t, l))
    (hwitness : s.isWitness = true) (hover : t + 2000000 ≤ s.now) : execWitnessWindowExpiry s = .next (s.witDecide l) := by
  simp only [execWitnessWindowExpiry, hwindow, hwitness, hover, decide_true, Bool.and_self, when_true]

/-- Settles O58, one lemma for each command under the conditions of its clause. -/
theorem witnessCommandsComplete : Obligations.WitnessCommandsComplete := by
  unfold Obligations.WitnessCommandsComplete
  intro frame query t l s u
  refine ⟨?poll, ?granted, ?switched, ?denied, ?unreachable, ?slot, ?bad, ?alone, ?window⟩
  case poll => exact fun hok => (execWitnessPoll_accepted hok :)
  case granted =>
    intro hok hstate hwas
    exact (execWitnessGrant_accepted hok (.inl hstate)).trans (by rw [if_pos hwas])
  case switched =>
    intro hok hstate hwas
    exact (execWitnessGrant_accepted hok (.inr hstate)).trans (by rw [if_neg (ne_true_of_eq_false hwas)])
  case denied => exact fun hok hstate => (execWitnessDeny_query hok hstate :)
  case unreachable => exact fun hstate hmode hfatal hwit hover => execWitnessUnreachable_query hstate hmode hfatal hwit hover
  case slot => exact fun hwitness hdue hnone => execWitnessSlot_polls hwitness hdue hnone
  case bad => exact fun hwitness hserves hbad => (execWitnessAnswer_bad hwitness hserves hbad :)
  case alone =>
    exact fun hwitness hserves hgood hawaited hseq hlow halone =>
      (execWitnessAnswer_grants hwitness hserves hgood hawaited hseq hlow halone :)
  case window => exact fun hwindow hwitness hover => execWitnessWindowExpiry_over hwindow hwitness hover

/-! ## Hjel links (R358 to R360, R450) -/

theorem execHjelDelayMeasure_due {s : State} {link : Fin 4} (hup : s.linkUp link = true)
    (hdue : (s.hjelLink link).delayAt + 125000000 ≤ s.now) (delay : Nat) :
    execHjelDelayMeasure link delay s = .next (s.setLink link { s.hjelLink link with delay, delayAt := s.now }) := by
  simp only [execHjelDelayMeasure, hup, hdue, decide_true, Bool.and_self, when_true]

/-- The bytes of a flit that its CRC covers (R358). -/
def Flit.body (f : Flit) : List Byte := leBytes 1 (f.vc.val + 16 * f.typ.val) ++ leBytes 1 f.seq.toNat ++ f.payload

theorem execHjelFlit_damaged {s : State} {link : Fin 4} {flit : Flit} (hup : s.linkUp link = true)
    (hcrc : crc32 flit.body ≠ flit.crc.toNat) (crossed : Nat) :
    execHjelFlit link flit crossed s = .next (((s.setLink link { s.hjelLink link with
      replays := (s.hjelLink link).replays + 1 }).bump .pair C.PAIR_LINK_RETRY).correctable 0xFF link 0x04 0) := by
  unfold Flit.body at hcrc
  simp only [execHjelFlit, hup, hcrc, Bool.not_true, Bool.false_eq_true, ne_eq, not_false_eq_true, if_false, if_true]

/-- R358: a flit of type 3 is a whole message. -/
theorem execHjelFlit_whole {s : State} {link : Fin 4} {flit : Flit} (hup : s.linkUp link = true)
    (hcrc : crc32 flit.body = flit.crc.toNat) (htyp : flit.typ.val = 3) (hseq : flit.seq.toNat = (s.hjelLink link).expect)
    (crossed : Nat) :
    execHjelFlit link flit crossed s = .next ((s.setLink link { s.hjelLink link with
      expect := ((s.hjelLink link).expect + 1) % 256, replays := 0
      parts := kvDel (s.hjelLink link).parts flit.vc.val }).hjelMessage flit.vc.val crossed flit.payload) := by
  rw [Flit.body, htyp] at hcrc
  have hknown : ¬ (4 ≤ 3 ∨ flit.seq.toNat ≠ (s.hjelLink link).expect) := by omega
  simp only [execHjelFlit, hup, hcrc, htyp, hknown, Bool.not_true, Bool.false_eq_true, ne_eq, not_true_eq_false, if_false, or_true,
    if_true, List.nil_append]

theorem execHjelLinkUp_trained {s : State} {link : Fin 4} (hen : s.on (Reg.PAIR_LINK_EN link) = true)
    (hdown : s.linkUp link = false) (hlit : s.dark = false) (peer : Fin 16) :
    execHjelLinkUp link peer s = .next ((((s.wr (Reg.PAIR_LINK_LSTATE link) 2).wr (Reg.PAIR_LINK_PEER link) peer.val).setLink link
      HjelLink.init).pairEvent 6) := by
  simp only [execHjelLinkUp, hen, hdown, hlit, Bool.not_false, Bool.and_self, when_true]

theorem execHjelLinkDown_lost {s : State} {link : Fin 4} {noLock : Bool} (hup : s.linkUp link = true)
    (hlost : noLock = true ∨ 8 ≤ (s.hjelLink link).replays) : execHjelLinkDown link noLock s = .next (s.linkDown link) := by
  have hguard : (noLock || decide (8 ≤ (s.hjelLink link).replays)) = true := by simpa using hlost
  simp only [execHjelLinkDown, hup, hguard, Bool.and_self, when_true]

/-! ## Team slices (R375, R376) -/

/-- R376: a member's revision 0 waits in the team slice for the unit's own one. -/
theorem execTeamRevision_waits {s : State} {unit : Fin 16} {rev : Revision} (hmaster : s.teamMaster = true)
    (hmember : unit.val ∈ s.partners) (hnew : s.stch.store.any (fun r => r.team && r.instant == rev.instant) = false)
    (hrev : rev.rev = 0) (hepoch : rev.epoch = s.epochAt rev.instant) (hown : (s.teamSlice rev.instant).own = none) :
    execTeamRevision unit rev s = .next (s.setTeam rev.instant
      { s.teamSlice rev.instant with parts := kvSet (s.teamSlice rev.instant).parts unit.val rev }) := by
  simp only [execTeamRevision, hmaster, List.contains_eq_mem, hmember, hnew, hrev, hepoch, hown, decide_true, beq_self_eq_true,
    Bool.not_false, Bool.and_self, when_true, Option.isSome_none, Bool.false_eq_true, if_false]

theorem execTeamWaitExpiry_over {s : State} {e : Nat × TeamSlice} (hteam : s.pair.team = [e]) (hown : e.2.own.isSome = true)
    (hover : e.2.ownAt + 1000 * s.rd Reg.PAIR_TEAM_TEAM_WAIT_US ≤ s.now) (hmaster : s.teamMaster = true) :
    execTeamWaitExpiry s = .next (s.assemble e.1) := by
  simp [execTeamWaitExpiry, hteam, hown, hover, hmaster]

/-- Settles O60, one lemma for each command under the conditions of its clause. -/
theorem hjelAndTeamCommandsComplete : Obligations.HjelAndTeamCommandsComplete := by
  unfold Obligations.HjelAndTeamCommandsComplete
  intro link peer hl hp delay crossed flit noLock unit rev e s l x body
  refine ⟨?delay, ?damaged, ?whole, ?up, ?down, ?joins, ?wait⟩
  case delay => exact fun hup hdue => execHjelDelayMeasure_due (link := l) hup hdue delay
  case damaged => exact fun hup hcrc => execHjelFlit_damaged (link := l) hup hcrc crossed
  case whole => exact fun hup hcrc htyp hseq => execHjelFlit_whole (link := l) hup hcrc htyp hseq crossed
  case up => exact fun hen hdown hlit => execHjelLinkUp_trained (link := l) hen hdown hlit ⟨peer, hp⟩
  case down => exact fun hup hlost => execHjelLinkDown_lost (link := l) hup hlost
  case joins => exact fun hmaster hmember hnew hrev hepoch hown => execTeamRevision_waits hmaster hmember hnew hrev hepoch hown
  case wait => exact fun hteam hown hover hmaster => execTeamWaitExpiry_over hteam hown hover hmaster

end Sys2Proof.Machine

/-! # Proofs of spec/19 and spec/21: keys and firmware update -/
namespace Sys2Proof.Machine
open Sys2Proof

/-! ## KEY_OP (R396, R400 to R405) -/

/-- A KEY_OP that the key store serves counts, and has its effect. -/
theorem State.keyOp_serving {s : State} (hs : s.KeyServing) (tag : BitVec 16) (i : Nat) (f : State → Result) :
    s.keyOp tag i f = f (s.bump .key C.KEY_KEY_OPS) := by
  obtain ⟨⟨hawake, hquar⟩, hlcs⟩ := hs
  simp [State.keyOp, State.dequeued_awake hawake, hquar, hlcs]

theorem execKeyOpInfo_served {s u : State} {slot : Fin 256} {len : BitVec 32} {addr : BitVec 48} {dma : Dma}
    (hawake : s.pwr.sleep = none) (hlen : 32 ≤ len.toNat)
    (hdma : (s.bump .key C.KEY_KEY_OPS).cmdDma true slot addr.toNat dma = (true, u)) (tag : BitVec 16) :
    execKeyOpInfo tag slot len addr dma s =
      (u.emit (.hostWrite addr.toNat (u.slotBytes slot))).keyDone tag slot .ok := by
  simp only [execKeyOpInfo, hawake, Nat.not_lt.mpr hlen, hdma, Option.isSome_none, Bool.not_true, Bool.false_eq_true, if_false]

/-- What a parent other than the root must be to have a slot below it (R403, R404). -/
structure State.MayParent (u : State) (slot parent : Nat) : Prop where
  valid : (u.slot parent).st = 1
  alg : (u.slot parent).alg = 3
  derives : bitOf (u.slot parent).usage 4 = true
  shallow : (u.slot parent).depth < 4
  other : parent ≠ slot

/-- A DERIVE or IMPORT passes the checks that come before those of its parent, and reading its request block leaves `u` (R403). -/
structure State.KeyRequested (s u : State) (slot : Nat) (addr : BitVec 48) (dma : Dma) (req : KeyReq) : Prop where
  serving : s.KeyServing
  free : ((s.bump .key C.KEY_KEY_OPS).slot slot).st ≠ 1
  read : (s.bump .key C.KEY_KEY_OPS).cmdDma false slot addr.toNat dma = (true, u)
  ok : req.ok = true
  noExpiry : req.exp = none

section
variable {s u : State} {slot parent : Nat} {addr : BitVec 48} {dma : Dma} {req : KeyReq} (h : s.KeyRequested u slot addr dma req)
include h

/-- R401: below the root a key is made where the command may use the root. -/
theorem State.makeKey_root (hparent : parent = 0xFF) (tag : BitVec 16) (len : Nat) (f : State → Result) :
    s.makeKey tag slot parent len len addr dma req true f = f u := by
  obtain ⟨hs, hfree, hread, hok, hexp⟩ := h
  rw [State.makeKey, State.keyOp_serving hs]
  simp [hfree, hread, hok, hexp, hparent]

/-- R403: below a slot a key is made where the slot may be its parent. -/
theorem State.makeKey_below (hparent : parent ≠ 0xFF) (hmay : u.MayParent slot parent) (tag : BitVec 16) (len : Nat) (root : Bool)
    (f : State → Result) : s.makeKey tag slot parent len len addr dma req root f = f u := by
  obtain ⟨hs, hfree, hread, hok, hexp⟩ := h
  obtain ⟨hvalid, halg, hderives, hshallow, hother⟩ := hmay
  rw [State.makeKey, State.keyOp_serving hs]
  simp [hfree, hread, hok, hexp, hparent, hvalid, halg, hderives, hshallow, hother]

end

section
variable {s u : State} {slot parent : Fin 256} {addr : BitVec 48} {dma : Dma} {req : KeyReq}
  (h : s.KeyRequested u slot addr dma req)
include h

theorem execKeyOpDerive_root (hparent : parent.val = 0xFF) (tag : BitVec 16) (took : Nat) :
    execKeyOpDerive tag slot parent 64 addr dma req took s = u.writeKey tag slot 0xFF req
      (kdf u.root (keyLen req.alg.toNat) (labelSlot ++ leBytes 1 req.alg.toNat ++ leBytes 1 req.usage.toNat)
        (req.context ++ u.devidBytes)) false took := by
  rw [execKeyOpDerive]
  refine (State.makeKey_root h hparent tag 64 _).trans ?_
  simp only [hparent, if_true]

theorem execKeyOpDerive_below (hparent : parent.val ≠ 0xFF) (hmay : u.MayParent slot parent) (tag : BitVec 16) (took : Nat) :
    execKeyOpDerive tag slot parent 64 addr dma req took s = u.writeKey tag slot parent req
      (kdf (u.slot parent).key (keyLen req.alg.toNat) (labelSlot ++ leBytes 1 req.alg.toNat ++ leBytes 1 req.usage.toNat)
        (req.context ++ u.devidBytes)) false took := by
  rw [execKeyOpDerive]
  refine (State.makeKey_below h hparent hmay tag 64 true _).trans ?_
  simp only [hparent, if_false]

/-- R402: an imported key must have the length of its algorithm. -/
theorem execKeyOpImport_below (hparent : parent.val ≠ 0xFF) (hmay : u.MayParent slot parent) (tag : BitVec 16) (took : Nat) :
    execKeyOpImport tag slot parent 104 addr dma req took s =
      match keyUnwrap (u.slot parent).key (req.wrapped.take (if req.alg = 2 then 24 else 40)) with
      | some bs => if bs.length = keyLen req.alg.toNat then u.writeKey tag slot parent req (leNat bs) true took
        else u.keyDone tag slot .invalid
      | none => u.keyDone tag slot .invalid := by
  rw [execKeyOpImport]
  exact State.makeKey_below h hparent hmay tag 104 false _

end

theorem execKeyOpInvalidate_served {s : State} (hs : s.KeyServing) (tag : BitVec 16) (slot : Fin 256) :
    execKeyOpInvalidate tag slot 0 s = ((s.bump .key C.KEY_KEY_OPS).invalidate
      (slot.val :: (s.bump .key C.KEY_KEY_OPS).below slot)).keyDone tag slot .ok := by
  rw [execKeyOpInvalidate, State.keyOp_serving hs]
  exact if_neg (not_not.mpr rfl)

theorem execKeyOpErase_unused {s : State} {slot : Fin 256} (hs : s.KeyServing)
    (hunused : (s.bump .key C.KEY_KEY_OPS).referenced slot = false) (hleaf : (s.bump .key C.KEY_KEY_OPS).below slot = [])
    (tag : BitVec 16) :
    execKeyOpErase tag slot 0 s = ((s.bump .key C.KEY_KEY_OPS).setSlot slot
      { KeySlot.empty with gen := ((s.bump .key C.KEY_KEY_OPS).slot slot).gen }).keyShow.keyDone tag slot .ok := by
  rw [execKeyOpErase, State.keyOp_serving hs]
  simp only [hunused, hleaf, ne_eq, not_true_eq_false, if_false, List.isEmpty_nil, Bool.not_true, Bool.or_self, Bool.false_eq_true]

/-- Settles O22: DERIVE and IMPORT by the checks that they share, the others by what a served KEY_OP does. -/
theorem keySlotOperationsComplete : Obligations.KeySlotOperationsComplete := by
  unfold Obligations.KeySlotOperationsComplete
  intro tag slot parent len addr dma req took s u t
  refine ⟨?info, ?deriveRoot, ?deriveBelow, ?imported, ?invalidate, ?erase⟩
  case info => exact fun hawake hlen hdma => execKeyOpInfo_served hawake hlen hdma tag
  case deriveRoot =>
    rintro hs rfl hfree hdma hreq hparent hexp
    exact execKeyOpDerive_root ⟨hs, hfree, hdma, hreq, hexp⟩ hparent tag took
  case deriveBelow =>
    rintro hs rfl hfree hdma hreq hparent hvalid halg hderives hshallow hother hexp
    exact execKeyOpDerive_below ⟨hs, hfree, hdma, hreq, hexp⟩ hparent
      ⟨hvalid, halg, hderives, hshallow, fun h => hother (Fin.ext h)⟩ tag took
  case imported =>
    rintro hs rfl hfree hdma hreq hparent hvalid halg hderives hshallow hother hexp
    exact execKeyOpImport_below ⟨hs, hfree, hdma, hreq, hexp⟩ hparent
      ⟨hvalid, halg, hderives, hshallow, fun h => hother (Fin.ext h)⟩ tag took
  case invalidate =>
    rintro hs rfl
    exact execKeyOpInvalidate_served hs tag slot
  case erase =>
    rintro hs rfl hunused hleaf
    exact execKeyOpErase_unused hs hunused hleaf tag

/-! ## Life cycle (R398, R400, R402, R405, R408) -/

section
variable {s u : State} (hs : s.KeyServing) (tag : BitVec 16)
include hs

/-- R398: a permitted transition is burned; into RETIRED it zeroizes first. -/
theorem execKeyOpAdvance_permitted {state : BitVec 8} (hstate : state.toNat ≤ 4)
    (hmay : lcsMay (s.bump .key C.KEY_KEY_OPS).key.lcs state.toNat = true) :
    execKeyOpAdvance tag 0 state (~~~state) s = .next (((if state.toNat = 4 then (s.bump .key C.KEY_KEY_OPS).zeroize 4 false
      else s.bump .key C.KEY_KEY_OPS).setLcs state.toNat).mgmtDone .keyOp tag.toNat .ok) := by
  rw [execKeyOpAdvance, State.keyOp_serving hs]
  exact (if_neg (by simp [hstate])).trans (if_neg (by simp [hmay]))

/-- `u` with the owner root burned, zeroized and PROVISIONED (R402). -/
def State.provisioned (u : State) (root : Nat) : State :=
  (State.zeroize { u with key := { u.key with owner := some root } } 5 false).setLcs 2

/-- R402: in the FACTORY state a wrapped key that unwraps to 32 bytes is the owner root. -/
theorem execKeyOpProvision_factory {addr : BitVec 48} {dma : Dma} (hlcs : s.key.lcs = 1)
    (hdma : (s.bump .key C.KEY_KEY_OPS).cmdDma false 0 addr.toNat dma = (true, u)) (wrapped : List Byte) :
    execKeyOpProvision tag 40 addr dma wrapped s =
      match keyUnwrap (kdf u.root 32 labelProv u.devidBytes) (wrapped.take 40) with
      | some bs => if bs.length = 32 then .next ((u.provisioned (leNat bs)).mgmtDone .keyOp tag.toNat .ok)
        else .next (u.mgmtDone .keyOp tag.toNat .invalid)
      | none => .next (u.mgmtDone .keyOp tag.toNat .invalid) := by
  have hfactory : (s.bump .key C.KEY_KEY_OPS).key.lcs = 1 :=
    (congrArg (fun l : Lasting => l.fuses.lcs) (s.bump_lasting .key C.KEY_KEY_OPS 0)).trans hlcs
  rw [execKeyOpProvision, State.keyOp_serving hs]
  simp only [BitVec.reduceToNat, hfactory, hdma, ne_eq, not_true_eq_false, if_false, Bool.not_true, Bool.false_eq_true, ite_not] <;> rfl

theorem execKeyOpZeroize_served :
    execKeyOpZeroize tag 0 s = .next (((s.bump .key C.KEY_KEY_OPS).zeroize 2 false).mgmtDone .keyOp tag.toNat .ok) := by
  rw [execKeyOpZeroize, State.keyOp_serving hs]
  exact if_neg (not_not.mpr rfl)

end

theorem execKeyExpiry_due {s : State} {slot : Fin 256} {e : Instant} (hvalid : (s.slot slot).st = 1)
    (hexp : (s.slot slot).exp = some e) (hdue : e ≤ s.now) :
    execKeyExpiry slot s = .next (s.invalidate (slot.val :: s.below slot)) := by
  simp only [execKeyExpiry, hvalid, hexp, hdue, beq_self_eq_true, decide_true, Bool.and_self, when_true]

/-- Settles O23, by what a served KEY_OP does and by the expiry of a VALID slot. -/
theorem keyLifeCycleOperationsComplete : Obligations.KeyLifeCycleOperationsComplete := by
  unfold Obligations.KeyLifeCycleOperationsComplete
  intro tag slot len addr dma wrapped state s u t
  refine ⟨?advance, ?retire, ?provision, ?zeroize, ?expiry⟩
  case advance =>
    rintro hs rfl hstate hmay
    exact (execKeyOpAdvance_permitted hs tag (Nat.le_of_lt hstate) hmay).trans (by rw [if_neg (Nat.ne_of_lt hstate)])
  case retire =>
    rintro hs rfl hmay
    exact execKeyOpAdvance_permitted hs tag (state := 4) (Nat.le_refl 4) hmay
  case provision =>
    rintro hs rfl hlcs hdma
    exact execKeyOpProvision_factory hs tag hlcs hdma wrapped
  case zeroize =>
    rintro hs rfl
    exact execKeyOpZeroize_served hs tag
  case expiry => exact fun e hvalid hexp hdue => execKeyExpiry_due hvalid hexp hdue

/-! ## Staging (R436 to R439) -/

theorem execUpdateStageStage_first {s u : State} {addr : BitVec 48} {dma : Dma} (hs : s.Starting)
    (hdma : s.cmdDma false 0 addr.toNat dma = (true, u)) (hnone : u.upd.sources = []) (tag : BitVec 16) (len : BitVec 32)
    (image : Image) :
    execUpdateStageStage tag len addr dma image s = .next (State.mgmtStart { u with upd := { u.upd with
      sources := [⟨0, tag.toNat, some { image with received := min len.toNat image.received }⟩] } } .updateStage tag.toNat) := by
  refine (State.served_queued hs _ tag _ _).trans ?_
  simp only [State.stageImage, State.source, hdma, hnone, Bool.not_true, Bool.false_eq_true, if_false, List.any_nil, List.nil_append, id]

/-- R437: in a pair an image is asked of the partner. -/
theorem execUpdateStagePull_pair {s : State} (hs : s.Starting) (hen : s.on Reg.PAIR_CTL_ENABLE = true)
    (hmode : s.rd Reg.PAIR_CTL_MODE = 1) (hpeer : s.peer ≠ 0) (hother : s.peer ≠ s.unitId) (hnone : s.upd.sources = [])
    (tag : BitVec 16) :
    execUpdateStagePull tag s = .next ((State.mgmtStart { s with upd := { s.upd with sources := [⟨s.peer, tag.toNat, none⟩] } }
      .updateStage tag.toNat).sendHjel s.peer 3 .pullRequest) := by
  refine (State.served_queued hs _ tag _ _).trans ?_
  simp [State.pullImage, State.source, hen, hmode, hpeer, hother, hnone]

theorem execPullRequest_running {s : State} {i : Image} (hrun : s.upd.run = some i) (unit : Fin 16) :
    execPullRequest unit s = .next (s.sendHjel unit 3 (.image i)) := by
  simp only [execPullRequest, hrun]

/-- What verification finds does not rest on the sources. -/
theorem State.verify_sources (s : State) (l : List Staging) (i : Image) :
    State.verify { s with upd := { s.upd with sources := l } } i = s.verify i := rfl

section
variable {s : State} {unit : Fin 16} {tag : Nat} {i : Image} (hone : s.upd.sources = [⟨unit, tag, some i⟩])
include hone

/-- R438: the only source, verified with no slot write under way, is written. -/
theorem execImageVerified_good (hgood : s.verify i = 0) (hidle : s.rd Reg.UPD_STAT_STATE = 0) :
    execImageVerified [(unit, none)] s =
      .next (State.startWrite { s with upd := { s.upd with sources := [] } } ⟨unit, tag, some i⟩ i) := by
  have hrd : State.rd { s with upd := { s.upd with sources := [] } } Reg.UPD_STAT_STATE = 0 := hidle
  simp [execImageVerified, hone, State.verify_sources, hgood, hrd]

/-- R436: the only source, which does not verify, is refused with the code of its check. -/
theorem execImageVerified_bad (hbad : s.verify i ≠ 0) :
    execImageVerified [(unit, none)] s = .next ((State.stageDone { s with upd := { s.upd with sources := [] } }
      tag .invalid (s.verify i) unit i.fwVer.toNat).updEvent 1) := by
  simp [execImageVerified, hone, State.verify_sources, hbad]

end

section
variable {s : State} {x : Staging} {i : Image} (hwriting : s.upd.writing = some x) (himage : x.image = some i)
include hwriting himage

theorem execSlotWriteComplete_equal :
    let u : State := { s with upd := { s.upd with writing := none, images := kvSet s.upd.images s.otherSlot i } }
    execSlotWriteComplete true s = .next (((((u.writeDir (u.upd.dir.slot s.otherSlot 3 i.fwVer.toNat)).wr Reg.UPD_STAT_STATE 2).bump
      .upd C.UPD_STAGED).stageDone x.tag .ok 0 x.source i.fwVer.toNat)) := by
  simp only [execSlotWriteComplete, hwriting, himage]

theorem execSlotWriteComplete_differs :
    let u : State := { s with upd := { s.upd with writing := none } }
    execSlotWriteComplete false s = .next (((u.writeDir (u.upd.dir.slot s.otherSlot 0 0)).wr Reg.UPD_STAT_STATE 0).stageDone
      x.tag .degraded 0x09 x.source i.fwVer.toNat) := by
  simp only [execSlotWriteComplete, hwriting, himage]

end

/-- Settles O25, one lemma for each command under the conditions of its clause. -/
theorem updateStagingCompletes : Obligations.UpdateStagingCompletes := by
  unfold Obligations.UpdateStagingCompletes
  intro tag len addr dma image i unit x s u
  refine ⟨?stage, ?pull, ?request, ?good, ?bad, ?equal, ?differs⟩
  case stage => exact fun hs hdma hnone => execUpdateStageStage_first hs hdma hnone tag len image
  case pull => exact fun hs hen hmode hpeer hother hnone => execUpdateStagePull_pair hs hen hmode hpeer hother hnone tag
  case request => exact fun hrun => execPullRequest_running hrun unit
  case good => exact fun hone hgood hidle => execImageVerified_good hone hgood hidle
  case bad => exact fun hone hbad => execImageVerified_bad hone hbad
  case equal => exact fun hwriting himage => execSlotWriteComplete_equal hwriting himage
  case differs => exact fun hwriting himage => execSlotWriteComplete_differs hwriting himage

/-! ## Trial and configuration store (R437, R438, R441 to R446) -/

theorem execUpdateStageAbandon_staged {s : State} {i : Image} (hs : s.Starting)
    (hstate : s.rd Reg.UPD_STAT_STATE = 2 ∨ s.rd Reg.UPD_STAT_STATE = 3) (himage : kvGet? s.upd.images s.otherSlot = some i)
    (tag : BitVec 16) :
    let u : State := { s with upd := { s.upd with act := none, images := kvDel s.upd.images s.otherSlot } }
    execUpdateStageAbandon tag s = .next (((u.writeDir (u.upd.dir.slot s.otherSlot 0 0)).wr Reg.UPD_STAT_STATE 0).stageDone
      tag.toNat .ok 0x10 (s.rd Reg.UPD_STAT_SOURCE) i.fwVer.toNat) := by
  have hsome : ¬ (s.rd Reg.UPD_STAT_STATE ≠ 2 ∧ s.rd Reg.UPD_STAT_STATE ≠ 3) := by omega
  refine (State.served_queued hs _ tag _ _).trans ?_
  simp only [State.abandon, hsome, himage, if_false]

theorem execUpdateStageSaveCfg_idle {s : State} {i : Image} (hs : s.Starting) (hstate : s.rd Reg.UPD_STAT_STATE ≠ 4)
    (hidle : s.upd.saving = none) (hrun : s.upd.run = some i) (tag : BitVec 16) :
    execUpdateStageSaveCfg tag s = .next (State.mgmtStart { s with upd := { s.upd with
      saving := some (some tag.toNat, s.otherStore, ⟨i.cfgVer.toNat, s.rd Reg.GLB_EPOCH_EPOCH, s.act⟩) } } .updateStage tag.toNat) := by
  refine (State.served_queued hs _ tag _ _).trans ?_
  simp only [State.saveCfg, hstate, hidle, hrun, Option.isSome_none, Bool.false_eq_true, or_self, if_false]

section
variable {s : State} {n copy : Nat} {content : StoreCopy} (hsaving : s.upd.saving = some (some n, copy, content))
include hsaving

theorem execCfgStoreWritten_equal :
    let u : State := { s with upd := { s.upd with saving := none, stores := kvSet s.upd.stores copy content } }
    execCfgStoreWritten true s = .next ((u.writeDir { u.upd.dir with store := copy }).stageDone n .ok 0 0 0) := by
  simp only [execCfgStoreWritten, hsaving, if_true]

theorem execCfgStoreWritten_differs :
    let u : State := { s with upd := { s.upd with saving := none, stores := kvDel s.upd.stores copy } }
    execCfgStoreWritten false s = .next (u.stageDone n .degraded 0x09 0 0) := by
  simp only [execCfgStoreWritten, hsaving, Bool.false_eq_true, if_false]

end

section
variable {s : State} {t : Instant} {flags : Nat} (hact : s.upd.act = some (t, flags))
include hact

theorem execActivation_stops (hgoing : s.upd.stopping = false) (hdue : t ≤ s.now) :
    execActivation s = .next (State.entryActions { s with upd := { s.upd with stopping := true } } t) := by
  simp only [execActivation, hact, hgoing, hdue, Bool.not_false, if_true, decide_true, when_true]

/-- R441: with the drain over the directory names the trial, and the system resets. -/
theorem execActivation_resets (hstopping : s.upd.stopping = true) (hdrained : s.drained t = true) :
    execActivation s = .next (((s.writeDir { s.upd.dir with
      trial := s.otherSlot, attempted := false, reqHost := bitOf flags 0, reqRun := bitOf flags 1 }).systemReset 3).wr
        Reg.UPD_STAT_SOURCE (s.rd Reg.UPD_STAT_SOURCE)) := by
  simp only [execActivation, hact, hstopping, hdrained, Bool.not_true, Bool.false_eq_true, if_false]

end

theorem State.EventsOnly.key {s t : State} (h : s.EventsOnly t) : t.key = s.key := by
  obtain ⟨_, _, _, rfl⟩ := h
  rfl

theorem State.EventsOnly.upd {s t : State} (h : s.EventsOnly t) : t.upd = s.upd := by
  obtain ⟨_, _, _, rfl⟩ := h
  rfl

theorem State.bump_eventsOnly (s : State) (b : Blk) (i x : Nat) : s.EventsOnly (s.bump b i x) := by
  simp only [State.bump, State.bumpBy]
  split
  · exact (State.EventsOnly.refl s).wr _ _
  · exact (((State.EventsOnly.refl s).wr _ _).orBit _ _).trans (State.raise_eventsOnly _ _ _)

/-- What a commit reaches after the directory is written: registers and events. -/
theorem State.committed_eventsOnly (s : State) :
    State.EventsOnly ((((State.wr { s with key := { s.key with secVer := s.committedSecVer } } Reg.UPD_SEC_SEC_VER
      s.committedSecVer).wr Reg.UPD_STAT_STATE 0).wr Reg.UPD_STAT_TRIAL_LEFT_S 0).writeDir s.committedDir) s.committed :=
  ((State.EventsOnly.refl _).wr _ _).trans ((State.bump_eventsOnly _ _ _ _).trans (State.raise_eventsOnly _ _ _))

theorem State.writeDir_key (s : State) (d : Directory) : (s.writeDir d).key = s.key := rfl

theorem State.writeDir_dir (s : State) (d : Directory) : (s.writeDir d).upd.dir = d := rfl

theorem State.committed_key (s : State) : s.committed.key = { s.key with secVer := s.committedSecVer } :=
  s.committed_eventsOnly.key.trans (State.writeDir_key _ _)

theorem State.committed_dir (s : State) : s.committed.upd.dir = s.committedDir :=
  (congrArg UpdState.dir s.committed_eventsOnly.upd).trans (State.writeDir_dir _ _)

theorem execTrialCommit_met {s : State} (htrial : s.rd Reg.UPD_STAT_STATE = 4) (hstart : s.on Reg.UPD_TRIAL_START_MET = true)
    (hcfg : s.on Reg.UPD_TRIAL_CFG_MET = true) (hhost : s.on Reg.UPD_TRIAL_HOST_MET = true)
    (hrun : s.on Reg.UPD_TRIAL_RUN_MET = true) : execTrialCommit s = .next s.committed := by
  rw [execTrialCommit_eq, htrial, hstart, hcfg, hhost, hrun]
  rfl

theorem execTrialTimeout_due {s : State} (htrial : s.rd Reg.UPD_STAT_STATE = 4) (hover : trialNs ≤ s.trialElapsed) :
    execTrialTimeout s = .next (s.trialFails 0x0C) := by
  simp only [execTrialTimeout, htrial, hover, beq_self_eq_true, decide_true, Bool.and_self, when_true]

/-- Settles O27, one lemma for each command; the commit by the keys and the directory of `State.committed`. -/
theorem updateTrialAndStoreComplete : Obligations.UpdateTrialAndStoreComplete := by
  unfold Obligations.UpdateTrialAndStoreComplete
  intro tag t flags copy n content i s src
  refine ⟨?abandon, ?save, ?written, ?differs, ?stops, ?resets, ?commit, ?timeout⟩
  case abandon => exact fun hs hstate himage => execUpdateStageAbandon_staged hs hstate himage tag
  case save => exact fun hs hstate hidle hrun => execUpdateStageSaveCfg_idle hs hstate hidle hrun tag
  case written => exact fun hsaving => execCfgStoreWritten_equal hsaving
  case differs => exact fun hsaving => execCfgStoreWritten_differs hsaving
  case stops => exact fun hact hgoing hdue => execActivation_stops hact hgoing hdue
  case resets => exact fun hact hstopping hdrained => execActivation_resets hact hstopping hdrained
  case commit =>
    intro htrial hstart hcfg hhost hrunMet hrun
    have hsec : s.committed.key.secVer = s.committedSecVer := congrArg KeyState.secVer s.committed_key
    have hmax : s.committedSecVer = max s.key.secVer i.secVer.toNat := by simp only [State.committedSecVer, hrun]
    refine ⟨s.committed, execTrialCommit_met htrial hstart hcfg hhost hrunMet, hsec.trans hmax, ?_, ?_, ?_⟩
    · rw [hsec]
      exact s.committed_key
    · exact congrArg Directory.active s.committed_dir
    · exact congrArg Directory.trial s.committed_dir
  case timeout => exact fun htrial hover => execTrialTimeout_due htrial hover

end Sys2Proof.Machine
